-- ==== Sys2Proof/Word.lean ====
section
/-! DEFINITION. The word types of the device: registers are 32 bits wide (00 R7), frames and memories are bytes. -/

namespace Sys2Proof

/-- A register word (00 R7: registers are 32 bits wide). -/
abbrev Word := BitVec 32

/-- A byte of a frame or of a memory (00 R5). -/
abbrev Byte := BitVec 8

end Sys2Proof
end

