-- ==== Sys2Proof/Syntax.lean ====
section
/-! DEFINITION. The commands of the block: the operations and events of spec/opcode_table.json, with their operands. What the
outside world supplies (bytes read from host memory, flash or a link, sensor values, error outcomes) is an operand. -/

namespace Sys2Proof

/-- Outcome of the error-correcting code of one memory read (08 R194, 13 R298): what the storage delivered. -/
inductive Ecc where
  | good
  | corrected
  | uncorrectable
  deriving DecidableEq, Repr

/-- Bytes fetched from outside the device (host memory, boot flash): the bytes, or a failed read (17 R371). -/
inductive Fetched where
  | bytes (b : List Byte)
  | failed
  deriving DecidableEq, Repr

/-- A raise of a fault source on its way to the Bellman (19 R433, R434): source ID, instance and captured fields. -/
structure Raise where
  src : Nat
  inst : Nat
  addr : Nat := 0
  master : Nat := 0
  acc : Nat := 0
  detail : Nat := 0
  sec : Nat := 0
  ns : Nat := 0
  deriving DecidableEq, Repr

/-- What the table storage delivered to an exact lookup (08 R194, R195): no error, a corrected error, an uncorrectable error in
the bucket of a way, an uncorrectable error in a stash entry, bad parity in the SMALL table's entry, or an uncorrectable read of the
HBM extension (13 Table 13.3). -/
inductive XErr where
  | good
  | corrected
  | bucket (way : Bool)
  | stash
  | parity
  | extRead
  deriving DecidableEq, Repr

/-- What the route storage delivered to a lookup (09 R204): an uncorrectable error names the internal node (its depth in
address bits), the route entry read, or the extension read. -/
inductive LErr where
  | good
  | corrected
  | node (depth : Nat)
  | route
  | extRead
  deriving DecidableEq, Repr


/-- What the duplicated link memory of a queue delivered (12 R284, 14 R332): no error, an error corrected from the other copy, or
a break after `n` frames. -/
inductive LinkErr where
  | good
  | one
  | both (n : Nat)
  deriving DecidableEq, Repr

/-- What a policer bank delivered (14 R333): no error, an uncorrectable configuration, or uncorrectable buckets. -/
inductive PolErr where
  | good
  | config
  | buckets
  deriving DecidableEq, Repr

/-- What a parser's memories delivered to the visits that a parse command makes (05 R96): no error, a corrected error, or at its
first visit an uncorrectable graph-memory error or engine-state error. -/
inductive PErr where
  | good
  | corrected
  | graph
  | engine
  deriving DecidableEq, Repr

/-- What a workshop's memories delivered to an issue (06 R138, 07 R162): no error, a corrected or an uncorrectable control-store word,
or an uncorrectable error in context memory. -/
inductive WErr where
  | good
  | corrected
  | store
  | context
  deriving DecidableEq, Repr

/-- The classes of HBM line accesses (13 R302). -/
inductive HClass where
  | p | x | c | d
  deriving DecidableEq, Repr

/-- A request for one HBM line (13 R285, R302): its class, HBM address, the bytes of a write, what the storage delivers to a read
(R298), and the number of its command and address parity errors. -/
structure HReq where
  cls : HClass
  addr : Nat
  write : Option (List Byte) := none
  ecc : Ecc := .good
  parity : Nat := 0
  deriving DecidableEq, Repr

/-- What the cell memories delivered to a received cell (16 R370): no error, an uncorrectable error in cell staging, or one in the reorder
context. -/
inductive CErr where
  | good
  | staging
  | context
  deriving DecidableEq, Repr


/-- How the writing of a control store ended (07 R158, R161): compared equal, a read-back mismatch that repeated after one rewrite, or an
uncorrectable error in the new image buffer. -/
inductive WriteOut where
  | good
  | mismatch
  | bufError
  deriving DecidableEq, Repr

/-- The commands of the block: one constructor per row of the table of operations and events. -/
inductive Instr where
  /-- A write to a register that has no row of its own takes effect by its access code (R9). -/
  | registerWrite (i : Fin 5) (addr : BitVec 27) (w : Word) (hi : Option Word)
  /-- A BAR0 access of wrong size or alignment, or to an unassigned page, completes with read 0 or write ignored and raises fault source 0x001 (R32). -/
  | bar0InvalidAccess (i : Fin 5) (addr : BitVec 27) (len : Nat) (write : Bool)
  /-- A read of a _LO register replaces the initiator's capture with the paired _HI value (R33). -/
  | loRegisterRead (i : Fin 5) (addr : BitVec 27) (wide : Bool)
  /-- A read of a _HI register returns and clears the pending capture, or returns the current value (R33). -/
  | hiRegisterRead (i : Fin 5) (addr : BitVec 27)
  /-- A write to the _LO word of a 64-bit RW quantity is held with no visible change (R33). -/
  | rw64LoWrite (i : Fin 5) (addr : BitVec 27) (w : Word)
  /-- A write to the _HI word of a 64-bit RW quantity changes the quantity together with the held _LO word (R33). -/
  | rw64HiWrite (i : Fin 5) (addr : BitVec 27) (w : Word)
  /-- A write of CTL.SRST resets the block's pages except kept fields and dooms or ends transactions holding its staged words (R37). -/
  | softReset (i : Fin 5) (b : Fin 24) (page : Fin 256) (en : Bool)
  /-- A block reset completes and STAT.RESETTING returns to 0 (R37). -/
  | blockResetDone (b : Fin 24) (inst : Fin 64)
  /-- A BAR4 read returns HBM bytes of the selected window, or 0 when disabled or out of range (R38). -/
  | bar4Read (off : Word) (n : Fin 257) (bad : Bool)
  /-- A BAR4 write is ignored and raises fault source 0x002 (R38). -/
  | bar4Write
  /-- A BAR2 access outside the assigned ranges completes as an unassigned access and raises fault source 0x003 (R39). -/
  | bar2InvalidAccess (off : BitVec 26) (n : Fin 9) (write : Bool)
  /-- A write to an RWS field is staged, replaced or refused according to the writer's transaction state (R42). -/
  | stagedWrite (i : Fin 5) (addr : BitVec 27) (w : Word)
  /-- The BEGIN command opens a transaction and starts its open timer (R44). -/
  | begin (i : Fin 5)
  /-- The COMMIT command moves an OPEN transaction to COMMITTING, or ends a DOOMED one (R44). -/
  | commit (i : Fin 5)
  /-- The ROLLBACK command discards all staged words and ends the transaction ROLLED_BACK (R44). -/
  | rollback (i : Fin 5)
  /-- A transaction open longer than LDG_TXN_TIMEOUT is doomed with RESULT TIMEOUT (R45). -/
  | txnTimeout (i : Fin 5)
  /-- The Ledger grants the head commit once no job of its initiator runs and a slot is free, and binding begins (R242). -/
  | commitGrant
  /-- After every block has bound, the staged words become live, the new slot becomes CURRENT and the epoch advances (R245). -/
  | commitCycle
  /-- Each block switches to the committed values at its first own-domain cycle after the commit cycle (R46). -/
  | blockSwitch (b : Fin 24)
  /-- A commit waiting for its grant longer than LDG_COMMIT_TIMEOUT ends with RESULT COMMIT_TIMEOUT (R243). -/
  | commitTimeout (i : Fin 5)
  /-- A port becomes up when it is enabled, aligned, FEC-locked and free of faults (R54). -/
  | portUp (port : Fin 256)
  /-- A port goes down, cutting short any frame being received, which is marked FCS-bad (R69). -/
  | portDown (port : Fin 256) (lf : Bool) (rf : Bool)
  /-- A frame arrives on a port, is checked, timestamped and staged; runts are discarded and oversize frames marked FCS-bad (R55). -/
  | frameReceive (port : Fin 256) (b : List Byte) (whole : Bool)
  /-- The end of a frame is received, triggering buffer allocation for a store-and-forward frame or completing a cut-through write (R20). -/
  | frameEnd (f : Nat) (rest : List Byte)
  /-- The FCS result reaches the block holding the frame and a bad frame is dropped or tail-marked according to its progress (R22). -/
  | fcsResult (f : Nat) (ok : Bool)
  /-- While a count stays above XON, the port repeats the PFC frame every QUANTA/2 quanta (R59). -/
  | pfcRepeat (port : Fin 256) (pri : Fin 8)
  /-- A received PFC frame pauses, re-times or ends the pause of a priority, or is counted and discarded (R60). -/
  | pfcReceive (port : Fin 256) (vec : BitVec 8) (times : List (BitVec 16))
  /-- The pause time of a priority runs out and its egress queues may start again (R60). -/
  | pfcPauseExpiry (port : Fin 256) (pri : Fin 8)
  /-- A received IEEE 802.3 PAUSE frame is counted and discarded (R60). -/
  | pauseReceive (port : Fin 256)
  /-- The Loom derives the working calendar from the home calendar, active map and faulted PHYs (R73). -/
  | workingCalendarDerive (g : Fin 64)
  /-- A FlexE overhead frame starts on rank 0, where CR is set and a normal or forced calendar switch takes place (R75). -/
  | calendarBoundary (g : Fin 64)
  /-- The Porter sets each client's port rate to its new slot count when the boundary indication reaches it (R77). -/
  | porterRateSwitch (g : Fin 64)
  /-- CA from the far end is received, allowing a normal switch at the next boundary (R76). -/
  | caReceive (g : Fin 64)
  /-- A change of the far end's C bit makes the receive side use the matching calendar (R78). -/
  | farCBitChange (g : Fin 64) (received : List Nat)
  /-- After a complete overhead multiframe the receive side compares calendars and adopts a differing one (R78). -/
  | overheadMultiframe (g : Fin 64) (received : List Nat)
  /-- A notice frame on an LRN input is discarded, rejected with a pulse, or accepted with LRN_ACK high (R82). -/
  | noticeFrame (n : Fin 8) (len : Nat) (w : Word)
  /-- A write of LOOM_HNOTICE is checked and accepted or rejected as a notice (R83). -/
  | hostNotice (i : Fin 5) (w : Word)
  /-- LRN_ACK falls when the notice completes, or 20 µs after rising for a no-change notice (R82). -/
  | noticeAckFall (n : Fin 9)
  /-- An increase with no normal switch by t0 + 2,000 µs is abandoned and ABANDONED set (R87). -/
  | noticeAbandon (g : Fin 64)
  /-- A member PHY of a following group becomes faulted and its clients are held down with a forced re-slotting (R90). -/
  | phyFault (g : Fin 64) (k : Fin 16)
  /-- A faulted PHY clean for 100 ms is restored and a normal switch to include its slots is requested (R91). -/
  | phyRestore (g : Fin 64) (k : Fin 16)
  /-- A parse engine takes a head, draws its ticket and walks the parse graph (R98). -/
  | parseFrame (slice : Fin 16) (err : PErr)
  /-- A parse waiting for window bytes resumes when they arrive or the frame ends (R94). -/
  | parseResume (f : Nat) (err : PErr)
  /-- Parse results are passed to the dispatch queue in head-queue order (R116). -/
  | parseResultRelease (slice : Fin 16)
  /-- A graph-memory WRITE command stages an entry in the initiator's transaction (R118). -/
  | gmemWrite (i : Fin 5) (slice : Fin 16)
  /-- A graph-memory READ command loads DATA0-8 with the committed or own staged entry (R118). -/
  | gmemRead (i : Fin 5) (slice : Fin 16)
  /-- A FREE context takes a head from its own slice's queues or steals one within the quarter (R127). -/
  | dispatchGrant (w : Fin 64) (c : Fin 256)
  /-- A context's frame area finishes loading and the thread becomes READY (R120). -/
  | contextLoaded (w : Fin 64) (c : Fin 256)
  /-- A journeyman issues one micro-word of a ready thread, applying its slots in order (R145). -/
  | microwordIssue (w : Fin 64) (j : Fin 32) (err : WErr)
  /-- A pass exceeding MAX_ISSUE is ended, dropping an ingress frame or sending an egress frame unedited with bad FCS (R139). -/
  | watchdogExpiry (w : Fin 64) (c : Fin 256)
  /-- A lookup result returns to its tagged register and a waiting thread becomes READY (R133). -/
  | lookupResult (k : Nat)
  /-- A done ticket whose earlier tickets are skipped or held with other keys is released to enqueue or egress queue (R129). -/
  | ticketRelease (slice : Fin 16) (egress : Bool) (headErr : Bool)
  /-- A blocker not done 20 µs after becoming blocker is marked skipped (R130). -/
  | ticketSkip (slice : Fin 16) (egress : Bool)
  /-- A draining workshop with all contexts free and no lookups outstanding becomes ASLEEP and is gated (R137). -/
  | workshopAsleep (w : Fin 64)
  /-- A waking workshop becomes AWAKE 8 µs after its wake began (R458). -/
  | workshopAwake (w : Fin 64)
  /-- The LOAD command fetches, checks and builds an image, then writes it into all 64 stores (R158). -/
  | cstLoad (i : Fin 5)
  /-- The PATCH command fetches, checks and builds an image, then rolls it through the workshops (R158). -/
  | cstPatch (i : Fin 5)
  /-- The ABORT command aborts a fetch or a rolling patch (R161). -/
  | cstAbort (i : Fin 5)
  /-- The fetched container has been checked and the new image built, or the command ends with an error result (R158). -/
  | cstContainerChecked (c : Fetched)
  /-- The LOAD finishes writing and comparing all stores, sets CST_WVER and switches RUN_BUF (R158). -/
  | cstLoadWritten
  /-- A workshop's store has been written and compared during a patch and is released (R158). -/
  | cstPatchWorkshopDone (w : Fin 64) (out : WriteOut)
  /-- Roll-back of an aborted patch completes and the CST returns to IDLE (R161). -/
  | cstRollbackDone
  /-- A control-store word with an uncorrectable error is rewritten from its buffer (R162). -/
  | cstEccRewrite
  /-- A write of CST_DBG_ADDR loads CST_DBG_DATA0-7 with the selected micro-word (R140). -/
  | cstDebugRead (i : Fin 5) (w : Word)
  /-- An EXACT lookup reads both buckets and the stash and returns the entry visible to the VSLOT (R171). -/
  | exactLookup (k : Nat) (err : XErr)
  /-- A LEARN lookup returns HIT on equal data or MISS and queues a learn request (R180). -/
  | learnLookup (k : Nat)
  /-- The learn arbiter decides a request that has waited WIN_US, learning, moving, flapping or refusing it (R180). -/
  | learnDecision
  /-- After a delete, the placement engine tries to place the table's stashed entries into buckets (R176). -/
  | stashReplace (tid : Fin 256)
  /-- A START of an exact-table job locks the table and begins processing records, or is refused (R186). -/
  | xmtJobStart (i : Fin 5) (tid : Fin 256) (count : BitVec 16)
  /-- ABORT ends the running job after its current record (R186). -/
  | xmtJobAbort (i : Fin 5)
  /-- One fetched job record is processed and its RESULT written to host memory (R185). -/
  | xmtJobRecord (rec : Fetched)
  /-- A REHASH copy finishes, freeing the old ways or ending FULL (R177). -/
  | rehashComplete
  /-- At the end of each 100 µs window hot banks get an extent replicated (R189). -/
  | bankUtilWindow
  /-- A replica whose banks stay below COLD_PCT for 100 ms is freed (R189). -/
  | replicaFree (bank : Fin 256)
  /-- An entry idle for DEMOTE_MS in a full table is moved to the HBM extension (R190). -/
  | entryDemote (tid : Fin 256)
  /-- An extension entry that hits while its buckets have room is moved back to SRAM (R190). -/
  | entryPromote (tid : Fin 256)
  /-- The Assayer compares one shadow record with the table and counts or repairs a difference (R192). -/
  | assayerRecord (rec : Fetched)
  /-- A SMALL-table entry with bad parity is rewritten from another quarter or invalidated (R195). -/
  | parityRewrite (tid : Fin 256)
  /-- An LPM lookup returns the longest visible prefix of the VRF (R201). -/
  | lpmLookup (k : Nat) (err : LErr)
  /-- An OBJ lookup returns the object copy visible to the VSLOT (R205). -/
  | objLookup (k : Nat) (ecc : Ecc)
  /-- An ECMP lookup hashes the flow bytes and returns the member data of the bucket (R208). -/
  | ecmpLookup (k : Nat) (ecc : Ecc)
  /-- The oldest-hit cone of a family above DEMOTE_PCT moves to the extension (R203). -/
  | coneDemote (v6 : Bool)
  /-- The cone with the most extension hits is moved back while use stays at or below PROMOTE_PCT (R203). -/
  | conePromote (v6 : Bool)
  /-- An internal node with an uncorrectable error is rebuilt from the routes beneath it (R204). -/
  | lpmNodeRebuild
  /-- A START of an LPM job begins processing records, or is refused BUSY (R215). -/
  | lpmJobStart (i : Fin 5) (count : BitVec 16)
  /-- ABORT ends the running LPM job after its current record (R215). -/
  | lpmJobAbort (i : Fin 5)
  /-- One LPM job record is processed and its RESULT written (R215). -/
  | lpmJobRecord (rec : Fetched)
  /-- A START of an OBJ job begins processing records, or is refused BUSY (R215). -/
  | objJobStart (i : Fin 5) (count : BitVec 16)
  /-- ABORT ends the running OBJ job after its current record (R215). -/
  | objJobAbort (i : Fin 5)
  /-- One OBJ job record writes, deletes or reads an object, ECMP group or replication group (R215). -/
  | objJobRecord (rec : Fetched) (list : Fetched)
  /-- An associative search matches the key against the profile's lists and returns each list's winner (R222). -/
  | acsSearch (k : Nat) (hits : List (Nat × Nat × Nat)) (misses : List (Nat × Nat × Nat)) (ecc : Ecc)
  /-- An update port writes a row group by invalidate, write and validate (R231). -/
  | acsRowRewrite (q : Fin 4)
  /-- The scrubber compares array rows with the rule store and rewrites differing ones (R227). -/
  | acsScrub (q : Fin 4) (found : Option (Nat × Nat × Nat))
  /-- A block's class summary is recomputed after an invalidate (R223). -/
  | acsSummaryRecompute
  /-- An uncorrectable rule-store entry is rewritten from another instance or invalidated (R228). -/
  | acsRulestoreRewrite
  /-- A START of an ACS job begins processing records, or is refused BUSY (R235). -/
  | acsJobStart (i : Fin 5) (count : BitVec 16)
  /-- ABORT ends the running ACS job after its current record (R235). -/
  | acsJobAbort (i : Fin 5)
  /-- One ACS job record stages an insert, update or delete in all four instances, or reads a rule (R230). -/
  | acsJobRecord (rec : Fetched)
  /-- A slot whose counts reach zero becomes DRAINED, or SWEEPING when every older slot is FREE (R249). -/
  | slotDrained (k : Fin 16)
  /-- When every block has finished its sweep, the slot becomes FREE (R249). -/
  | slotFreed (k : Fin 16)
  /-- The RETIRE_OLDEST command retires the oldest OLD slot, toggling its GEN, or is refused (R250). -/
  | retireOldest (i : Fin 5)
  /-- A PREPARE command on the master chooses slot and epoch and sends PREPARE to every participant (R255). -/
  | ccPrepare (i : Fin 5)
  /-- A device receiving PREPARE checks it, binds and answers READY or REFUSE (R255). -/
  | prepareMessage
  /-- The master receives READY or a refusal, and sends GO with T_c when all are ready or ABORT on refusal (R256). -/
  | readyMessage
  /-- The prepare timeout expires and the master sends ABORT (R257). -/
  | ccPrepTimeout
  /-- A device receives GO and commits at T_c, or at once and sets LATE (R256). -/
  | goMessage
  /-- The time base reaches T_c and the device commits the prepared slot (R256). -/
  | ccCommitTime
  /-- An ABORT command on the master before GO aborts the cascade commit (R257). -/
  | ccAbort (i : Fin 5)
  /-- A device receiving ABORT undoes its binding, frees its slot and ends initiator 2 ROLLED_BACK (R257). -/
  | abortMessage
  /-- The master receives DONE for a GO or ABORT and stops repeating it; on ABORT it may free its slot (R361). -/
  | doneMessage
  /-- Every 100 µs the master repeats GO or ABORT to devices that have not answered DONE (R361). -/
  | goRepeat
  /-- The master receives a device's drain report and orders release when every device has drained the slot (R258). -/
  | drainMessage
  /-- A device receiving RELEASE sweeps and frees the slot (R258). -/
  | releaseMessage
  /-- A pool grants a waiting buffer request and the head enters its head queue, or the grant is withdrawn (R264). -/
  | bufferGrant (pool : Fin 8) (ecc : Ecc)
  /-- Free bitmaps are built after the pool counts are fixed and BUF_STAT.INIT is set (R261). -/
  | bufInitDone
  /-- A released ingress result is admitted to its VOQ or dropped 0x07, and the spill decision is made (R271). -/
  | voqEnqueue (ecc : Ecc)
  /-- An admitted spill write is accepted by the stacks and the frame's buffer is freed (R274). -/
  | spillWrite (f : Nat)
  /-- Every 10 µs each VOQ's drain-rate estimate is updated (R273). -/
  | drainRateUpdate
  /-- The oldest spilled frame of a VOQ is returned to die through requester 19 (R276). -/
  | spillReturn (v : Fin 131072)
  /-- A VOQ with positive balance dequeues its head frame, discarding it if retired, parked or aged (R277). -/
  | voqDequeue (v : Fin 131072) (link : LinkErr) (bufErr : Bool) (ecc : Ecc)
  /-- The ageing engine discards from a VOQ's head every frame older than AGE_MS (R278). -/
  | ageingVisit (v : Fin 131072)
  /-- The audit epoch rises by 1 at every whole millisecond (R280). -/
  | auditEpochTick
  /-- The Tally visits an allocated unit and reclaims it when it exceeds the leak limit (R281). -/
  | tallyVisit (bitmap : Option (Nat × Nat))
  /-- A WRITE of a destination descriptor or multicast map entry is applied or refused (R269). -/
  | voqMapWrite (i : Fin 5)
  /-- A READ loads VOQ_MAP_DATA with the selected entry (R269). -/
  | voqMapRead (i : Fin 5)
  /-- At a service opportunity a stack serves the first ready class by reservations and order (R302). -/
  | hbmAccess (h : Fin 6) (arrivals : List HReq)
  /-- At each whole microsecond the class counters gx, gc and gd clear (R302). -/
  | hbmArbWindow
  /-- A refresh tick raises the debt or issues a forced refresh, or exits power-down at full debt (R293). -/
  | refreshTick (h : Fin 6) (pc : Fin 64)
  /-- An idle pseudo-channel with debt issues a refresh (R293). -/
  | makeupRefresh (h : Fin 6) (pc : Fin 64)
  /-- The case temperature is read and the refresh interval set (R292). -/
  | hbmTempRead (h : Fin 6) (t : BitVec 8)
  /-- An idle pseudo-channel enters power-down after PD_TIMER (R294). -/
  | powerDownEntry (h : Fin 6) (pc : Fin 64)
  /-- The TRAIN command starts initialisation and training of the stack, or is refused (R296). -/
  | hbcTrain (i : Fin 5) (h : Fin 6)
  /-- The TEST command starts a march test of the stack, or is refused (R297). -/
  | hbcTest (i : Fin 5) (h : Fin 6)
  /-- The SREF_ENTER command puts the stack into self-refresh (R295). -/
  | srefEnter (i : Fin 5) (h : Fin 6)
  /-- The SREF_EXIT command ends its cause and leaves self-refresh through RECOVERING when no cause holds (R295). -/
  | srefExit (i : Fin 5) (h : Fin 6)
  /-- Training ends, entering INIT or FAILED (R296). -/
  | trainDone (h : Fin 6) (lanes : BitVec 8) (failed : BitVec 64)
  /-- INIT has written every line and the stack becomes READY (R296). -/
  | initDone (h : Fin 6)
  /-- The march test ends, marking failing pseudo-channels, and INIT runs (R297). -/
  | testDone (h : Fin 6) (failed : BitVec 64)
  /-- The short retrain after a block reset ends in RECOVERING or FAILED (R301). -/
  | retrainDone (h : Fin 6) (ok : Bool)
  /-- The RECOVERING read-back completes and the stack becomes READY (R301). -/
  | recoverDone (h : Fin 6)
  /-- Every 100 ms in READY the eyes are re-centred at the next make-up refresh (R297). -/
  | eyeRecentre (h : Fin 6)
  /-- The scrubber reads a line of the table, dump and capture areas and writes back a corrected one (R299). -/
  | hbmScrub (h : Fin 6) (ecc : Ecc)
  /-- At a port's selection instant the Porter chooses and starts the next frame (R310). -/
  | selectionInstant (port : Fin 258) (q : Fin 16) (link : LinkErr) (stateErr : Bool)
  /-- A frame's last byte is transmitted, its buffer freed and its passage ended (R309). -/
  | transmitEnd (port : Fin 258) (bufErr : Bool)
  /-- At each 80 ns instant every shaper's token count is refilled (R315). -/
  | shaperRefill
  /-- At each 80 ns instant each port's credit accumulator rises and credits are issued to requesting flows (R319). -/
  | creditRefill
  /-- A local ON or OFF report reaches the Porter and sets its request bit (R318). -/
  | voqReport
  /-- A credit reaches a VOQ and adds to its balance, or is lost at an empty VOQ (R321). -/
  | creditArrive
  /-- A POLICE lookup refills and colours against the policer's buckets (R323). -/
  | policeLookup (k : Nat) (err : PolErr)
  /-- A policer WRITE command sets its configuration and fills its buckets (R325). -/
  | policerWrite (i : Fin 5)
  /-- A policer READ command loads DATA0-6 (R325). -/
  | policerRead (i : Fin 5)
  /-- A gate entry WRITE is applied or refused BUSY for a list in use or pending (R327). -/
  | gateWrite (i : Fin 5)
  /-- A gate entry READ loads SCH_GATE_DATA0-1 (R327). -/
  | gateRead (i : Fin 5)
  /-- A pending gate list starts at its first cycle start after the switch and BASE (R327). -/
  | gateListSwitch (port : Fin 256)
  /-- A gate window opens or closes and queue eligibility changes (R328). -/
  | gateWindowEdge (port : Fin 256)
  /-- At each sample period end the current values become last-period values (R330). -/
  | samplePeriodEnd
  /-- A write of SCH_SMP_SEL loads the selected queue's last-period values (R330). -/
  | sampleSelect (i : Fin 5) (queue : Fin 4096)
  /-- A remote flow with no ON for 200 µs has its request bit cleared (R359). -/
  | requestBitTimeout (dev : Fin 2048) (port : Fin 512) (cls : Fin 8)
  /-- At each 1 µs window the overload stages' activity and episodes are recorded (R335). -/
  | overloadWindow
  /-- At each whole microsecond the spill use count U becomes 0 (R336). -/
  | spillBudgetReset
  /-- A table bank serves one access from its queue or the table-writer port (R339). -/
  | bankAccess (bank : Fin 256) (arrivals : Nat) (write : Bool)
  /-- At each whole microsecond each punt bucket is refilled (R341). -/
  | puntRefill
  /-- A write of a PUNT word sets that TC's tokens full (R341). -/
  | puntWrite (i : Fin 5) (t : Fin 8) (w : Word)
  /-- A Clalys link's FEC locks and it becomes ALIGNED (R347). -/
  | linkTrained (l : Fin 256)
  /-- Every 10 µs an ALIGNED or UP link sends a HELLO (R347). -/
  | helloSend (l : Fin 256)
  /-- A good HELLO is counted toward UP, or sets LOOP on the device's own ID (R347). -/
  | helloReceive
  /-- A link loses FEC lock or hears no HELLO for 30 µs and becomes DOWN (R347). -/
  | linkDown (l : Fin 256) (lockLost : Bool)
  /-- At each cell slot a link sends the next LINK, CTRL, CKPT or DATA cell (R350). -/
  | cellSend (l : Fin 256)
  /-- A received cell is checked, forwarded or accepted, held, or discarded by its sequence number (R355). -/
  | cellReceive (l : Fin 256) (b : List Byte) (err : CErr)
  /-- A missing SEQ is skipped after REORD_US, dropping its frame 0x01 (R356). -/
  | reorderSkip (src : Fin 2048) (cls : Fin 9)
  /-- A reorder context with no state sets N to its earliest held SEQ after REORD_US (R355). -/
  | contextStart (src : Fin 2048) (cls : Fin 9)
  /-- Every 10 µs the receiver sends an ACK for each changed context (R357). -/
  | ackSend
  /-- An ACK releases the covered transit records and their drain counts (R357). -/
  | ackMessage
  /-- A received STOP halts new DATA cells on that link (R358). -/
  | stopMessage
  /-- A received GO lets DATA cells start again on that link (R358). -/
  | goCellsMessage
  /-- Every 50 µs a non-empty remote VOQ repeats REPORT ON (R359). -/
  | reportRefresh (v : Fin 131072)
  /-- A received REPORT sets or clears the Porter's request bit for the flow (R359). -/
  | reportMessage
  /-- A received CREDIT goes to the matching VOQ or is discarded as CR_NODEST (R359). -/
  | creditMessage
  /-- A received PING is answered with PONG (R360). -/
  | pingMessage
  /-- A received PONG sets the link's one-way delay (R360). -/
  | pongMessage (turn : Nat)
  /-- A CLY_RW WRITE command sends REGWR to the target device (R362). -/
  | remoteWrite (i : Fin 5)
  /-- A CLY_RW READ command sends REGRD to the target device (R362). -/
  | remoteRead (i : Fin 5)
  /-- Every 50 µs without REGACK the access is resent, ending TIMEOUT after 3 (R362). -/
  | remoteResend
  /-- A target performs a REGWR as initiator 2 and answers REGACK (R362). -/
  | regwrMessage
  /-- A target performs a REGRD as initiator 2 and answers REGACK with data (R362). -/
  | regrdMessage
  /-- The master receives REGACK and ends the remote access (R362). -/
  | regackMessage
  /-- A master-capable device announces MASTER at enable and every HB_US (R363). -/
  | masterAnnounce
  /-- A MASTER announcement is accepted or ignored, possibly deposing this device (R363). -/
  | masterMessage
  /-- The master sends a checkpoint to its standby on period, phase, claim or mask change (R365). -/
  | checkpointSend (sw : Fetched)
  /-- The master receives CKPT_ACK, which may release a pending GO (R365). -/
  | ckptAckMessage
  /-- A checkpoint not acknowledged in 100 µs is resent (R365). -/
  | checkpointResend
  /-- No CKPT_ACK within 1 ms of READY makes the master send ABORT and set STBY_LOST (R366). -/
  | stbyLost
  /-- A standby missing MISS announcements takes the master role from its checkpoint (R367). -/
  | takeover
  /-- The HANDOVER command hands the master role to the standby (R368). -/
  | handover (i : Fin 5)
  /-- The REHEARSE command checks the checkpoint and probes every device (R369). -/
  | rehearse (i : Fin 5)
  /-- A device answers PROBE with PROBE_ACK and changes nothing (R369). -/
  | probeMessage
  /-- The standby receives PROBE_ACK, ending the rehearsal OK after the last (R369). -/
  | probeAckMessage
  /-- A rehearsal waiting 1 ms for a PROBE_ACK ends NO_ANSWER (R369). -/
  | rehearseTimeout
  /-- A reach table WRITE command sets a destination's link mask (R350). -/
  | reachWrite (i : Fin 5)
  /-- A reach table READ command loads its data words (R350). -/
  | reachRead (i : Fin 5)
  /-- A PCIe hot or link-down reset resets HIF and ICU and disables every ring and source (R372). -/
  | pcieReset (linkDown : Bool)
  /-- A submission doorbell advances TAIL or is ignored with DB_ERR (R375). -/
  | submissionDoorbell (n : Fin 2048) (w : Word)
  /-- A completion head doorbell advances HEAD or is ignored (R376). -/
  | completionDoorbell (n : Fin 2048) (w : Word)
  /-- A ring WRITE command configures a ring or is refused BUSY or BADCFG (R377). -/
  | ringWrite (i : Fin 5)
  /-- A ring READ command loads HIF_RING_DATA0-7 (R377). -/
  | ringRead (i : Fin 5)
  /-- A fetch engine visits its next eligible ring and fetches a burst of entries (R378). -/
  | ringFetch (e : Fin 16)
  /-- A fetched entry is checked and executed, or fails with BADENT, or a read error disables the ring (R379). -/
  | entryFetched (n : Fin 2048) (e : Fetched)
  /-- An injected frame's bytes are read into its buffer and its head enters the head queue (R380). -/
  | injectDataRead (table : Fetched) (data : Fetched) (frag : Fin 64)
  /-- The head frame of port 256's queue is written into cached RXBUF entries with records (R382). -/
  | puntDeliver (bad : Bool)
  /-- While port 256 is down its queued frames are discarded from the head (R381). -/
  | puntFlush
  /-- A held record leaves the hold into a free place of the host completion ring (R384). -/
  | recordWrite (c : Fin 2048) (bad : Bool)
  /-- The device writes the tail writeback for a ring whose TAIL changed (R384). -/
  | tailWriteback (c : Fin 2048)
  /-- An ASSERT or DEASSERT message from a block updates RAW and may set P (R388). -/
  | sourceMessage
  /-- A write of ICU_PEND_SET sets or clears a source's pending bit and binding (R389). -/
  | pendSet (i : Fin 5) (n : Fin 4096) (clr : Bool)
  /-- A write of ICU_SRC_CFG changes enable, priority or target, possibly setting P or moving an unbound source (R395). -/
  | sourceConfigWrite (i : Fin 5) (w : Word)
  /-- An idle target with a candidate emits an interrupt message and binds the cause (R391). -/
  | messageEmit (t : Fin 257) (srcs : List (Fin 4096)) (tgts : List (Fin 257))
  /-- A read of ICU_CLAIM returns the best candidate and puts it in service, or NONE (R392). -/
  | claim (i : Fin 5) (t : Fin 257)
  /-- A write of ICU_EOI ends the interrupt and sends a sample request for a level source (R393). -/
  | eoi (i : Fin 5) (t : Fin 257) (n : Fin 4096)
  /-- The sample answer sets P again if asserted and lets the target tail-chain (R393). -/
  | sampleAnswer (t : Fin 257)
  /-- A masked or sleeping target with a candidate raises wake, starting the island clock or sending PM_PME (R394). -/
  | targetWake (t : Fin 257)
  /-- A completion ring's oldest unconsumed record reaches TIMER_US and asserts its source (R397). -/
  | completionTimer (c : Fin 2048)
  /-- An event report or condition sample reaches CNT and programmable counters count it (R400). -/
  | counterReport (sample : Bool) (bad : Option (Fin 4096))
  /-- A CNT_CMD WRITE reprograms the selected counter, optionally clearing it (R405). -/
  | counterWrite (i : Fin 5) (clear : Bool)
  /-- A CNT_CMD READ loads CNT_CFG0/1 with the selected counter's selection (R405). -/
  | counterRead (i : Fin 5)
  /-- A COUNT lookup adds its increment to a PROG counter (R406). -/
  | countLookup (k : Nat) (bad : Bool)
  /-- A read of a counter page LO word captures the HI word for that page (R409). -/
  | counterPageRead (page : Fin 4096) (w : Fin 1024) (wide : Bool)
  /-- At a dump instant a counter dump begins, or is skipped or not made (R410). -/
  | dumpInstant
  /-- The dump's last write sets COMMIT to SEQ and CNT_DUMP_STAT takes it (R412). -/
  | dumpCommit (ok : Bool)
  /-- A PROG or DROP trigger event queues a capture record, or is suppressed or lost (R415). -/
  | captureTrigger
  /-- The Scrivener writes the next queued record, with PAD, into the ring or loses it (R418). -/
  | captureWrite (bad : Bool)
  /-- The SET command loads the time base, or is refused (R421). -/
  | timeSet (i : Fin 5)
  /-- The STEP command adds signed nanoseconds to the time base, or is refused (R421). -/
  | timeStep (i : Fin 5)
  /-- A read of TIM_NOW_NS captures the seconds registers of the same cycle (R420). -/
  | timeRead (i : Fin 5)
  /-- A read of TIM_PPS_IN_NS captures TIM_PPS_IN_SLO (R420). -/
  | ppsInRead (i : Fin 5)
  /-- The time PLL loses lock, holds its frequency and raises TIM fault source 0 (R422). -/
  | pllLockLoss
  /-- A rising edge of PPS_IN is timestamped (R424). -/
  | ppsInEdge
  /-- PPS_OUT rises at each second plus OUT_OFS and falls WIDTH_MS later (R424). -/
  | ppsOutEdge
  /-- A SyncE output is squelched when its lane loses lock or its port goes down (R425). -/
  | synceSquelch (n : Fin 2) (lost : Bool)
  /-- A squelched output returns 100 ms after both conditions end (R425). -/
  | synceRestore (n : Fin 2)
  /-- Every TIME_US the device sends TIME on each UP link (R426). -/
  | timeSend
  /-- A follower receiving TIME from its chosen link steps or slews its time base (R427). -/
  | timeMessage
  /-- No TIME for 1 ms sets HOLDOVER and freezes FREQ (R427). -/
  | timeHoldover
  /-- A raise reaching the Bellman is sequenced, recorded and reacted to, or classed repeat, consequential or preempted (R435). -/
  | faultRaise (same : Nat) (bad : Bool)
  /-- A reaction shadow closes SHADOW_US after its reset completes (R444). -/
  | shadowClose
  /-- A write of FLT_NMT.ACK acknowledges every trap (R439). -/
  | nmtAck (i : Fin 5)
  /-- A write of FLT_PIN.REL releases ERROR_N unless safe state holds (R441). -/
  | errorPinRelease (i : Fin 5)
  /-- A write of FLT_PIN.EXIT ends safe state unless an island condition holds (R442). -/
  | safeStateExit (i : Fin 5)
  /-- A write of 1 to FIRST_V clears FIRST and re-arms capture (R448). -/
  | firstRearm (i : Fin 5)
  /-- A write of FLT_REC_SEL loads the selected record and marks it read (R447). -/
  | recordSelect (i : Fin 5) (w : Word) (bad : Bool)
  /-- A chip reset ordered by the Bellman resets the device, keeping fuses, records and ERROR_N (R443). -/
  | chipReset (blown : Nat)
  /-- Each tick samples channels, filters, evaluates the rules and applies targets (R452). -/
  | islandTick (ain : List (BitVec 12)) (power : BitVec 16) (bad : Option (Fin 128))
  /-- A due wake begins once the rate, budget and cooling limits allow (R458). -/
  | wakeBegin
  /-- A workshop not AWAKE 20 µs after its wake began is gated and marked failed (R460). -/
  | wakeFail (w : Fin 64)
  /-- A slice's level change completes its voltage and frequency steps (R461). -/
  | levelChangeDone (sl : Fin 16)
  /-- At each CPER boundary the cooling integrator advances (R465). -/
  | coolPeriod
  /-- At each 250 ms gate a tach reading is taken and a slow fan raises a fault (R463). -/
  | tachGate (k : Fin 4) (edges : Nat)
  /-- A die or HBM temperature reading may start or end a thermal safe-state condition (R466). -/
  | dieSensorReading (k : Fin 26) (t : BitVec 16)
  /-- A temperature reading not received for 1 ms raises AON fault source 2 (R470). -/
  | sensorTimeout (k : Fin 26)
  /-- The ISLAND_ONLY command sleeps every workshop, puts HBM in self-refresh and stops domains (R468). -/
  | islandOnly (i : Fin 5)
  /-- The WAKE_CTRL command starts the island controller's domain 57 (R451). -/
  | wakeCtrl (i : Fin 5)
  /-- A host BAR0 access or JTAG AON write restarts the device from island-only state (R492). -/
  | islandRestart
  /-- The LOAD command fetches and checks an ISLAND or GRAPH container and applies it (R511). -/
  | secLoad (i : Fin 5)
  /-- The verifier checks a container in order and records the first failing cause (R472). -/
  | containerCheck (c : Fetched)
  /-- The ATTEST command forms and signs an attestation report (R482). -/
  | attest (i : Fin 5)
  /-- The SVN_ADVANCE command blows counter fuses up to v, or is refused BADARG (R479). -/
  | svnAdvance (i : Fin 5)
  /-- The REVOKE command blows a key slot's revoke fuse, or is refused (R480). -/
  | revoke (i : Fin 5)
  /-- The RECOVER command fetches and checks a BOOT container from host memory and continues boot (R478). -/
  | recover (i : Fin 5)
  /-- A fuse command completes after its fuses are blown (R479). -/
  | fuseCommandDone
  /-- At reset release the boot ROM reads fuses and directories and loads BOOT and ISLAND (R476). -/
  | bootRom (fuseErr : Bool) (katFail : Bool) (dir0 : Fetched) (dir1 : Fetched) (boot0 : Fetched) (boot1 : Fetched) (isl0 : Fetched) (isl1 : Fetched)
  /-- VDD_AON rising or falling below threshold resets every block (R485). -/
  | powerOnReset (blown : Nat)
  /-- RESET_N low for 1 µs resets every block except the island clock and filters (R486). -/
  | pinReset (blown : Nat)
  /-- RESET_N is released and the boot ROM starts (R489). -/
  | resetRelease (straps : BitVec 4)
  /-- Under the predicted page policy, a row kept open is closed after 64 cycles with no request to its bank (R291). -/
  | pageIdleClose (h : Fin 6) (pc : Fin 64) (bank : Fin 48)
  /-- A restore switch abandoned for lack of CA is tried again after a further 100 ms (R91). -/
  | restoreRetry (g : Fin 64)
  /-- The receive side of a FlexE PHY gains or loses overhead and multiframe lock, changing LOOM_GRP_STAT.UP and so the group's and clients' up state (R67). -/
  | overheadLockChange (g : Fin 64) (k : Fin 16) (locked : Bool) (instOk : Bool)
  /-- A Clalys link sends a PING LINK cell so that the PONG round trip gives CLY_LINK_DLY (R360). -/
  | linkPing (l : Fin 256)
  /-- A HANDOVER that has waited 10 ms for a cascade commit to finish ends with RESULT BUSY (R368). -/
  | handoverTimeout
  /-- The PCIe link finishes training and enters L0 at its negotiated speed and width, updating HIF_LINK_STAT (R371). -/
  | pcieLinkTrained (speed : Fin 6) (width : Fin 5) (flit : Bool)
  /-- A host configuration write moves the function between D0 and D3hot, which governs PME wake and trap delivery (R371). -/
  | pcieDstateChange (d3 : Bool) (pme : Bool)
  /-- Under ASPM the idle PCIe link enters L1, its substates, or L0p (R371). -/
  | pcieL1Entry (lpm : Fin 3)
  /-- The time PLL locks to its selected source and TIM_STAT.LOCKED becomes 1 (R422). -/
  | timePllLock
  /-- The loss of REFCLK25 stops the island and every clock derived from it, and a power-on reset follows when it returns (R508). -/
  | refclk25Loss
  /-- The island controller halts itself, and domain 57 stops when no cause is pending (R451). -/
  | islandControllerHalt
  /-- The attestation report finishes signing within 400 µs, and the SEC command ends with its result and INT_STAT bit 2 (R482). -/
  | attestReportSigned (keyBad : Bool)
  deriving DecidableEq, Repr

end Sys2Proof
end

