-- ==== Sys2Proof/Decode.lean ====
section
/-! DEFINITION. The decoder of table words. The table of operations of this block gives no row any bits: commands reach the queue as
commands, so no word spells one. -/

namespace Sys2Proof

/-- The command that the bits of a table word spell: none, since no row of the table has bits. -/
def decodeTableWord (_nbits _w : Nat) : Option Instr := none

end Sys2Proof
end

