-- ==== Sys2Proof/Config.lean ====
section
/-! DEFINITION. What one device fixes (fused values) and what the manual leaves open: constants without a body, so that no
proof can see their value. -/

namespace Sys2Proof.Config

/-- A free value where the manual leaves one open, applied to the state's counter of free values (log 4). -/
opaque freeWord : Nat → Word

/-- The fused serial number (21 SEC_SERIAL): 64 bits. -/
opaque serial : BitVec 64

/-- The fused identity public key, 64 bytes x then y (21 SEC_IDPUB). -/
opaque idPub : Nat → Byte

/-- The digest of key slot `k` (0–3) held in fuses (21 R473). -/
opaque keyDigest : Nat → List Byte

/-- The number of anti-rollback fuse bits blown before the model begins (21 R479); above 64 it acts as 64. -/
opaque svnAtStart : BitVec 7

/-- The key slots revoked before the model begins (21 R480). -/
opaque revokedAtStart : BitVec 4

/-- Polynomial and seed of the CRC over a boot directory (21 R476 names the function of R167 and states neither). -/
opaque dirPoly : Word

/-- See `dirPoly`. -/
opaque dirSeed : Word

/-- SM3 (GB/T 32905): the 32-byte digest of a byte string; the manual names the function and does not define it. -/
opaque sm3 : List Byte → List Byte

/-- SM2 signature verification (GB/T 32918): key bytes, signed bytes, signature bytes. -/
opaque sm2Verify : List Byte → List Byte → List Byte → Bool

/-- SM2 signing by the fused identity key: the 64 signature bytes of a message. -/
opaque sm2Sign : List Byte → List Byte

end Sys2Proof.Config
end

