-- ==== Sys2Proof/Machine/Tbl.lean ====
section
/-! DEFINITION. Sparse tables: lists of (key, value) pairs in one canonical form (keys strictly rising, no entry equal to
what an unlisted key reads as). Registers, memories and every per-index table of the device are held this way. -/

namespace Sys2Proof.Machine

/-- A sparse table: an unlisted key `k` reads as a default that the reader supplies. -/
abbrev Tbl (α : Type) := List (Nat × α)

/-- The value at key `k`; an unlisted key reads as `d k`. -/
def Tbl.get {α : Type} (d : Nat → α) (t : Tbl α) (k : Nat) : α :=
  match t with
  | [] => d k
  | (k', v) :: r => if k' = k then v else Tbl.get d r k

/-- The table without its entry for `k`. -/
def Tbl.erase {α : Type} (t : Tbl α) (k : Nat) : Tbl α := t.filter fun p => p.1 != k

/-- The table with `(k, v)` placed before the first larger key. -/
def Tbl.insert {α : Type} (t : Tbl α) (k : Nat) (v : α) : Tbl α :=
  match t with
  | [] => [(k, v)]
  | (k', v') :: r => if k < k' then (k, v) :: (k', v') :: r else (k', v') :: Tbl.insert r k v

/-- The table with key `k` reading `v`: storing the default removes the entry. -/
def Tbl.set {α : Type} [DecidableEq α] (d : Nat → α) (t : Tbl α) (k : Nat) (v : α) : Tbl α :=
  if v = d k then t.erase k else (t.erase k).insert k v

/-- The canonical form: keys strictly rising and no entry equal to the default of its key. -/
def Tbl.wf {α : Type} [DecidableEq α] (d : Nat → α) (t : Tbl α) : Bool :=
  match t with
  | [] => true
  | (k, v) :: r => v != d k && (r.all fun p => k < p.1) && Tbl.wf d r

/-- Consecutive values from key `k` on. -/
def Tbl.getMany {α : Type} (d : Nat → α) (t : Tbl α) (k : Nat) : Nat → List α
  | 0 => []
  | n + 1 => Tbl.get d t k :: Tbl.getMany d t (k + 1) n

/-- Store consecutive values from key `k` on. -/
def Tbl.setMany {α : Type} [DecidableEq α] (d : Nat → α) (t : Tbl α) (k : Nat) : List α → Tbl α
  | [] => t
  | v :: r => Tbl.setMany d (Tbl.set d t k v) (k + 1) r

end Sys2Proof.Machine
end

