-- ==== Sys2Proof/Machine/RegMap.lean ====
section
/-! DEFINITION. The register map (02 R34, R35 and the register tables of every chapter) as data: for each register its
BAR0 byte address, its repetition, the mask of each access code of 00 Table 0.3 and its reset word. A bit in no mask is
RO, WO or RSV: a write leaves it. -/

namespace Sys2Proof.Machine

/-- How a register takes part in a pair (02 R33): a counter pair whose _LO read captures _HI, a 64-bit RW quantity, or neither. -/
inductive PairKind where
  | plain | snapLo | snapHi | rwLo | rwHi
  deriving DecidableEq, Repr

/-- One register of the map; `dims` gives its repetitions as (count, stride). -/
structure RegRow where
  base : Nat
  dims : List (Nat × Nat)
  rw : Nat
  w1c : Nat
  w1s : Nat
  rws : Nat
  reset : Nat
  kind : PairKind
  deriving DecidableEq, Repr

/-- Whether an offset from a register's base is one of its repetitions. -/
def coversDims : List (Nat × Nat) → Nat → Bool
  | [], off => off == 0
  | (c, s) :: r, off => decide (off / s < c) && coversDims r (off % s)

/-- Whether the address `a` is this register or one of its repetitions. -/
def RegRow.covers (r : RegRow) (a : Nat) : Bool := decide (r.base ≤ a) && coversDims r.dims (a - r.base)

/-- The registers of SYS. -/
def rowsSys : List RegRow := [
  { base := 0xC0, dims := [], rw := 0x8000003F, w1c := 0x0, w1s := 0x0, rws := 0x0, reset := 0x0, kind := .plain } /- SYS_BAR4_WIN -/,
  { base := 0x1080, dims := [], rw := 0x0, w1c := 0x0, w1s := 0x0, rws := 0x0, reset := 0x0, kind := .plain } /- SYS_OVL_STAT -/,
  { base := 0x1084, dims := [(5, 0x4)], rw := 0x0, w1c := 0x0, w1s := 0x0, rws := 0x0, reset := 0x0, kind := .plain } /- SYS_OVL_EPIS -/,
  { base := 0x10A0, dims := [], rw := 0x1FFFF, w1c := 0x0, w1s := 0x0, rws := 0x0, reset := 0x124F8, kind := .plain } /- SYS_OVL_SPILL_BUD -/,
  { base := 0x10A4, dims := [], rw := 0x1F1F1F1F, w1c := 0x0, w1s := 0x0, rws := 0x0, reset := 0xC0B0A09, kind := .plain } /- SYS_OVL_SPILL_CAP -/,
  { base := 0x10A8, dims := [], rw := 0x1F1F1F1F, w1c := 0x0, w1s := 0x0, rws := 0x0, reset := 0x100F0E0D, kind := .plain } /- SYS_OVL_SPILL_CAP -/,
  { base := 0x10AC, dims := [], rw := 0x0, w1c := 0x0, w1s := 0x0, rws := 0x0, reset := 0x0, kind := .plain } /- SYS_OVL_SPILL_USE -/,
  { base := 0x10B0, dims := [], rw := 0x7FF07FF, w1c := 0x0, w1s := 0x0, rws := 0x0, reset := 0x3200300, kind := .plain } /- SYS_OVL_SHED_THR -/,
  { base := 0x10B4, dims := [], rw := 0x7FF07FF, w1c := 0x0, w1s := 0x0, rws := 0x0, reset := 0x3600340, kind := .plain } /- SYS_OVL_SHED_THR -/,
  { base := 0x10B8, dims := [], rw := 0x7FF07FF, w1c := 0x0, w1s := 0x0, rws := 0x0, reset := 0x3A00380, kind := .plain } /- SYS_OVL_SHED_THR -/,
  { base := 0x10BC, dims := [], rw := 0x7FF07FF, w1c := 0x0, w1s := 0x0, rws := 0x0, reset := 0x3E003C0, kind := .plain } /- SYS_OVL_SHED_THR -/,
  { base := 0x10C0, dims := [(8, 0x4)], rw := 0xFFFFFFFF, w1c := 0x0, w1s := 0x0, rws := 0x0, reset := 0x10003E8, kind := .plain } /- SYS_OVL_PUNT -/,
  { base := 0x1100, dims := [(8, 0x4)], rw := 0x0, w1c := 0x0, w1s := 0x0, rws := 0x0, reset := 0x0, kind := .plain } /- SYS_OVL_SPILL_DROP -/,
  { base := 0x1120, dims := [(8, 0x4)], rw := 0x0, w1c := 0x0, w1s := 0x0, rws := 0x0, reset := 0x0, kind := .plain } /- SYS_OVL_SHED -/,
  { base := 0x1140, dims := [(8, 0x4)], rw := 0x0, w1c := 0x0, w1s := 0x0, rws := 0x0, reset := 0x0, kind := .plain } /- SYS_OVL_PUNT_DROP -/,
  { base := 0x1160, dims := [], rw := 0x0, w1c := 0x0, w1s := 0x0, rws := 0x0, reset := 0x0, kind := .snapLo } /- SYS_OVL_BANK_WAIT_LO -/,
  { base := 0x1164, dims := [], rw := 0x0, w1c := 0x0, w1s := 0x0, rws := 0x0, reset := 0x0, kind := .snapHi } /- SYS_OVL_BANK_WAIT_HI -/,
  { base := 0x1168, dims := [], rw := 0x0, w1c := 0x0, w1s := 0x0, rws := 0x0, reset := 0x0, kind := .snapLo } /- SYS_OVL_ACS_WAIT_LO -/,
  { base := 0x116C, dims := [], rw := 0x0, w1c := 0x0, w1s := 0x0, rws := 0x0, reset := 0x0, kind := .snapHi } /- SYS_OVL_ACS_WAIT_HI -/,
  { base := 0x1170, dims := [], rw := 0x0, w1c := 0x0, w1s := 0x0, rws := 0x0, reset := 0x0, kind := .plain } /- SYS_OVL_REPL_FAIL -/]

/-- Registers of LDG, part 0. -/
def rowsLdg0 : List RegRow := [
  { base := 0x10080, dims := [], rw := 0x0, w1c := 0x0, w1s := 0x0, rws := 0x0, reset := 0x4000, kind := .plain } /- LDG_STAGE -/,
  { base := 0x10084, dims := [], rw := 0x0, w1c := 0x1, w1s := 0x0, rws := 0x0, reset := 0x0, kind := .plain } /- LDG_ORPHAN_STAT -/,
  { base := 0x10088, dims := [], rw := 0x0, w1c := 0x0, w1s := 0x0, rws := 0x0, reset := 0x0, kind := .plain } /- LDG_ORPHAN_ADDR -/,
  { base := 0x10100, dims := [(5, 0x40)], rw := 0x0, w1c := 0x0, w1s := 0x0, rws := 0x0, reset := 0x0, kind := .plain } /- LDG_TXN_CMD -/,
  { base := 0x10104, dims := [(5, 0x40)], rw := 0x0, w1c := 0x0, w1s := 0x0, rws := 0x0, reset := 0x0, kind := .plain } /- LDG_TXN_STAT -/,
  { base := 0x10108, dims := [(5, 0x40)], rw := 0x1, w1c := 0x0, w1s := 0x0, rws := 0x0, reset := 0x0, kind := .plain } /- LDG_TXN_CTL -/,
  { base := 0x1010C, dims := [(5, 0x40)], rw := 0xFFFFFF, w1c := 0x0, w1s := 0x0, rws := 0x0, reset := 0xF4240, kind := .plain } /- LDG_TXN_TIMEOUT -/,
  { base := 0x10110, dims := [(5, 0x40)], rw := 0x0, w1c := 0x0, w1s := 0x0, rws := 0x0, reset := 0x0, kind := .plain } /- LDG_TXN_EPOCH -/,
  { base := 0x10114, dims := [(5, 0x40)], rw := 0x0, w1c := 0x0, w1s := 0x0, rws := 0x0, reset := 0x0, kind := .plain } /- LDG_TXN_CONFLICT_ADDR -/,
  { base := 0x10240, dims := [], rw := 0xFFFFFF, w1c := 0x0, w1s := 0x0, rws := 0x0, reset := 0x30D40, kind := .plain } /- LDG_COMMIT_TIMEOUT -/,
  { base := 0x10244, dims := [], rw := 0x0, w1c := 0x0, w1s := 0x0, rws := 0x0, reset := 0x0, kind := .plain } /- LDG_EPOCH -/,
  { base := 0x10248, dims := [], rw := 0x0, w1c := 0x0, w1s := 0x0, rws := 0x0, reset := 0x10F00, kind := .plain } /- LDG_VER_STAT -/,
  { base := 0x1024C, dims := [], rw := 0x0, w1c := 0x0, w1s := 0x0, rws := 0x0, reset := 0x0, kind := .plain } /- LDG_SLOT_CMD -/,
  { base := 0x10250, dims := [], rw := 0x0, w1c := 0x0, w1s := 0x0, rws := 0x0, reset := 0x0, kind := .plain } /- LDG_SLOT_CMD_STAT -/,
  { base := 0x10254, dims := [], rw := 0x0, w1c := 0x0, w1s := 0x0, rws := 0x0, reset := 0x0, kind := .plain } /- LDG_RETIRE_DROPS -/,
  { base := 0x10258, dims := [], rw := 0x0, w1c := 0x0, w1s := 0x0, rws := 0x0, reset := 0x0, kind := .plain } /- LDG_RETIRE_CNT -/,
  { base := 0x1025C, dims := [], rw := 0x0, w1c := 0x0, w1s := 0x0, rws := 0x0, reset := 0x0, kind := .plain } /- LDG_SLOT_WAITS -/,
  { base := 0x10400, dims := [(16, 0x10)], rw := 0x0, w1c := 0x0, w1s := 0x0, rws := 0x0, reset := 0x0, kind := .plain } /- LDG_SLOT_EPOCH -/,
  { base := 0x10404, dims := [], rw := 0x0, w1c := 0x0, w1s := 0x0, rws := 0x0, reset := 0x2, kind := .plain } /- LDG_SLOT_STAT -/,
  { base := 0x10414, dims := [], rw := 0x0, w1c := 0x0, w1s := 0x0, rws := 0x0, reset := 0x0, kind := .plain } /- LDG_SLOT_STAT -/,
  { base := 0x10424, dims := [], rw := 0x0, w1c := 0x0, w1s := 0x0, rws := 0x0, reset := 0x0, kind := .plain } /- LDG_SLOT_STAT -/,
  { base := 0x10434, dims := [], rw := 0x0, w1c := 0x0, w1s := 0x0, rws := 0x0, reset := 0x0, kind := .plain } /- LDG_SLOT_STAT -/,
  { base := 0x10444, dims := [], rw := 0x0, w1c := 0x0, w1s := 0x0, rws := 0x0, reset := 0x0, kind := .plain } /- LDG_SLOT_STAT -/,
  { base := 0x10454, dims := [], rw := 0x0, w1c := 0x0, w1s := 0x0, rws := 0x0, reset := 0x0, kind := .plain } /- LDG_SLOT_STAT -/]

/-- Registers of LDG, part 1. -/
def rowsLdg1 : List RegRow := [
  { base := 0x10464, dims := [], rw := 0x0, w1c := 0x0, w1s := 0x0, rws := 0x0, reset := 0x0, kind := .plain } /- LDG_SLOT_STAT -/,
  { base := 0x10474, dims := [], rw := 0x0, w1c := 0x0, w1s := 0x0, rws := 0x0, reset := 0x0, kind := .plain } /- LDG_SLOT_STAT -/,
  { base := 0x10484, dims := [], rw := 0x0, w1c := 0x0, w1s := 0x0, rws := 0x0, reset := 0x0, kind := .plain } /- LDG_SLOT_STAT -/,
  { base := 0x10494, dims := [], rw := 0x0, w1c := 0x0, w1s := 0x0, rws := 0x0, reset := 0x0, kind := .plain } /- LDG_SLOT_STAT -/,
  { base := 0x104A4, dims := [], rw := 0x0, w1c := 0x0, w1s := 0x0, rws := 0x0, reset := 0x0, kind := .plain } /- LDG_SLOT_STAT -/,
  { base := 0x104B4, dims := [], rw := 0x0, w1c := 0x0, w1s := 0x0, rws := 0x0, reset := 0x0, kind := .plain } /- LDG_SLOT_STAT -/,
  { base := 0x104C4, dims := [], rw := 0x0, w1c := 0x0, w1s := 0x0, rws := 0x0, reset := 0x0, kind := .plain } /- LDG_SLOT_STAT -/,
  { base := 0x104D4, dims := [], rw := 0x0, w1c := 0x0, w1s := 0x0, rws := 0x0, reset := 0x0, kind := .plain } /- LDG_SLOT_STAT -/,
  { base := 0x104E4, dims := [], rw := 0x0, w1c := 0x0, w1s := 0x0, rws := 0x0, reset := 0x0, kind := .plain } /- LDG_SLOT_STAT -/,
  { base := 0x104F4, dims := [], rw := 0x0, w1c := 0x0, w1s := 0x0, rws := 0x0, reset := 0x0, kind := .plain } /- LDG_SLOT_STAT -/,
  { base := 0x10408, dims := [(16, 0x10)], rw := 0x0, w1c := 0x0, w1s := 0x0, rws := 0x0, reset := 0x0, kind := .plain } /- LDG_SLOT_PRE -/,
  { base := 0x1040C, dims := [(16, 0x10)], rw := 0x0, w1c := 0x0, w1s := 0x0, rws := 0x0, reset := 0x0, kind := .plain } /- LDG_SLOT_POST -/,
  { base := 0x10500, dims := [(16, 0x4)], rw := 0x0, w1c := 0x0, w1s := 0x0, rws := 0x0, reset := 0x0, kind := .plain } /- LDG_SLOT_RPRE -/,
  { base := 0x10600, dims := [], rw := 0xFFFF0003, w1c := 0x0, w1s := 0x0, rws := 0x0, reset := 0x140000, kind := .plain } /- LDG_CC_CFG -/,
  { base := 0x10604, dims := [], rw := 0xFFFFFF, w1c := 0x0, w1s := 0x0, rws := 0x0, reset := 0x3E8, kind := .plain } /- LDG_CC_PREP_TO -/,
  { base := 0x10608, dims := [], rw := 0x0, w1c := 0x0, w1s := 0x0, rws := 0x0, reset := 0x0, kind := .plain } /- LDG_CC_CMD -/,
  { base := 0x1060C, dims := [], rw := 0x0, w1c := 0x80, w1s := 0x0, rws := 0x0, reset := 0x0, kind := .plain } /- LDG_CC_STAT -/,
  { base := 0x10610, dims := [], rw := 0x0, w1c := 0x0, w1s := 0x0, rws := 0x0, reset := 0x0, kind := .plain } /- LDG_CC_EPOCH -/,
  { base := 0x10614, dims := [], rw := 0x0, w1c := 0x0, w1s := 0x0, rws := 0x0, reset := 0x0, kind := .snapLo } /- LDG_CC_TIME_LO -/,
  { base := 0x10618, dims := [], rw := 0x0, w1c := 0x0, w1s := 0x0, rws := 0x0, reset := 0x0, kind := .snapHi } /- LDG_CC_TIME_HI -/,
  { base := 0x10700, dims := [(64, 0x4)], rw := 0xFFFFFFFF, w1c := 0x0, w1s := 0x0, rws := 0x0, reset := 0x0, kind := .plain } /- LDG_CC_MASK -/]

/-- The registers of LDG. -/
def rowsLdg : List RegRow := rowsLdg0 ++ rowsLdg1

/-- The registers of SEC. -/
def rowsSec : List RegRow := [
  { base := 0x20080, dims := [], rw := 0x0, w1c := 0x0, w1s := 0x0, rws := 0x0, reset := 0x0, kind := .plain } /- SEC_STAT -/,
  { base := 0x20084, dims := [], rw := 0x0, w1c := 0x0, w1s := 0x0, rws := 0x0, reset := 0x0, kind := .plain } /- SEC_CMD -/,
  { base := 0x20088, dims := [], rw := 0x0, w1c := 0x0, w1s := 0x0, rws := 0x0, reset := 0x0, kind := .plain } /- SEC_RESULT -/,
  { base := 0x2008C, dims := [], rw := 0xFFFFFFFF, w1c := 0x0, w1s := 0x0, rws := 0x0, reset := 0x0, kind := .rwLo } /- SEC_SRC_LO -/,
  { base := 0x20094, dims := [], rw := 0x1FFFFFF, w1c := 0x0, w1s := 0x0, rws := 0x0, reset := 0x0, kind := .plain } /- SEC_SRC_LEN -/,
  { base := 0x20098, dims := [], rw := 0x0, w1c := 0x0, w1s := 0x0, rws := 0x0, reset := 0x0, kind := .plain } /- SEC_FUSE -/,
  { base := 0x2009C, dims := [], rw := 0x7F, w1c := 0x0, w1s := 0x0, rws := 0x0, reset := 0x0, kind := .plain } /- SEC_SVN_ARG -/,
  { base := 0x200A0, dims := [], rw := 0x0, w1c := 0x0, w1s := 0x0, rws := 0x0, reset := 0x0, kind := .snapLo } /- SEC_SERIAL -/,
  { base := 0x200A4, dims := [], rw := 0x0, w1c := 0x0, w1s := 0x0, rws := 0x0, reset := 0x0, kind := .snapHi } /- SEC_SERIAL -/,
  { base := 0x200A8, dims := [], rw := 0x0, w1c := 0x0, w1s := 0x0, rws := 0x0, reset := 0x0, kind := .plain } /- SEC_FAIL -/,
  { base := 0x200AC, dims := [], rw := 0x0, w1c := 0x0, w1s := 0x0, rws := 0x0, reset := 0x0, kind := .plain } /- SEC_CNT -/,
  { base := 0x20090, dims := [], rw := 0xFFFFFFFF, w1c := 0x0, w1s := 0x0, rws := 0x0, reset := 0x0, kind := .rwHi } /- SEC_SRC_HI -/,
  { base := 0x20100, dims := [(16, 0x4)], rw := 0x0, w1c := 0x0, w1s := 0x0, rws := 0x0, reset := 0x0, kind := .plain } /- SEC_IDPUB -/,
  { base := 0x20140, dims := [(8, 0x4)], rw := 0xFFFFFFFF, w1c := 0x0, w1s := 0x0, rws := 0x0, reset := 0x0, kind := .plain } /- SEC_NONCE -/,
  { base := 0x20200, dims := [(64, 0x4)], rw := 0x0, w1c := 0x0, w1s := 0x0, rws := 0x0, reset := 0x0, kind := .plain } /- SEC_REPORT -/]

/-- The registers of FLT. -/
def rowsFlt : List RegRow := [
  { base := 0x30080, dims := [], rw := 0x3FFF, w1c := 0x0, w1s := 0x0, rws := 0x0, reset := 0x64, kind := .plain } /- FLT_CFG -/,
  { base := 0x30084, dims := [], rw := 0xFFF, w1c := 0x0, w1s := 0x0, rws := 0x0, reset := 0x0, kind := .plain } /- FLT_SRC_SEL -/,
  { base := 0x30088, dims := [], rw := 0x7FF, w1c := 0x0, w1s := 0x0, rws := 0x0, reset := 0x0, kind := .plain } /- FLT_SRC_CFG -/,
  { base := 0x3008C, dims := [], rw := 0x0, w1c := 0x0, w1s := 0x0, rws := 0x0, reset := 0x0, kind := .plain } /- FLT_SRC_STAT -/,
  { base := 0x30090, dims := [], rw := 0xFF, w1c := 0x0, w1s := 0x0, rws := 0x0, reset := 0x0, kind := .plain } /- FLT_REC_SEL -/,
  { base := 0x30094, dims := [], rw := 0x0, w1c := 0x0, w1s := 0x0, rws := 0x0, reset := 0x0, kind := .plain } /- FLT_REC_STAT -/,
  { base := 0x30098, dims := [], rw := 0x0, w1c := 0x0, w1s := 0x0, rws := 0x0, reset := 0x0, kind := .plain } /- FLT_SEQ -/,
  { base := 0x300E0, dims := [], rw := 0x0, w1c := 0x1, w1s := 0x0, rws := 0x0, reset := 0x0, kind := .plain } /- FLT_FIRST_CTL -/,
  { base := 0x300E4, dims := [], rw := 0xFFFFFFFF, w1c := 0x0, w1s := 0x0, rws := 0x0, reset := 0x0, kind := .rwLo } /- FLT_NMT_ADDR_LO -/,
  { base := 0x300E8, dims := [], rw := 0xFFFFFFFF, w1c := 0x0, w1s := 0x0, rws := 0x0, reset := 0x0, kind := .rwHi } /- FLT_NMT_ADDR_HI -/,
  { base := 0x300EC, dims := [], rw := 0xFFFFFFFF, w1c := 0x0, w1s := 0x0, rws := 0x0, reset := 0x0, kind := .plain } /- FLT_NMT_DATA -/,
  { base := 0x300F0, dims := [], rw := 0x0, w1c := 0x0, w1s := 0x2, rws := 0x0, reset := 0x0, kind := .plain } /- FLT_NMT -/,
  { base := 0x300F4, dims := [], rw := 0x0, w1c := 0x0, w1s := 0xC, rws := 0x0, reset := 0x0, kind := .plain } /- FLT_PIN -/,
  { base := 0x300F8, dims := [], rw := 0x0, w1c := 0x0, w1s := 0x0, rws := 0x0, reset := 0x0, kind := .plain } /- FLT_SHADOW_STAT -/,
  { base := 0x300FC, dims := [], rw := 0x0, w1c := 0x0, w1s := 0x0, rws := 0x0, reset := 0x0, kind := .plain } /- FLT_CNT -/,
  { base := 0x300A0, dims := [(8, 0x4)], rw := 0x0, w1c := 0x0, w1s := 0x0, rws := 0x0, reset := 0x0, kind := .plain } /- FLT_REC_DATA -/,
  { base := 0x300C0, dims := [(8, 0x4)], rw := 0x0, w1c := 0x0, w1s := 0x0, rws := 0x0, reset := 0x0, kind := .plain } /- FLT_FIRST -/]

/-- Registers of AON, part 0. -/
def rowsAon0 : List RegRow := [
  { base := 0x40080, dims := [], rw := 0x7FFFFFF, w1c := 0x0, w1s := 0x0, rws := 0x0, reset := 0x448010, kind := .plain } /- AON_CFG -/,
  { base := 0x40084, dims := [], rw := 0x0, w1c := 0x0, w1s := 0x0, rws := 0x0, reset := 0x0, kind := .plain } /- AON_STAT -/,
  { base := 0x40088, dims := [], rw := 0x0, w1c := 0x0, w1s := 0x0, rws := 0x0, reset := 0x0, kind := .plain } /- AON_CMD -/,
  { base := 0x4008C, dims := [], rw := 0xFFFFFF, w1c := 0x0, w1s := 0x0, rws := 0x0, reset := 0x4847E0, kind := .plain } /- AON_BUDGET -/,
  { base := 0x40090, dims := [], rw := 0x3FFFFFF, w1c := 0x0, w1s := 0x0, rws := 0x0, reset := 0x0, kind := .plain } /- AON_FF -/,
  { base := 0x40094, dims := [], rw := 0xFFFFFFFF, w1c := 0x0, w1s := 0x0, rws := 0x0, reset := 0xA400B30, kind := .plain } /- AON_TSAFE -/,
  { base := 0x40098, dims := [], rw := 0x1F1F1F1F, w1c := 0x0, w1s := 0x0, rws := 0x0, reset := 0x1010101, kind := .plain } /- AON_NMIN -/,
  { base := 0x4009C, dims := [], rw := 0x7, w1c := 0x0, w1s := 0x0, rws := 0x0, reset := 0x5, kind := .plain } /- AON_LVL -/,
  { base := 0x400A0, dims := [], rw := 0x0, w1c := 0x0, w1s := 0x0, rws := 0x0, reset := 0x0, kind := .plain } /- AON_TARGET -/,
  { base := 0x400A4, dims := [(2, 0x4)], rw := 0xFFFFFFFF, w1c := 0x0, w1s := 0x0, rws := 0x0, reset := 0x0, kind := .plain } /- AON_WKS_PIN -/,
  { base := 0x400AC, dims := [(2, 0x4)], rw := 0x0, w1c := 0xFFFFFFFF, w1s := 0x0, rws := 0x0, reset := 0x0, kind := .plain } /- AON_WKS_FAIL -/,
  { base := 0x400B4, dims := [(2, 0x4)], rw := 0x0, w1c := 0x0, w1s := 0x0, rws := 0x0, reset := 0x0, kind := .plain } /- AON_LEVEL -/,
  { base := 0x400BC, dims := [], rw := 0x0, w1c := 0x0, w1s := 0x0, rws := 0x0, reset := 0x0, kind := .plain } /- AON_CNT -/,
  { base := 0x400C0, dims := [], rw := 0xFFFF1F, w1c := 0x0, w1s := 0x0, rws := 0x0, reset := 0x41000, kind := .plain } /- AON_COOL_CTL -/,
  { base := 0x400C4, dims := [], rw := 0xFFFFFFFF, w1c := 0x0, w1s := 0x0, rws := 0x0, reset := 0xA0960, kind := .plain } /- AON_COOL_SP -/,
  { base := 0x400C8, dims := [], rw := 0x3FF03FF, w1c := 0x0, w1s := 0x0, rws := 0x0, reset := 0x2000133, kind := .plain } /- AON_COOL_LIM -/,
  { base := 0x400CC, dims := [], rw := 0x0, w1c := 0x0, w1s := 0x0, rws := 0x0, reset := 0x0, kind := .plain } /- AON_COOL_STAT -/,
  { base := 0x400D0, dims := [(4, 0x4)], rw := 0x7FF7F7F, w1c := 0x0, w1s := 0x0, rws := 0x0, reset := 0x80641E, kind := .plain } /- AON_PWM -/,
  { base := 0x400E0, dims := [], rw := 0xFFFF, w1c := 0x0, w1s := 0x0, rws := 0x0, reset := 0x3E7, kind := .plain } /- AON_PWM_PER -/,
  { base := 0x400E4, dims := [], rw := 0xFFFF00FF, w1c := 0x0, w1s := 0x0, rws := 0x0, reset := 0x55, kind := .plain } /- AON_TACH_CFG -/,
  { base := 0x400E8, dims := [(2, 0x4)], rw := 0xFFFFFF, w1c := 0x0, w1s := 0x0, rws := 0x0, reset := 0x240300, kind := .plain } /- AON_VALVE -/,
  { base := 0x40100, dims := [(4, 0x4)], rw := 0x0, w1c := 0x0, w1s := 0x0, rws := 0x0, reset := 0x0, kind := .plain } /- AON_RULE_HELD -/,
  { base := 0x40200, dims := [(32, 0x8)], rw := 0x1F3F, w1c := 0x0, w1s := 0x0, rws := 0x0, reset := 0x0, kind := .plain } /- AON_CH_CFG -/,
  { base := 0x40204, dims := [(32, 0x8)], rw := 0x0, w1c := 0x0, w1s := 0x0, rws := 0x0, reset := 0x0, kind := .plain } /- AON_CH_VAL -/]

/-- Registers of AON, part 1. -/
def rowsAon1 : List RegRow := [
  { base := 0x40400, dims := [(128, 0x10)], rw := 0x0, w1c := 0x0, w1s := 0x0, rws := 0x803FFFFF, reset := 0x0, kind := .plain } /- AON_RULE0 -/,
  { base := 0x40404, dims := [(128, 0x10)], rw := 0x0, w1c := 0x0, w1s := 0x0, rws := 0x7FFFFF, reset := 0x0, kind := .plain } /- AON_RULE1 -/,
  { base := 0x40408, dims := [(128, 0x10)], rw := 0x0, w1c := 0x0, w1s := 0x0, rws := 0xFFFFFF07, reset := 0x0, kind := .plain } /- AON_RULE2 -/]

/-- The registers of AON. -/
def rowsAon : List RegRow := rowsAon0 ++ rowsAon1

/-- The registers of ICU. -/
def rowsIcu : List RegRow := [
  { base := 0x50080, dims := [], rw := 0xFFF, w1c := 0x0, w1s := 0x0, rws := 0x0, reset := 0x0, kind := .plain } /- ICU_SRC_SEL -/,
  { base := 0x50084, dims := [], rw := 0x3FFF, w1c := 0x0, w1s := 0x0, rws := 0x0, reset := 0x0, kind := .plain } /- ICU_SRC_CFG -/,
  { base := 0x50088, dims := [], rw := 0x0, w1c := 0x0, w1s := 0x0, rws := 0x0, reset := 0x0, kind := .plain } /- ICU_SRC_STAT -/,
  { base := 0x5008C, dims := [], rw := 0x0, w1c := 0x0, w1s := 0x0, rws := 0x0, reset := 0x0, kind := .plain } /- ICU_PEND_SET -/,
  { base := 0x50090, dims := [], rw := 0xFF, w1c := 0x0, w1s := 0x0, rws := 0x0, reset := 0x0, kind := .plain } /- ICU_TGT_SEL -/,
  { base := 0x50094, dims := [], rw := 0xFFFFFFFF, w1c := 0x0, w1s := 0x0, rws := 0x0, reset := 0x0, kind := .rwLo } /- ICU_TGT_ADDR_LO -/,
  { base := 0x50098, dims := [], rw := 0xFFFFFFFF, w1c := 0x0, w1s := 0x0, rws := 0x0, reset := 0x0, kind := .rwHi } /- ICU_TGT_ADDR_HI -/,
  { base := 0x5009C, dims := [], rw := 0xFFFFFFFF, w1c := 0x0, w1s := 0x0, rws := 0x0, reset := 0x0, kind := .plain } /- ICU_TGT_DATA -/,
  { base := 0x500A0, dims := [], rw := 0x3, w1c := 0x0, w1s := 0x0, rws := 0x0, reset := 0x1, kind := .plain } /- ICU_TGT_CTL -/,
  { base := 0x500A4, dims := [], rw := 0x0, w1c := 0x0, w1s := 0x0, rws := 0x0, reset := 0x0, kind := .plain } /- ICU_TGT_STAT -/,
  { base := 0x500A8, dims := [], rw := 0x0, w1c := 0x0, w1s := 0x0, rws := 0x0, reset := 0x0, kind := .plain } /- ICU_MSGS -/,
  { base := 0x500AC, dims := [], rw := 0x0, w1c := 0x0, w1s := 0x0, rws := 0x0, reset := 0x0, kind := .plain } /- ICU_EOI_ERR -/,
  { base := 0x500C0, dims := [], rw := 0x0, w1c := 0x0, w1s := 0x0, rws := 0x0, reset := 0x1000, kind := .plain } /- ICU_ISL_CLAIM -/,
  { base := 0x500C4, dims := [], rw := 0x0, w1c := 0x0, w1s := 0x0, rws := 0x0, reset := 0x0, kind := .plain } /- ICU_ISL_EOI -/,
  { base := 0x500C8, dims := [], rw := 0x0, w1c := 0x0, w1s := 0x0, rws := 0x0, reset := 0x0, kind := .plain } /- ICU_ISL_STAT -/,
  { base := 0x50800, dims := [(256, 0x8)], rw := 0x0, w1c := 0x0, w1s := 0x0, rws := 0x0, reset := 0x1000, kind := .plain } /- ICU_CLAIM -/,
  { base := 0x50804, dims := [(256, 0x8)], rw := 0x0, w1c := 0x0, w1s := 0x0, rws := 0x0, reset := 0x0, kind := .plain } /- ICU_EOI -/,
  { base := 0x51800, dims := [(128, 0x4)], rw := 0x0, w1c := 0x0, w1s := 0x0, rws := 0x0, reset := 0x0, kind := .plain } /- ICU_PEND -/]

/-- The registers of HIF. -/
def rowsHif : List RegRow := [
  { base := 0x60080, dims := [], rw := 0x0, w1c := 0x0, w1s := 0x0, rws := 0x0, reset := 0x0, kind := .plain } /- HIF_LINK_STAT -/,
  { base := 0x60084, dims := [], rw := 0xFFF, w1c := 0x0, w1s := 0x0, rws := 0x0, reset := 0x0, kind := .plain } /- HIF_RING_SEL -/,
  { base := 0x60088, dims := [], rw := 0x0, w1c := 0x0, w1s := 0x0, rws := 0x0, reset := 0x0, kind := .plain } /- HIF_RING_CMD -/,
  { base := 0x6008C, dims := [], rw := 0x0, w1c := 0x0, w1s := 0x0, rws := 0x0, reset := 0x0, kind := .plain } /- HIF_RING_STAT -/,
  { base := 0x60090, dims := [(8, 0x4)], rw := 0xFFFFFFFF, w1c := 0x0, w1s := 0x0, rws := 0x0, reset := 0x0, kind := .plain } /- HIF_RING_DATA -/,
  { base := 0x600B0, dims := [(8, 0x4)], rw := 0x7FF, w1c := 0x0, w1s := 0x0, rws := 0x0, reset := 0x0, kind := .plain } /- HIF_PUNT_MAP -/,
  { base := 0x600D0, dims := [], rw := 0x800007FF, w1c := 0x0, w1s := 0x0, rws := 0x0, reset := 0x0, kind := .plain } /- HIF_TS_CFG -/,
  { base := 0x600D4, dims := [], rw := 0x0, w1c := 0x0, w1s := 0x0, rws := 0x0, reset := 0x0, kind := .plain } /- HIF_TS_STAT -/,
  { base := 0x600D8, dims := [], rw := 0xF, w1c := 0x0, w1s := 0x0, rws := 0x0, reset := 0x0, kind := .plain } /- HIF_PUNT_CFG -/,
  { base := 0x600E0, dims := [], rw := 0x0, w1c := 0x0, w1s := 0x0, rws := 0x0, reset := 0x0, kind := .plain } /- HIF_INJ_FRAMES -/,
  { base := 0x600E4, dims := [], rw := 0x0, w1c := 0x0, w1s := 0x0, rws := 0x0, reset := 0x0, kind := .plain } /- HIF_PUNT_FRAMES -/,
  { base := 0x600E8, dims := [], rw := 0x0, w1c := 0x0, w1s := 0x0, rws := 0x0, reset := 0x0, kind := .plain } /- HIF_PUNT_FLUSH -/,
  { base := 0x600EC, dims := [], rw := 0x0, w1c := 0x0, w1s := 0x0, rws := 0x0, reset := 0x0, kind := .plain } /- HIF_DB_ERR -/,
  { base := 0x600F0, dims := [], rw := 0x0, w1c := 0x0, w1s := 0x0, rws := 0x0, reset := 0x0, kind := .plain } /- HIF_BADENT -/,
  { base := 0x600F4, dims := [], rw := 0x0, w1c := 0x0, w1s := 0x0, rws := 0x0, reset := 0x0, kind := .plain } /- HIF_DMA_ERR -/,
  { base := 0x600F8, dims := [], rw := 0x0, w1c := 0x0, w1s := 0x0, rws := 0x0, reset := 0x0, kind := .plain } /- HIF_HOLD_STOPS -/,
  { base := 0x600FC, dims := [], rw := 0x0, w1c := 0x0, w1s := 0x0, rws := 0x0, reset := 0x0, kind := .plain } /- HIF_TS_LOST -/,
  { base := 0x60100, dims := [(64, 0x4)], rw := 0x0, w1c := 0x0, w1s := 0x0, rws := 0x0, reset := 0x0, kind := .plain } /- HIF_HOLD_STOP -/]

/-- The registers of TIM. -/
def rowsTim : List RegRow := [
  { base := 0x80080, dims := [], rw := 0x0, w1c := 0x0, w1s := 0x0, rws := 0x0, reset := 0x0, kind := .plain } /- TIM_NOW_NS -/,
  { base := 0x80084, dims := [], rw := 0x0, w1c := 0x0, w1s := 0x0, rws := 0x0, reset := 0x0, kind := .plain } /- TIM_NOW_SLO -/,
  { base := 0x80088, dims := [], rw := 0x0, w1c := 0x0, w1s := 0x0, rws := 0x0, reset := 0x0, kind := .plain } /- TIM_NOW_SHI -/,
  { base := 0x8008C, dims := [], rw := 0xFFFFFFF, w1c := 0x0, w1s := 0x0, rws := 0x0, reset := 0x3E8620, kind := .plain } /- TIM_CFG -/,
  { base := 0x80090, dims := [], rw := 0xFFFFFFFF, w1c := 0x0, w1s := 0x0, rws := 0x0, reset := 0x0, kind := .plain } /- TIM_FREQ -/,
  { base := 0x80094, dims := [], rw := 0x0, w1c := 0x0, w1s := 0x0, rws := 0x0, reset := 0x0, kind := .plain } /- TIM_CMD -/,
  { base := 0x80098, dims := [], rw := 0xFFFFFFFF, w1c := 0x0, w1s := 0x0, rws := 0x0, reset := 0x0, kind := .plain } /- TIM_ARG_NS -/,
  { base := 0x8009C, dims := [], rw := 0xFFFFFFFF, w1c := 0x0, w1s := 0x0, rws := 0x0, reset := 0x0, kind := .plain } /- TIM_ARG_SLO -/,
  { base := 0x800A0, dims := [], rw := 0xFFFFFFFF, w1c := 0x0, w1s := 0x0, rws := 0x0, reset := 0x0, kind := .plain } /- TIM_ARG_SHI -/,
  { base := 0x800A4, dims := [], rw := 0xFFF, w1c := 0x0, w1s := 0x0, rws := 0x0, reset := 0x190, kind := .plain } /- TIM_PPS_CFG -/,
  { base := 0x800A8, dims := [], rw := 0xFFFFFFFF, w1c := 0x0, w1s := 0x0, rws := 0x0, reset := 0x0, kind := .plain } /- TIM_PPS_OFS -/,
  { base := 0x800AC, dims := [], rw := 0x0, w1c := 0x0, w1s := 0x0, rws := 0x0, reset := 0x0, kind := .plain } /- TIM_PPS_IN_NS -/,
  { base := 0x800B0, dims := [], rw := 0x0, w1c := 0x0, w1s := 0x0, rws := 0x0, reset := 0x0, kind := .plain } /- TIM_PPS_IN_SLO -/,
  { base := 0x800B4, dims := [], rw := 0x3FFFF, w1c := 0x0, w1s := 0x0, rws := 0x0, reset := 0x0, kind := .plain } /- TIM_SYNCE -/,
  { base := 0x800B8, dims := [], rw := 0x0, w1c := 0x0, w1s := 0x0, rws := 0x0, reset := 0x0, kind := .plain } /- TIM_STAT -/,
  { base := 0x800BC, dims := [], rw := 0xFFFF, w1c := 0x0, w1s := 0x0, rws := 0x0, reset := 0x32, kind := .plain } /- TIM_CASC -/,
  { base := 0x800C0, dims := [], rw := 0x0, w1c := 0x0, w1s := 0x0, rws := 0x0, reset := 0x0, kind := .plain } /- TIM_OFFSET -/]

/-- The registers of CNT. -/
def rowsCnt : List RegRow := [
  { base := 0x90080, dims := [], rw := 0xFFF, w1c := 0x0, w1s := 0x0, rws := 0x0, reset := 0x0, kind := .plain } /- CNT_SEL -/,
  { base := 0x90084, dims := [], rw := 0x3FFFFF, w1c := 0x0, w1s := 0x0, rws := 0x0, reset := 0x0, kind := .plain } /- CNT_CFG0 -/,
  { base := 0x90088, dims := [], rw := 0x1FFFF, w1c := 0x0, w1s := 0x0, rws := 0x0, reset := 0x40, kind := .plain } /- CNT_CFG1 -/,
  { base := 0x9008C, dims := [], rw := 0x0, w1c := 0x0, w1s := 0x0, rws := 0x0, reset := 0x0, kind := .plain } /- CNT_CMD -/,
  { base := 0x90090, dims := [], rw := 0x0, w1c := 0x0, w1s := 0x0, rws := 0x0, reset := 0x0, kind := .snapLo } /- CNT_VAL_LO -/,
  { base := 0x90094, dims := [], rw := 0x0, w1c := 0x0, w1s := 0x0, rws := 0x0, reset := 0x0, kind := .snapHi } /- CNT_VAL_HI -/,
  { base := 0x90098, dims := [], rw := 0xFFFF007F, w1c := 0x0, w1s := 0x0, rws := 0x0, reset := 0x3E8007C, kind := .plain } /- CNT_DUMP_CFG -/,
  { base := 0x9009C, dims := [], rw := 0xFFFF, w1c := 0x0, w1s := 0x0, rws := 0x0, reset := 0x0, kind := .plain } /- CNT_DUMP_NSLOT -/,
  { base := 0x900A0, dims := [], rw := 0xFFFFFFFF, w1c := 0x0, w1s := 0x0, rws := 0x0, reset := 0x0, kind := .rwLo } /- CNT_DUMP_ADDR_LO -/,
  { base := 0x900A4, dims := [], rw := 0xFFFFFFFF, w1c := 0x0, w1s := 0x0, rws := 0x0, reset := 0x0, kind := .rwHi } /- CNT_DUMP_ADDR_HI -/,
  { base := 0x900A8, dims := [], rw := 0x0, w1c := 0x0, w1s := 0x0, rws := 0x0, reset := 0x0, kind := .plain } /- CNT_DUMP_STAT -/,
  { base := 0x900AC, dims := [], rw := 0x0, w1c := 0x0, w1s := 0x0, rws := 0x0, reset := 0x0, kind := .plain } /- CNT_DUMP_ERR -/]

/-- The registers of CAP. -/
def rowsCap : List RegRow := [
  { base := 0xA0080, dims := [], rw := 0x1, w1c := 0x0, w1s := 0x0, rws := 0x0, reset := 0x0, kind := .plain } /- CAP_CFG -/,
  { base := 0xA0084, dims := [], rw := 0x0, w1c := 0x0, w1s := 0x0, rws := 0x0, reset := 0x0, kind := .plain } /- CAP_WR -/,
  { base := 0xA0088, dims := [], rw := 0x9FFFFFFF, w1c := 0x0, w1s := 0x0, rws := 0x0, reset := 0x0, kind := .plain } /- CAP_RD -/,
  { base := 0xA008C, dims := [], rw := 0x0, w1c := 0x0, w1s := 0x0, rws := 0x0, reset := 0x0, kind := .plain } /- CAP_STAT -/,
  { base := 0xA0090, dims := [], rw := 0x0, w1c := 0x0, w1s := 0x0, rws := 0x0, reset := 0x0, kind := .plain } /- CAP_LOST -/,
  { base := 0xA0094, dims := [], rw := 0x0, w1c := 0x0, w1s := 0x0, rws := 0x0, reset := 0x0, kind := .plain } /- CAP_RECS -/,
  { base := 0xA0098, dims := [], rw := 0x0, w1c := 0x0, w1s := 0x0, rws := 0x0, reset := 0x0, kind := .plain } /- CAP_SEQ -/,
  { base := 0xA0100, dims := [(16, 0x10)], rw := 0xFFFFFF, w1c := 0x0, w1s := 0x0, rws := 0x0, reset := 0x200000, kind := .plain } /- CAP_TRIG_CFG -/,
  { base := 0xA0104, dims := [(16, 0x10)], rw := 0xFFFFFFFF, w1c := 0x0, w1s := 0x0, rws := 0x0, reset := 0x3E80000, kind := .plain } /- CAP_TRIG_LIM -/,
  { base := 0xA0108, dims := [(16, 0x10)], rw := 0x0, w1c := 0x0, w1s := 0x0, rws := 0x0, reset := 0x0, kind := .plain } /- CAP_TRIG_CNT -/,
  { base := 0xA010C, dims := [(16, 0x10)], rw := 0x0, w1c := 0x0, w1s := 0x0, rws := 0x0, reset := 0x0, kind := .plain } /- CAP_TRIG_SUPP -/]

/-- Registers of CLY, part 0. -/
def rowsCly0 : List RegRow := [
  { base := 0xB0080, dims := [], rw := 0x1FFF, w1c := 0x0, w1s := 0x0, rws := 0x0, reset := 0x0, kind := .plain } /- CLY_ID -/,
  { base := 0xB0084, dims := [], rw := 0xFF03FF, w1c := 0x0, w1s := 0x0, rws := 0x0, reset := 0x14, kind := .plain } /- CLY_CFG -/,
  { base := 0xB0088, dims := [], rw := 0xFFFFFFFF, w1c := 0x0, w1s := 0x0, rws := 0x0, reset := 0x8000C000, kind := .plain } /- CLY_LFC -/,
  { base := 0xB008C, dims := [], rw := 0x0, w1c := 0x40000, w1s := 0x0, rws := 0x0, reset := 0x0, kind := .plain } /- CLY_STAT -/,
  { base := 0xB0090, dims := [], rw := 0xFFFF0F03, w1c := 0x0, w1s := 0x0, rws := 0x0, reset := 0x640300, kind := .plain } /- CLY_MST_CFG -/,
  { base := 0xB0094, dims := [], rw := 0xFFFFFFFF, w1c := 0x0, w1s := 0x0, rws := 0x0, reset := 0x0, kind := .plain } /- CLY_MST_CLAIM -/,
  { base := 0xB0098, dims := [], rw := 0x0, w1c := 0xE000, w1s := 0x0, rws := 0x0, reset := 0x0, kind := .plain } /- CLY_MST_STAT -/,
  { base := 0xB009C, dims := [], rw := 0x0, w1c := 0x0, w1s := 0x0, rws := 0x0, reset := 0x0, kind := .plain } /- CLY_MST_CUR -/,
  { base := 0xB00A0, dims := [], rw := 0x0, w1c := 0x0, w1s := 0x0, rws := 0x0, reset := 0x0, kind := .plain } /- CLY_MST_CMD -/,
  { base := 0xB00A4, dims := [], rw := 0x0, w1c := 0x0, w1s := 0x0, rws := 0x0, reset := 0x0, kind := .plain } /- CLY_MST_RESULT -/,
  { base := 0xB00A8, dims := [], rw := 0xFFFFFFFF, w1c := 0x0, w1s := 0x0, rws := 0x0, reset := 0x0, kind := .rwLo } /- CLY_CKPT_SRC_LO -/,
  { base := 0xB00AC, dims := [], rw := 0xFFFFFFFF, w1c := 0x0, w1s := 0x0, rws := 0x0, reset := 0x0, kind := .rwHi } /- CLY_CKPT_SRC_HI -/,
  { base := 0xB00B0, dims := [], rw := 0xFF0FFF, w1c := 0x0, w1s := 0x0, rws := 0x0, reset := 0xA0000, kind := .plain } /- CLY_CKPT_CFG -/,
  { base := 0xB00B4, dims := [], rw := 0x800007FF, w1c := 0x0, w1s := 0x0, rws := 0x0, reset := 0x0, kind := .plain } /- CLY_CKPT_STBY -/,
  { base := 0xB00B8, dims := [], rw := 0xFFFFFFFF, w1c := 0x0, w1s := 0x0, rws := 0x0, reset := 0x0, kind := .rwLo } /- CLY_CKPT_DST_LO -/,
  { base := 0xB00BC, dims := [], rw := 0xFFFFFFFF, w1c := 0x0, w1s := 0x0, rws := 0x0, reset := 0x0, kind := .rwHi } /- CLY_CKPT_DST_HI -/,
  { base := 0xB00C0, dims := [], rw := 0x0, w1c := 0x0, w1s := 0x0, rws := 0x0, reset := 0x0, kind := .plain } /- CLY_CKPT_STAT -/,
  { base := 0xB00D0, dims := [], rw := 0x7FF, w1c := 0x0, w1s := 0x0, rws := 0x0, reset := 0x0, kind := .plain } /- CLY_RW_DEV -/,
  { base := 0xB00D4, dims := [], rw := 0x7FFFFFF, w1c := 0x0, w1s := 0x0, rws := 0x0, reset := 0x0, kind := .plain } /- CLY_RW_ADDR -/,
  { base := 0xB00D8, dims := [], rw := 0xFFFFFFFF, w1c := 0x0, w1s := 0x0, rws := 0x0, reset := 0x0, kind := .plain } /- CLY_RW_DATA -/,
  { base := 0xB00DC, dims := [], rw := 0x0, w1c := 0x0, w1s := 0x0, rws := 0x0, reset := 0x0, kind := .plain } /- CLY_RW_CMD -/,
  { base := 0xB00E0, dims := [], rw := 0x0, w1c := 0x0, w1s := 0x0, rws := 0x0, reset := 0x0, kind := .plain } /- CLY_RW_STAT -/,
  { base := 0xB0100, dims := [], rw := 0x7FF, w1c := 0x0, w1s := 0x0, rws := 0x0, reset := 0x0, kind := .plain } /- CLY_RCH_DEV -/,
  { base := 0xB0104, dims := [], rw := 0x0, w1c := 0x0, w1s := 0x0, rws := 0x0, reset := 0x0, kind := .plain } /- CLY_RCH_CMD -/]

/-- Registers of CLY, part 1. -/
def rowsCly1 : List RegRow := [
  { base := 0xB0120, dims := [(8, 0x4)], rw := 0xFFFFFFFF, w1c := 0x0, w1s := 0x0, rws := 0x0, reset := 0x0, kind := .plain } /- CLY_RCH_DATA -/,
  { base := 0xB0180, dims := [], rw := 0x0, w1c := 0x0, w1s := 0x0, rws := 0x0, reset := 0x0, kind := .plain } /- CLY_DUP_CELLS -/,
  { base := 0xB0184, dims := [], rw := 0x0, w1c := 0x0, w1s := 0x0, rws := 0x0, reset := 0x0, kind := .plain } /- CLY_DUP_FRAMES -/,
  { base := 0xB0188, dims := [], rw := 0x0, w1c := 0x0, w1s := 0x0, rws := 0x0, reset := 0x0, kind := .plain } /- CLY_LATE_CELLS -/,
  { base := 0xB018C, dims := [], rw := 0x0, w1c := 0x0, w1s := 0x0, rws := 0x0, reset := 0x0, kind := .plain } /- CLY_STALE_CELLS -/,
  { base := 0xB0190, dims := [], rw := 0x0, w1c := 0x0, w1s := 0x0, rws := 0x0, reset := 0x0, kind := .plain } /- CLY_SKIPS -/,
  { base := 0xB0194, dims := [], rw := 0x0, w1c := 0x0, w1s := 0x0, rws := 0x0, reset := 0x0, kind := .plain } /- CLY_LOST_FRAMES -/,
  { base := 0xB0198, dims := [], rw := 0x0, w1c := 0x0, w1s := 0x0, rws := 0x0, reset := 0x0, kind := .plain } /- CLY_NOROUTE -/,
  { base := 0xB019C, dims := [], rw := 0x0, w1c := 0x0, w1s := 0x0, rws := 0x0, reset := 0x0, kind := .plain } /- CLY_HOPS_DROP -/,
  { base := 0xB01A0, dims := [], rw := 0x0, w1c := 0x0, w1s := 0x0, rws := 0x0, reset := 0x0, kind := .plain } /- CLY_TWIN_SINGLE -/,
  { base := 0xB01A4, dims := [], rw := 0x0, w1c := 0x0, w1s := 0x0, rws := 0x0, reset := 0x0, kind := .plain } /- CLY_OVERRUN -/,
  { base := 0xB01A8, dims := [], rw := 0x0, w1c := 0x0, w1s := 0x0, rws := 0x0, reset := 0x0, kind := .plain } /- CLY_CR_NODEST -/,
  { base := 0xB01AC, dims := [], rw := 0x0, w1c := 0x0, w1s := 0x0, rws := 0x0, reset := 0x0, kind := .plain } /- CLY_REJ -/,
  { base := 0xB01B0, dims := [], rw := 0x0, w1c := 0x0, w1s := 0x0, rws := 0x0, reset := 0x0, kind := .plain } /- CLY_TAKEOVERS -/,
  { base := 0xB01B4, dims := [], rw := 0x0, w1c := 0x0, w1s := 0x0, rws := 0x0, reset := 0x0, kind := .plain } /- CLY_DEPOSALS -/,
  { base := 0xB1100, dims := [(8, 0x1000), (32, 0x20)], rw := 0x3, w1c := 0x0, w1s := 0x0, rws := 0x0, reset := 0x0, kind := .plain } /- CLY_LINK_CFG -/,
  { base := 0xB1104, dims := [(8, 0x1000), (32, 0x20)], rw := 0x0, w1c := 0x0, w1s := 0x0, rws := 0x0, reset := 0x0, kind := .plain } /- CLY_LINK_STAT -/,
  { base := 0xB1108, dims := [(8, 0x1000), (32, 0x20)], rw := 0x0, w1c := 0x0, w1s := 0x0, rws := 0x0, reset := 0x0, kind := .plain } /- CLY_LINK_DLY -/,
  { base := 0xB110C, dims := [(8, 0x1000), (32, 0x20)], rw := 0x0, w1c := 0x0, w1s := 0x0, rws := 0x0, reset := 0x0, kind := .plain } /- CLY_LINK_CELLS_TX -/,
  { base := 0xB1110, dims := [(8, 0x1000), (32, 0x20)], rw := 0x0, w1c := 0x0, w1s := 0x0, rws := 0x0, reset := 0x0, kind := .plain } /- CLY_LINK_CELLS_RX -/,
  { base := 0xB1114, dims := [(8, 0x1000), (32, 0x20)], rw := 0x0, w1c := 0x0, w1s := 0x0, rws := 0x0, reset := 0x0, kind := .plain } /- CLY_LINK_ERR -/,
  { base := 0xB1118, dims := [(8, 0x1000), (32, 0x20)], rw := 0x0, w1c := 0x0, w1s := 0x0, rws := 0x0, reset := 0x0, kind := .plain } /- CLY_LINK_DOWNS -/]

/-- The registers of CLY. -/
def rowsCly : List RegRow := rowsCly0 ++ rowsCly1

/-- The registers of HBC. -/
def rowsHbc : List RegRow := [
  { base := 0xC0080, dims := [(6, 0x1000)], rw := 0x0, w1c := 0x0, w1s := 0x0, rws := 0xFFF00F1, reset := 0x640080, kind := .plain } /- HBC_CFG -/,
  { base := 0xC0084, dims := [(6, 0x1000)], rw := 0x0, w1c := 0x0, w1s := 0x0, rws := 0xFFFFFFFF, reset := 0x320C83E8, kind := .plain } /- HBC_ARB -/,
  { base := 0xC0088, dims := [(6, 0x1000)], rw := 0xFF01, w1c := 0x0, w1s := 0x0, rws := 0x0, reset := 0x100, kind := .plain } /- HBC_SCRUB -/,
  { base := 0xC008C, dims := [(6, 0x1000)], rw := 0x0, w1c := 0x0, w1s := 0x0, rws := 0x0, reset := 0x0, kind := .plain } /- HBC_CMD -/,
  { base := 0xC0090, dims := [(6, 0x1000)], rw := 0x0, w1c := 0x0, w1s := 0x0, rws := 0x0, reset := 0x0, kind := .plain } /- HBC_STAT -/,
  { base := 0xC0094, dims := [(6, 0x1000)], rw := 0x0, w1c := 0x0, w1s := 0x0, rws := 0x0, reset := 0x0, kind := .plain } /- HBC_PC_FAIL_LO -/,
  { base := 0xC0098, dims := [(6, 0x1000)], rw := 0x0, w1c := 0x0, w1s := 0x0, rws := 0x0, reset := 0x0, kind := .plain } /- HBC_PC_FAIL_HI -/,
  { base := 0xC009C, dims := [(6, 0x1000)], rw := 0x0, w1c := 0xFF00, w1s := 0x0, rws := 0x0, reset := 0x0, kind := .plain } /- HBC_TEMP -/,
  { base := 0xC00A0, dims := [(6, 0x1000)], rw := 0x0, w1c := 0x0, w1s := 0x0, rws := 0x0, reset := 0x0, kind := .plain } /- HBC_REF_STAT -/,
  { base := 0xC00A4, dims := [(6, 0x1000)], rw := 0x0, w1c := 0x0, w1s := 0x0, rws := 0x0, reset := 0x0, kind := .plain } /- HBC_ECC_COR -/,
  { base := 0xC00A8, dims := [(6, 0x1000)], rw := 0x0, w1c := 0x0, w1s := 0x0, rws := 0x0, reset := 0x0, kind := .plain } /- HBC_ECC_UNCOR -/,
  { base := 0xC00AC, dims := [(6, 0x1000)], rw := 0x0, w1c := 0x0, w1s := 0x0, rws := 0x0, reset := 0x0, kind := .snapLo } /- HBC_ERR_ADDR_LO -/,
  { base := 0xC00B0, dims := [(6, 0x1000)], rw := 0x0, w1c := 0x0, w1s := 0x0, rws := 0x0, reset := 0x0, kind := .snapHi } /- HBC_ERR_ADDR_HI -/,
  { base := 0xC00B4, dims := [(6, 0x1000)], rw := 0x0, w1c := 0x0, w1s := 0x0, rws := 0x0, reset := 0x0, kind := .plain } /- HBC_LANES -/,
  { base := 0xC00C0, dims := [(6, 0x1000)], rw := 0x0, w1c := 0x0, w1s := 0x0, rws := 0x0, reset := 0x0, kind := .snapLo } /- HBC_P_LO -/,
  { base := 0xC00C4, dims := [(6, 0x1000)], rw := 0x0, w1c := 0x0, w1s := 0x0, rws := 0x0, reset := 0x0, kind := .snapHi } /- HBC_P_HI -/,
  { base := 0xC00C8, dims := [(6, 0x1000)], rw := 0x0, w1c := 0x0, w1s := 0x0, rws := 0x0, reset := 0x0, kind := .snapLo } /- HBC_X_LO -/,
  { base := 0xC00CC, dims := [(6, 0x1000)], rw := 0x0, w1c := 0x0, w1s := 0x0, rws := 0x0, reset := 0x0, kind := .snapHi } /- HBC_X_HI -/,
  { base := 0xC00D0, dims := [(6, 0x1000)], rw := 0x0, w1c := 0x0, w1s := 0x0, rws := 0x0, reset := 0x0, kind := .snapLo } /- HBC_C_LO -/,
  { base := 0xC00D4, dims := [(6, 0x1000)], rw := 0x0, w1c := 0x0, w1s := 0x0, rws := 0x0, reset := 0x0, kind := .snapHi } /- HBC_C_HI -/,
  { base := 0xC00D8, dims := [(6, 0x1000)], rw := 0x0, w1c := 0x0, w1s := 0x0, rws := 0x0, reset := 0x0, kind := .snapLo } /- HBC_D_LO -/,
  { base := 0xC00DC, dims := [(6, 0x1000)], rw := 0x0, w1c := 0x0, w1s := 0x0, rws := 0x0, reset := 0x0, kind := .snapHi } /- HBC_D_HI -/,
  { base := 0xC0100, dims := [], rw := 0x0, w1c := 0x0, w1s := 0x0, rws := 0xFFFF, reset := 0x0, kind := .plain } /- HBC_REGION_CFG -/,
  { base := 0xC0104, dims := [], rw := 0x0, w1c := 0x2, w1s := 0x0, rws := 0x0, reset := 0x1000000, kind := .plain } /- HBC_REGION_STAT -/]

/-- Registers of SCH, part 0. -/
def rowsSch0 : List RegRow := [
  { base := 0x100080, dims := [], rw := 0x0, w1c := 0x0, w1s := 0x0, rws := 0xFC1F, reset := 0x1004, kind := .plain } /- SCH_CRED_CFG -/,
  { base := 0x100084, dims := [], rw := 0x0, w1c := 0x0, w1s := 0x0, rws := 0xFFFFFBFF, reset := 0x0, kind := .plain } /- SCH_INT_RATE -/,
  { base := 0x100088, dims := [], rw := 0x0, w1c := 0x0, w1s := 0x0, rws := 0x1FFFF, reset := 0x3E8, kind := .plain } /- SCH_SMP_CFG -/,
  { base := 0x10008C, dims := [], rw := 0xFFF, w1c := 0x0, w1s := 0x0, rws := 0x0, reset := 0x0, kind := .plain } /- SCH_SMP_SEL -/,
  { base := 0x1000A8, dims := [], rw := 0x1FFFF, w1c := 0x0, w1s := 0x0, rws := 0x0, reset := 0x0, kind := .plain } /- SCH_POL_SEL -/,
  { base := 0x1000AC, dims := [], rw := 0x0, w1c := 0x0, w1s := 0x0, rws := 0x0, reset := 0x0, kind := .plain } /- SCH_POL_CMD -/,
  { base := 0x1000CC, dims := [], rw := 0x7FFF, w1c := 0x0, w1s := 0x0, rws := 0x0, reset := 0x0, kind := .plain } /- SCH_GATE_SEL -/,
  { base := 0x1000D0, dims := [], rw := 0x0, w1c := 0x0, w1s := 0x0, rws := 0x0, reset := 0x0, kind := .plain } /- SCH_GATE_CMD -/,
  { base := 0x1000DC, dims := [], rw := 0x0, w1c := 0x0, w1s := 0x0, rws := 0x0, reset := 0x0, kind := .plain } /- SCH_CMD_STAT -/,
  { base := 0x100090, dims := [], rw := 0x0, w1c := 0x0, w1s := 0x0, rws := 0x0, reset := 0x0, kind := .plain } /- SCH_SMP_DATA0 -/,
  { base := 0x100094, dims := [], rw := 0x0, w1c := 0x0, w1s := 0x0, rws := 0x0, reset := 0x0, kind := .plain } /- SCH_SMP_DATA1 -/,
  { base := 0x100098, dims := [], rw := 0x0, w1c := 0x0, w1s := 0x0, rws := 0x0, reset := 0x0, kind := .plain } /- SCH_SMP_DATA2 -/,
  { base := 0x10009C, dims := [], rw := 0x0, w1c := 0x0, w1s := 0x0, rws := 0x0, reset := 0x0, kind := .plain } /- SCH_SMP_DATA3 -/,
  { base := 0x1000A0, dims := [], rw := 0x0, w1c := 0x0, w1s := 0x0, rws := 0x0, reset := 0x0, kind := .plain } /- SCH_SMP_DATA4 -/,
  { base := 0x1000A4, dims := [], rw := 0x0, w1c := 0x0, w1s := 0x0, rws := 0x0, reset := 0x0, kind := .plain } /- SCH_SMP_DATA5 -/,
  { base := 0x1000B0, dims := [], rw := 0x3FFFFF, w1c := 0x0, w1s := 0x0, rws := 0x0, reset := 0x0, kind := .plain } /- SCH_POL_DATA0 -/,
  { base := 0x1000B4, dims := [], rw := 0x3FFFFF, w1c := 0x0, w1s := 0x0, rws := 0x0, reset := 0x0, kind := .plain } /- SCH_POL_DATA1 -/,
  { base := 0x1000B8, dims := [], rw := 0xFFFFFF, w1c := 0x0, w1s := 0x0, rws := 0x0, reset := 0x0, kind := .plain } /- SCH_POL_DATA2 -/,
  { base := 0x1000BC, dims := [], rw := 0xFFFFFF, w1c := 0x0, w1s := 0x0, rws := 0x0, reset := 0x0, kind := .plain } /- SCH_POL_DATA3 -/,
  { base := 0x1000C0, dims := [], rw := 0xFF0F, w1c := 0x0, w1s := 0x0, rws := 0x0, reset := 0x0, kind := .plain } /- SCH_POL_DATA4 -/,
  { base := 0x1000C4, dims := [], rw := 0x0, w1c := 0x0, w1s := 0x0, rws := 0x0, reset := 0x0, kind := .plain } /- SCH_POL_DATA5 -/,
  { base := 0x1000C8, dims := [], rw := 0x0, w1c := 0x0, w1s := 0x0, rws := 0x0, reset := 0x0, kind := .plain } /- SCH_POL_DATA6 -/,
  { base := 0x1000D4, dims := [], rw := 0xFFFF, w1c := 0x0, w1s := 0x0, rws := 0x0, reset := 0x0, kind := .plain } /- SCH_GATE_DATA0 -/,
  { base := 0x1000D8, dims := [], rw := 0xFFFFFFFF, w1c := 0x0, w1s := 0x0, rws := 0x0, reset := 0x0, kind := .plain } /- SCH_GATE_DATA1 -/]

/-- Registers of SCH, part 1. -/
def rowsSch1 : List RegRow := [
  { base := 0x1000E0, dims := [], rw := 0x0, w1c := 0x0, w1s := 0x0, rws := 0x0, reset := 0x0, kind := .snapLo } /- SCH_CRED_LO -/,
  { base := 0x1000E4, dims := [], rw := 0x0, w1c := 0x0, w1s := 0x0, rws := 0x0, reset := 0x0, kind := .snapHi } /- SCH_CRED_HI -/,
  { base := 0x1000E8, dims := [], rw := 0x0, w1c := 0x0, w1s := 0x0, rws := 0x0, reset := 0x0, kind := .plain } /- SCH_DROP_GATE -/,
  { base := 0x1000EC, dims := [], rw := 0x0, w1c := 0x0, w1s := 0x0, rws := 0x0, reset := 0x0, kind := .plain } /- SCH_POL_RED -/,
  { base := 0x101100, dims := [(16, 0x1000), (16, 0xF0)], rw := 0x0, w1c := 0x0, w1s := 0x0, rws := 0xFF0F, reset := 0x1400, kind := .plain } /- SCH_PORT_CFG -/,
  { base := 0x101104, dims := [(16, 0x1000), (16, 0xF0)], rw := 0x0, w1c := 0x0, w1s := 0x0, rws := 0x803FFFFF, reset := 0x0, kind := .plain } /- SCH_PORT_SHP -/,
  { base := 0x101108, dims := [(16, 0x1000), (16, 0xF0)], rw := 0x0, w1c := 0x0, w1s := 0x0, rws := 0xFFFF, reset := 0x0, kind := .plain } /- SCH_PORT_BURST -/,
  { base := 0x10110C, dims := [(16, 0x1000), (16, 0xF0)], rw := 0x0, w1c := 0x0, w1s := 0x0, rws := 0xFFFFFFFF, reset := 0x33221100, kind := .plain } /- SCH_QMAP_LO -/,
  { base := 0x101110, dims := [(16, 0x1000), (16, 0xF0)], rw := 0x0, w1c := 0x0, w1s := 0x0, rws := 0xFFFFFFFF, reset := 0x77665544, kind := .plain } /- SCH_QMAP_HI -/,
  { base := 0x101114, dims := [(16, 0x1000), (16, 0xF0)], rw := 0x0, w1c := 0x0, w1s := 0x0, rws := 0xFFFFFFFF, reset := 0x800100, kind := .plain } /- SCH_EQ_THR -/,
  { base := 0x101118, dims := [(16, 0x1000), (16, 0xF0), (2, 0x4)], rw := 0x0, w1c := 0x0, w1s := 0x0, rws := 0xFFFFFFFF, reset := 0x1010101, kind := .plain } /- SCH_CRED_W -/,
  { base := 0x101120, dims := [(16, 0x1000), (16, 0xF0), (4, 0x4)], rw := 0x0, w1c := 0x0, w1s := 0x0, rws := 0xFFFFFFFF, reset := 0x1010101, kind := .plain } /- SCH_WFQ_W -/,
  { base := 0x101130, dims := [(16, 0x1000), (16, 0xF0)], rw := 0x0, w1c := 0x0, w1s := 0x0, rws := 0xFFFFFFFF, reset := 0x0, kind := .plain } /- SCH_GL_CYC0 -/,
  { base := 0x101134, dims := [(16, 0x1000), (16, 0xF0)], rw := 0x0, w1c := 0x0, w1s := 0x0, rws := 0xFFFFFFFF, reset := 0x0, kind := .plain } /- SCH_GL_CYC1 -/,
  { base := 0x101138, dims := [(16, 0x1000), (16, 0xF0)], rw := 0x0, w1c := 0x0, w1s := 0x0, rws := 0x3FFFFFFF, reset := 0x0, kind := .plain } /- SCH_GL_BASE0_NS -/,
  { base := 0x10113C, dims := [(16, 0x1000), (16, 0xF0)], rw := 0x0, w1c := 0x0, w1s := 0x0, rws := 0xFFFFFFFF, reset := 0x0, kind := .plain } /- SCH_GL_BASE0_S -/,
  { base := 0x101140, dims := [(16, 0x1000), (16, 0xF0)], rw := 0x0, w1c := 0x0, w1s := 0x0, rws := 0x3FFFFFFF, reset := 0x0, kind := .plain } /- SCH_GL_BASE1_NS -/,
  { base := 0x101144, dims := [(16, 0x1000), (16, 0xF0)], rw := 0x0, w1c := 0x0, w1s := 0x0, rws := 0xFFFFFFFF, reset := 0x0, kind := .plain } /- SCH_GL_BASE1_S -/,
  { base := 0x101148, dims := [(16, 0x1000), (16, 0xF0)], rw := 0x0, w1c := 0x0, w1s := 0x0, rws := 0x7F007F, reset := 0x10001, kind := .plain } /- SCH_GL_LEN -/,
  { base := 0x10114C, dims := [(16, 0x1000), (16, 0xF0)], rw := 0x0, w1c := 0x8, w1s := 0x0, rws := 0x0, reset := 0x0, kind := .plain } /- SCH_PORT_STAT -/,
  { base := 0x101150, dims := [(16, 0x1000), (16, 0xF0)], rw := 0x0, w1c := 0x0, w1s := 0x0, rws := 0x0, reset := 0x0, kind := .plain } /- SCH_PORT_RATE -/,
  { base := 0x101160, dims := [(16, 0x1000), (16, 0xF0), (16, 0x8)], rw := 0x0, w1c := 0x0, w1s := 0x0, rws := 0x803FFFFF, reset := 0x0, kind := .plain } /- SCH_Q_SHP -/,
  { base := 0x101164, dims := [(16, 0x1000), (16, 0xF0), (16, 0x8)], rw := 0x0, w1c := 0x0, w1s := 0x0, rws := 0xFFFF, reset := 0x0, kind := .plain } /- SCH_Q_BURST -/,
  { base := 0x1011E0, dims := [(16, 0x1000), (16, 0xF0)], rw := 0x0, w1c := 0x0, w1s := 0x0, rws := 0x0, reset := 0x0, kind := .plain } /- SCH_PORT_GDROP -/]

/-- The registers of SCH. -/
def rowsSch : List RegRow := rowsSch0 ++ rowsSch1

/-- Registers of BUF, part 0. -/
def rowsBuf0 : List RegRow := [
  { base := 0x200080, dims := [], rw := 0x0, w1c := 0x0, w1s := 0x0, rws := 0x3FF000F, reset := 0x640000, kind := .plain } /- BUF_CFG -/,
  { base := 0x200084, dims := [], rw := 0x0, w1c := 0x0, w1s := 0x0, rws := 0xFFFFFFFF, reset := 0x30D40040, kind := .plain } /- BUF_SPILL_CFG -/,
  { base := 0x200088, dims := [], rw := 0x0, w1c := 0x2, w1s := 0x0, rws := 0x0, reset := 0x0, kind := .plain } /- BUF_STAT -/,
  { base := 0x20008C, dims := [], rw := 0x1, w1c := 0x0, w1s := 0x0, rws := 0x0, reset := 0x0, kind := .plain } /- BUF_AUDIT_CFG -/,
  { base := 0x200090, dims := [], rw := 0x0, w1c := 0x0, w1s := 0x0, rws := 0x0, reset := 0x0, kind := .plain } /- BUF_AUDIT_STAT -/,
  { base := 0x200094, dims := [], rw := 0x0, w1c := 0x0, w1s := 0x0, rws := 0x0, reset := 0x2000000, kind := .plain } /- BUF_SPILL_STAT -/,
  { base := 0x200098, dims := [], rw := 0x0, w1c := 0x0, w1s := 0x0, rws := 0x0, reset := 0x0, kind := .plain } /- BUF_SPILLED -/,
  { base := 0x20009C, dims := [], rw := 0x0, w1c := 0x0, w1s := 0x0, rws := 0x0, reset := 0x0, kind := .plain } /- BUF_RETURNED -/,
  { base := 0x2000A0, dims := [], rw := 0x0, w1c := 0x0, w1s := 0x0, rws := 0x0, reset := 0x0, kind := .plain } /- BUF_SPILL_FULL -/,
  { base := 0x2000A4, dims := [], rw := 0x0, w1c := 0x0, w1s := 0x0, rws := 0x0, reset := 0x0, kind := .plain } /- BUF_LEAK_BLK -/,
  { base := 0x2000A8, dims := [], rw := 0x0, w1c := 0x0, w1s := 0x0, rws := 0x0, reset := 0x0, kind := .plain } /- BUF_DFREE -/,
  { base := 0x2000AC, dims := [], rw := 0x0, w1c := 0x0, w1s := 0x0, rws := 0x0, reset := 0x0, kind := .plain } /- BUF_HQ_DROPS -/,
  { base := 0x200100, dims := [], rw := 0x0, w1c := 0x0, w1s := 0x0, rws := 0xFFF0FFF, reset := 0x200, kind := .plain } /- BUF_POOL_CFG -/,
  { base := 0x200120, dims := [], rw := 0x0, w1c := 0x0, w1s := 0x0, rws := 0xFFF0FFF, reset := 0x100, kind := .plain } /- BUF_POOL_CFG -/,
  { base := 0x200140, dims := [], rw := 0x0, w1c := 0x0, w1s := 0x0, rws := 0xFFF0FFF, reset := 0x40, kind := .plain } /- BUF_POOL_CFG -/,
  { base := 0x200160, dims := [], rw := 0x0, w1c := 0x0, w1s := 0x0, rws := 0xFFF0FFF, reset := 0x20, kind := .plain } /- BUF_POOL_CFG -/,
  { base := 0x200180, dims := [], rw := 0x0, w1c := 0x0, w1s := 0x0, rws := 0xFFF0FFF, reset := 0x20, kind := .plain } /- BUF_POOL_CFG -/,
  { base := 0x2001A0, dims := [], rw := 0x0, w1c := 0x0, w1s := 0x0, rws := 0xFFF0FFF, reset := 0x10, kind := .plain } /- BUF_POOL_CFG -/,
  { base := 0x2001C0, dims := [], rw := 0x0, w1c := 0x0, w1s := 0x0, rws := 0xFFF0FFF, reset := 0x7, kind := .plain } /- BUF_POOL_CFG -/,
  { base := 0x2001E0, dims := [], rw := 0x0, w1c := 0x0, w1s := 0x0, rws := 0xFFF0FFF, reset := 0x1, kind := .plain } /- BUF_POOL_CFG -/,
  { base := 0x200104, dims := [(8, 0x20)], rw := 0x0, w1c := 0x0, w1s := 0x0, rws := 0x0, reset := 0x0, kind := .plain } /- BUF_POOL_FREE -/,
  { base := 0x200108, dims := [(8, 0x20)], rw := 0x0, w1c := 0x3FFFFF, w1s := 0x0, rws := 0x0, reset := 0x0, kind := .plain } /- BUF_POOL_LWM -/,
  { base := 0x20010C, dims := [(8, 0x20)], rw := 0x0, w1c := 0x0, w1s := 0x0, rws := 0x0, reset := 0x0, kind := .plain } /- BUF_POOL_ARB -/,
  { base := 0x200110, dims := [(8, 0x20)], rw := 0x0, w1c := 0x0, w1s := 0x0, rws := 0x0, reset := 0x0, kind := .plain } /- BUF_POOL_WAITS -/]

/-- Registers of BUF, part 1. -/
def rowsBuf1 : List RegRow := [
  { base := 0x200114, dims := [(8, 0x20)], rw := 0x0, w1c := 0x0, w1s := 0x0, rws := 0x0, reset := 0x0, kind := .plain } /- BUF_POOL_UPSIZED -/,
  { base := 0x200118, dims := [(8, 0x20)], rw := 0x0, w1c := 0x0, w1s := 0x0, rws := 0x0, reset := 0x0, kind := .plain } /- BUF_POOL_LEAKS -/]

/-- The registers of BUF. -/
def rowsBuf : List RegRow := rowsBuf0 ++ rowsBuf1

/-- The registers of VOQ. -/
def rowsVoq : List RegRow := [
  { base := 0x300080, dims := [], rw := 0x0, w1c := 0x0, w1s := 0x0, rws := 0x3, reset := 0x0, kind := .plain } /- VOQ_GEO -/,
  { base := 0x300084, dims := [], rw := 0x0, w1c := 0x0, w1s := 0x0, rws := 0x3FF, reset := 0x32, kind := .plain } /- VOQ_AGE -/,
  { base := 0x300088, dims := [], rw := 0x0, w1c := 0x1, w1s := 0x0, rws := 0x0, reset := 0x0, kind := .plain } /- VOQ_STAT -/,
  { base := 0x30008C, dims := [], rw := 0x3FFFF, w1c := 0x0, w1s := 0x0, rws := 0x0, reset := 0x0, kind := .plain } /- VOQ_MAP_SEL -/,
  { base := 0x300090, dims := [], rw := 0xFFFFFFFF, w1c := 0x0, w1s := 0x0, rws := 0x0, reset := 0x0, kind := .plain } /- VOQ_MAP_DATA -/,
  { base := 0x300094, dims := [], rw := 0x0, w1c := 0x0, w1s := 0x0, rws := 0x0, reset := 0x0, kind := .plain } /- VOQ_MAP_CMD -/,
  { base := 0x300098, dims := [], rw := 0x0, w1c := 0x0, w1s := 0x0, rws := 0x0, reset := 0x0, kind := .plain } /- VOQ_MAP_STAT -/,
  { base := 0x30009C, dims := [], rw := 0x1FFFF, w1c := 0x0, w1s := 0x0, rws := 0x0, reset := 0x0, kind := .plain } /- VOQ_DEPTH_SEL -/,
  { base := 0x3000A0, dims := [], rw := 0x0, w1c := 0x0, w1s := 0x0, rws := 0x0, reset := 0x0, kind := .snapLo } /- VOQ_DEPTH_LO -/,
  { base := 0x3000A4, dims := [], rw := 0x0, w1c := 0x0, w1s := 0x0, rws := 0x0, reset := 0x0, kind := .snapHi } /- VOQ_DEPTH_HI -/,
  { base := 0x3000A8, dims := [], rw := 0x0, w1c := 0x0, w1s := 0x0, rws := 0x0, reset := 0x0, kind := .snapLo } /- VOQ_SPILL_LO -/,
  { base := 0x3000AC, dims := [], rw := 0x0, w1c := 0x0, w1s := 0x0, rws := 0x0, reset := 0x0, kind := .snapHi } /- VOQ_SPILL_HI -/,
  { base := 0x3000B0, dims := [], rw := 0x0, w1c := 0x0, w1s := 0x0, rws := 0x0, reset := 0x0, kind := .plain } /- VOQ_DROP_LIM -/,
  { base := 0x3000B4, dims := [], rw := 0x0, w1c := 0x0, w1s := 0x0, rws := 0x0, reset := 0x0, kind := .plain } /- VOQ_INVALID -/,
  { base := 0x3000B8, dims := [], rw := 0x0, w1c := 0x0, w1s := 0x0, rws := 0x0, reset := 0x0, kind := .plain } /- VOQ_DROP_AGE -/,
  { base := 0x3000BC, dims := [], rw := 0x0, w1c := 0x0, w1s := 0x0, rws := 0x0, reset := 0x0, kind := .plain } /- VOQ_DROP_PARK -/,
  { base := 0x3000C0, dims := [], rw := 0x0, w1c := 0x0, w1s := 0x0, rws := 0x0, reset := 0x0, kind := .plain } /- VOQ_CT_MARKED -/,
  { base := 0x300200, dims := [(32, 0x10), (4, 0x4)], rw := 0x0, w1c := 0x0, w1s := 0x0, rws := 0xFFFFFF, reset := 0x0, kind := .plain } /- VOQ_PROF_LIM -/]

/-- The registers of ACS. -/
def rowsAcs : List RegRow := [
  { base := 0x400080, dims := [(4, 0x1000)], rw := 0x0, w1c := 0x0, w1s := 0x0, rws := 0x0, reset := 0x80, kind := .plain } /- ACS_STAT -/,
  { base := 0x400084, dims := [(4, 0x1000)], rw := 0x0, w1c := 0x0, w1s := 0x0, rws := 0x0, reset := 0x0, kind := .snapLo } /- ACS_SRCH_LO -/,
  { base := 0x400088, dims := [(4, 0x1000)], rw := 0x0, w1c := 0x0, w1s := 0x0, rws := 0x0, reset := 0x0, kind := .snapHi } /- ACS_SRCH_HI -/,
  { base := 0x40008C, dims := [(4, 0x1000)], rw := 0x0, w1c := 0x0, w1s := 0x0, rws := 0x0, reset := 0x0, kind := .snapLo } /- ACS_BLK_LO -/,
  { base := 0x400090, dims := [(4, 0x1000)], rw := 0x0, w1c := 0x0, w1s := 0x0, rws := 0x0, reset := 0x0, kind := .snapHi } /- ACS_BLK_HI -/,
  { base := 0x400094, dims := [(4, 0x1000)], rw := 0x0, w1c := 0x0, w1s := 0x0, rws := 0x0, reset := 0x0, kind := .plain } /- ACS_FALSE_HIT -/,
  { base := 0x400098, dims := [(4, 0x1000)], rw := 0x0, w1c := 0x0, w1s := 0x0, rws := 0x0, reset := 0x0, kind := .plain } /- ACS_SCRUB_FIX -/,
  { base := 0x40009C, dims := [(4, 0x1000)], rw := 0x0, w1c := 0x0, w1s := 0x0, rws := 0x0, reset := 0x0, kind := .plain } /- ACS_ECC_CNT -/,
  { base := 0x400100, dims := [], rw := 0xFF01, w1c := 0x0, w1s := 0x0, rws := 0x0, reset := 0xA00, kind := .plain } /- ACS_SCRUB_CFG -/,
  { base := 0x400104, dims := [], rw := 0xFFFFFFFF, w1c := 0x0, w1s := 0x0, rws := 0x0, reset := 0x0, kind := .rwLo } /- ACS_JOB_ADDR_LO -/,
  { base := 0x400108, dims := [], rw := 0xFFFFFFFF, w1c := 0x0, w1s := 0x0, rws := 0x0, reset := 0x0, kind := .rwHi } /- ACS_JOB_ADDR_HI -/,
  { base := 0x40010C, dims := [], rw := 0x0, w1c := 0x0, w1s := 0x0, rws := 0x0, reset := 0x0, kind := .plain } /- ACS_JOB_CMD -/,
  { base := 0x400110, dims := [], rw := 0x0, w1c := 0x0, w1s := 0x0, rws := 0x0, reset := 0x0, kind := .plain } /- ACS_JOB_STAT -/,
  { base := 0x400114, dims := [], rw := 0x0, w1c := 0x3, w1s := 0x0, rws := 0x0, reset := 0x0, kind := .plain } /- ACS_CFG_STAT -/,
  { base := 0x400400, dims := [(64, 0x4)], rw := 0x0, w1c := 0x0, w1s := 0x0, rws := 0xFFFFFF, reset := 0x0, kind := .plain } /- ACS_PROF -/,
  { base := 0x400800, dims := [(64, 0x8)], rw := 0x0, w1c := 0x0, w1s := 0x0, rws := 0xFF003F, reset := 0x0, kind := .plain } /- ACS_LIST_CFG -/,
  { base := 0x400804, dims := [(64, 0x8)], rw := 0x0, w1c := 0x0, w1s := 0x0, rws := 0x0, reset := 0x0, kind := .plain } /- ACS_LIST_STAT -/]

/-- The registers of OBJ. -/
def rowsObj : List RegRow := [
  { base := 0x410080, dims := [], rw := 0x0, w1c := 0x0, w1s := 0x0, rws := 0xFFFFFFFF, reset := 0x4000400, kind := .plain } /- OBJ_CAP -/,
  { base := 0x410084, dims := [], rw := 0x0, w1c := 0x0, w1s := 0x0, rws := 0xFFFFFFFF, reset := 0x0, kind := .plain } /- OBJ_ECMP_SEED -/,
  { base := 0x410088, dims := [], rw := 0x0, w1c := 0x1, w1s := 0x0, rws := 0x0, reset := 0x0, kind := .plain } /- OBJ_STAT -/,
  { base := 0x41008C, dims := [], rw := 0x0, w1c := 0x0, w1s := 0x0, rws := 0x0, reset := 0x80008000, kind := .plain } /- OBJ_COPY_FREE -/,
  { base := 0x410090, dims := [], rw := 0x0, w1c := 0x0, w1s := 0x0, rws := 0x0, reset := 0x200000, kind := .plain } /- OBJ_POOL_FREE -/,
  { base := 0x410094, dims := [], rw := 0x0, w1c := 0x0, w1s := 0x0, rws := 0x0, reset := 0x40000, kind := .plain } /- OBJ_REPL_FREE -/,
  { base := 0x410098, dims := [], rw := 0xFFFFFFFF, w1c := 0x0, w1s := 0x0, rws := 0x0, reset := 0x0, kind := .rwLo } /- OBJ_JOB_ADDR_LO -/,
  { base := 0x41009C, dims := [], rw := 0xFFFFFFFF, w1c := 0x0, w1s := 0x0, rws := 0x0, reset := 0x0, kind := .rwHi } /- OBJ_JOB_ADDR_HI -/,
  { base := 0x4100A0, dims := [], rw := 0x0, w1c := 0x0, w1s := 0x0, rws := 0x0, reset := 0x0, kind := .plain } /- OBJ_JOB_CMD -/,
  { base := 0x4100A4, dims := [], rw := 0x0, w1c := 0x0, w1s := 0x0, rws := 0x0, reset := 0x0, kind := .plain } /- OBJ_JOB_STAT -/,
  { base := 0x4100A8, dims := [], rw := 0x0, w1c := 0x0, w1s := 0x0, rws := 0x0, reset := 0x0, kind := .plain } /- OBJ_ECC_CNT -/,
  { base := 0x4100B0, dims := [], rw := 0x0, w1c := 0x0, w1s := 0x0, rws := 0x0, reset := 0x0, kind := .plain } /- OBJ_MC_DOWN -/,
  { base := 0x4100B4, dims := [], rw := 0x0, w1c := 0x0, w1s := 0x0, rws := 0x0, reset := 0x0, kind := .plain } /- OBJ_MC_REFUSED -/,
  { base := 0x4100B8, dims := [], rw := 0x0, w1c := 0x0, w1s := 0x0, rws := 0x0, reset := 0x0, kind := .plain } /- OBJ_MC_EMPTY -/,
  { base := 0x4100BC, dims := [], rw := 0x0, w1c := 0x0, w1s := 0x0, rws := 0x0, reset := 0x0, kind := .plain } /- OBJ_MC_SKIPPED -/]

/-- The registers of LPM. -/
def rowsLpm : List RegRow := [
  { base := 0x420080, dims := [], rw := 0x0, w1c := 0x0, w1s := 0x0, rws := 0xFFFFFFFF, reset := 0x8001000, kind := .plain } /- LPM_CAP -/,
  { base := 0x420084, dims := [], rw := 0x7F7F01, w1c := 0x0, w1s := 0x0, rws := 0x0, reset := 0x555F00, kind := .plain } /- LPM_EXT_CFG -/,
  { base := 0x420088, dims := [], rw := 0x0, w1c := 0x1, w1s := 0x0, rws := 0x0, reset := 0x0, kind := .plain } /- LPM_STAT -/,
  { base := 0x42008C, dims := [], rw := 0x0, w1c := 0x0, w1s := 0x0, rws := 0x0, reset := 0x0, kind := .plain } /- LPM_V4_CNT -/,
  { base := 0x420090, dims := [], rw := 0x0, w1c := 0x0, w1s := 0x0, rws := 0x0, reset := 0x0, kind := .plain } /- LPM_V6_CNT -/,
  { base := 0x420094, dims := [], rw := 0x0, w1c := 0x0, w1s := 0x0, rws := 0x0, reset := 0x0, kind := .plain } /- LPM_EXT_CNT -/,
  { base := 0x420098, dims := [], rw := 0xFFFFFFFF, w1c := 0x0, w1s := 0x0, rws := 0x0, reset := 0x0, kind := .rwLo } /- LPM_JOB_ADDR_LO -/,
  { base := 0x42009C, dims := [], rw := 0xFFFFFFFF, w1c := 0x0, w1s := 0x0, rws := 0x0, reset := 0x0, kind := .rwHi } /- LPM_JOB_ADDR_HI -/,
  { base := 0x4200A0, dims := [], rw := 0x0, w1c := 0x0, w1s := 0x0, rws := 0x0, reset := 0x0, kind := .plain } /- LPM_JOB_CMD -/,
  { base := 0x4200A4, dims := [], rw := 0x0, w1c := 0x0, w1s := 0x0, rws := 0x0, reset := 0x0, kind := .plain } /- LPM_JOB_STAT -/,
  { base := 0x4200A8, dims := [], rw := 0x0, w1c := 0x0, w1s := 0x0, rws := 0x0, reset := 0x0, kind := .plain } /- LPM_ECC_CNT -/,
  { base := 0x4200AC, dims := [], rw := 0x0, w1c := 0x0, w1s := 0x0, rws := 0x0, reset := 0x0, kind := .plain } /- LPM_EXT_MOVES -/]

/-- Registers of XMT, part 0. -/
def rowsXmt0 : List RegRow := [
  { base := 0x430080, dims := [], rw := 0x0, w1c := 0x0, w1s := 0x0, rws := 0x0, reset := 0x0, kind := .plain } /- XMT_STAT -/,
  { base := 0x430084, dims := [], rw := 0xF0FFF, w1c := 0x0, w1s := 0x0, rws := 0x0, reset := 0x20000, kind := .plain } /- XMT_LRN_CFG -/,
  { base := 0x430088, dims := [], rw := 0xFFFF7F7F, w1c := 0x0, w1s := 0x0, rws := 0x0, reset := 0x3E81E50, kind := .plain } /- XMT_PLACE_CFG -/,
  { base := 0x43008C, dims := [], rw := 0x0, w1c := 0x0, w1s := 0x0, rws := 0x0, reset := 0xC00, kind := .plain } /- XMT_PLACE_STAT -/,
  { base := 0x430090, dims := [], rw := 0xFFFFFFFF, w1c := 0x0, w1s := 0x0, rws := 0x0, reset := 0x0, kind := .rwLo } /- XMT_JOB_ADDR_LO -/,
  { base := 0x430094, dims := [], rw := 0xFFFFFFFF, w1c := 0x0, w1s := 0x0, rws := 0x0, reset := 0x0, kind := .rwHi } /- XMT_JOB_ADDR_HI -/,
  { base := 0x430098, dims := [], rw := 0x0, w1c := 0x0, w1s := 0x0, rws := 0x0, reset := 0x0, kind := .plain } /- XMT_JOB_CMD -/,
  { base := 0x43009C, dims := [], rw := 0x0, w1c := 0x0, w1s := 0x0, rws := 0x0, reset := 0x0, kind := .plain } /- XMT_JOB_STAT -/,
  { base := 0x4300A0, dims := [], rw := 0xFF03, w1c := 0x0, w1s := 0x0, rws := 0x0, reset := 0x1000, kind := .plain } /- XMT_ASY_CFG -/,
  { base := 0x4300A4, dims := [], rw := 0x0, w1c := 0x0, w1s := 0x0, rws := 0x0, reset := 0x0, kind := .plain } /- XMT_ASY_STAT -/,
  { base := 0x4300A8, dims := [], rw := 0x0, w1c := 0x0, w1s := 0x0, rws := 0x0, reset := 0x0, kind := .plain } /- XMT_MISSING -/,
  { base := 0x4300AC, dims := [], rw := 0x0, w1c := 0x0, w1s := 0x0, rws := 0x0, reset := 0x0, kind := .plain } /- XMT_DIFFERENT -/,
  { base := 0x4300B0, dims := [], rw := 0x0, w1c := 0x0, w1s := 0x0, rws := 0x0, reset := 0x0, kind := .plain } /- XMT_EXTRA -/,
  { base := 0x4300B4, dims := [], rw := 0x0, w1c := 0x0, w1s := 0x0, rws := 0x0, reset := 0x0, kind := .plain } /- XMT_REPAIRED -/,
  { base := 0x4300B8, dims := [], rw := 0x0, w1c := 0x0, w1s := 0x0, rws := 0x0, reset := 0x0, kind := .plain } /- XMT_ECC_CNT -/,
  { base := 0x4300BC, dims := [], rw := 0x0, w1c := 0x0, w1s := 0x0, rws := 0x0, reset := 0x0, kind := .plain } /- XMT_PERR_CNT -/,
  { base := 0x431800, dims := [(8, 0x1000), (32, 0x40)], rw := 0x0, w1c := 0x0, w1s := 0x0, rws := 0xFFFF0FFF, reset := 0x0, kind := .plain } /- XMT_TBL_CFG -/,
  { base := 0x431804, dims := [(8, 0x1000), (32, 0x40)], rw := 0x0, w1c := 0x0, w1s := 0x0, rws := 0xFFFFFFFF, reset := 0x0, kind := .plain } /- XMT_TBL_SEED0 -/,
  { base := 0x431808, dims := [(8, 0x1000), (32, 0x40)], rw := 0x0, w1c := 0x0, w1s := 0x0, rws := 0xFFFFFFFF, reset := 0x0, kind := .plain } /- XMT_TBL_SEED1 -/,
  { base := 0x43180C, dims := [(8, 0x1000), (32, 0x40)], rw := 0x0, w1c := 0x0, w1s := 0x0, rws := 0x3FF, reset := 0x1, kind := .plain } /- XMT_TBL_LRN -/,
  { base := 0x431810, dims := [(8, 0x1000), (32, 0x40)], rw := 0xFFFFFFFF, w1c := 0x0, w1s := 0x0, rws := 0x0, reset := 0x0, kind := .rwLo } /- XMT_TBL_SHADOW_LO -/,
  { base := 0x431814, dims := [(8, 0x1000), (32, 0x40)], rw := 0xFFFFFFFF, w1c := 0x0, w1s := 0x0, rws := 0x0, reset := 0x0, kind := .rwHi } /- XMT_TBL_SHADOW_HI -/,
  { base := 0x431818, dims := [(8, 0x1000), (32, 0x40)], rw := 0x1FFFFFFF, w1c := 0x0, w1s := 0x0, rws := 0x0, reset := 0x0, kind := .plain } /- XMT_TBL_SHADOW_CNT -/,
  { base := 0x43181C, dims := [(8, 0x1000), (32, 0x40)], rw := 0x0, w1c := 0x1E, w1s := 0x0, rws := 0x0, reset := 0x0, kind := .plain } /- XMT_TBL_STAT -/]

/-- Registers of XMT, part 1. -/
def rowsXmt1 : List RegRow := [
  { base := 0x431820, dims := [(8, 0x1000), (32, 0x40)], rw := 0x0, w1c := 0x0, w1s := 0x0, rws := 0x0, reset := 0x0, kind := .plain } /- XMT_TBL_ENTRIES -/,
  { base := 0x431824, dims := [(8, 0x1000), (32, 0x40)], rw := 0x0, w1c := 0x0, w1s := 0x0, rws := 0x0, reset := 0x0, kind := .plain } /- XMT_TBL_EXT -/,
  { base := 0x431828, dims := [(8, 0x1000), (32, 0x40)], rw := 0x0, w1c := 0x0, w1s := 0x0, rws := 0x0, reset := 0x0, kind := .plain } /- XMT_TBL_LEARNS -/,
  { base := 0x43182C, dims := [(8, 0x1000), (32, 0x40)], rw := 0x0, w1c := 0x0, w1s := 0x0, rws := 0x0, reset := 0x0, kind := .plain } /- XMT_TBL_MOVES -/,
  { base := 0x431830, dims := [(8, 0x1000), (32, 0x40)], rw := 0x0, w1c := 0x0, w1s := 0x0, rws := 0x0, reset := 0x0, kind := .plain } /- XMT_TBL_FLAPS -/,
  { base := 0x431834, dims := [(8, 0x1000), (32, 0x40)], rw := 0x0, w1c := 0x0, w1s := 0x0, rws := 0x0, reset := 0x0, kind := .plain } /- XMT_TBL_LFAIL -/]

/-- The registers of XMT. -/
def rowsXmt : List RegRow := rowsXmt0 ++ rowsXmt1

/-- The registers of CST. -/
def rowsCst : List RegRow := [
  { base := 0x500080, dims := [], rw := 0x0, w1c := 0x0, w1s := 0x0, rws := 0x0, reset := 0x0, kind := .plain } /- CST_CMD -/,
  { base := 0x500084, dims := [], rw := 0x0, w1c := 0x0, w1s := 0x0, rws := 0x0, reset := 0x0, kind := .plain } /- CST_STAT -/,
  { base := 0x500088, dims := [], rw := 0xFFFFFFFF, w1c := 0x0, w1s := 0x0, rws := 0x0, reset := 0x0, kind := .rwLo } /- CST_SRC_LO -/,
  { base := 0x50008C, dims := [], rw := 0xFFFFFFFF, w1c := 0x0, w1s := 0x0, rws := 0x0, reset := 0x0, kind := .rwHi } /- CST_SRC_HI -/,
  { base := 0x500090, dims := [], rw := 0x1FFFFFF, w1c := 0x0, w1s := 0x0, rws := 0x0, reset := 0x0, kind := .plain } /- CST_SRC_LEN -/,
  { base := 0x500094, dims := [], rw := 0x7, w1c := 0x0, w1s := 0x0, rws := 0x0, reset := 0x1, kind := .plain } /- CST_PATCH_CFG -/,
  { base := 0x500098, dims := [], rw := 0x0, w1c := 0x0, w1s := 0x0, rws := 0x0, reset := 0x0, kind := .plain } /- CST_RUN_VER -/,
  { base := 0x50009C, dims := [], rw := 0x0, w1c := 0x0, w1s := 0x0, rws := 0x0, reset := 0x0, kind := .plain } /- CST_RUN_FMT -/,
  { base := 0x5000A0, dims := [], rw := 0x0, w1c := 0x0, w1s := 0x0, rws := 0x0, reset := 0x0, kind := .plain } /- CST_RUN_ENTRY -/,
  { base := 0x5000A4, dims := [], rw := 0x0, w1c := 0x0, w1s := 0x0, rws := 0x0, reset := 0x0, kind := .plain } /- CST_NEW_VER -/,
  { base := 0x5000A8, dims := [], rw := 0x0, w1c := 0x0, w1s := 0x0, rws := 0x0, reset := 0x0, kind := .plain } /- CST_ECC_CNT -/,
  { base := 0x5000AC, dims := [], rw := 0x0, w1c := 0x0, w1s := 0x0, rws := 0x0, reset := 0x0, kind := .plain } /- CST_UWERR -/,
  { base := 0x5000B0, dims := [], rw := 0x0, w1c := 0x0, w1s := 0x0, rws := 0x0, reset := 0x0, kind := .plain } /- CST_UWERR_LAST -/,
  { base := 0x5000B4, dims := [], rw := 0xFF1FFF, w1c := 0x0, w1s := 0x0, rws := 0x0, reset := 0x0, kind := .plain } /- CST_DBG_ADDR -/,
  { base := 0x5000C0, dims := [(8, 0x4)], rw := 0x0, w1c := 0x0, w1s := 0x0, rws := 0x0, reset := 0x0, kind := .plain } /- CST_DBG_DATA -/,
  { base := 0x500400, dims := [(64, 0x4)], rw := 0x0, w1c := 0x0, w1s := 0x0, rws := 0x0, reset := 0x0, kind := .plain } /- CST_WVER -/]

/-- The registers of WKS. -/
def rowsWks : List RegRow := [
  { base := 0x600080, dims := [(64, 0x1000)], rw := 0x0, w1c := 0x0, w1s := 0x0, rws := 0x0, reset := 0x0, kind := .plain } /- WKS_STAT -/,
  { base := 0x600084, dims := [(64, 0x1000)], rw := 0xFF, w1c := 0x0, w1s := 0x0, rws := 0x0, reset := 0x1, kind := .plain } /- WKS_STEAL_CFG -/,
  { base := 0x600088, dims := [(64, 0x1000)], rw := 0x0, w1c := 0x0, w1s := 0x0, rws := 0xFFFF, reset := 0x1000, kind := .plain } /- WKS_WDOG -/,
  { base := 0x600100, dims := [(64, 0x1000)], rw := 0x0, w1c := 0x0, w1s := 0x0, rws := 0x0, reset := 0x0, kind := .snapLo } /- WKS_ISSUE_LO -/,
  { base := 0x600104, dims := [(64, 0x1000)], rw := 0x0, w1c := 0x0, w1s := 0x0, rws := 0x0, reset := 0x0, kind := .snapHi } /- WKS_ISSUE_HI -/,
  { base := 0x600108, dims := [(64, 0x1000)], rw := 0x0, w1c := 0x0, w1s := 0x0, rws := 0x0, reset := 0x0, kind := .snapLo } /- WKS_PASS_LO -/,
  { base := 0x60010C, dims := [(64, 0x1000)], rw := 0x0, w1c := 0x0, w1s := 0x0, rws := 0x0, reset := 0x0, kind := .snapHi } /- WKS_PASS_HI -/,
  { base := 0x600110, dims := [(64, 0x1000)], rw := 0x0, w1c := 0x0, w1s := 0x0, rws := 0x0, reset := 0x0, kind := .snapLo } /- WKS_IDLE_LO -/,
  { base := 0x600114, dims := [(64, 0x1000)], rw := 0x0, w1c := 0x0, w1s := 0x0, rws := 0x0, reset := 0x0, kind := .snapHi } /- WKS_IDLE_HI -/,
  { base := 0x600118, dims := [(64, 0x1000)], rw := 0x0, w1c := 0x0, w1s := 0x0, rws := 0x0, reset := 0x0, kind := .plain } /- WKS_STOLEN -/,
  { base := 0x60011C, dims := [(64, 0x1000)], rw := 0x0, w1c := 0x0, w1s := 0x0, rws := 0x0, reset := 0x0, kind := .plain } /- WKS_WDOG_CNT -/,
  { base := 0x600120, dims := [(64, 0x1000)], rw := 0x0, w1c := 0x0, w1s := 0x0, rws := 0x0, reset := 0x0, kind := .plain } /- WKS_RERUN -/,
  { base := 0x600400, dims := [(16, 0x4000)], rw := 0x0, w1c := 0x0, w1s := 0x0, rws := 0x0, reset := 0x0, kind := .plain } /- WKS_ORD_STAT -/,
  { base := 0x600404, dims := [(16, 0x4000)], rw := 0x0, w1c := 0x0, w1s := 0x0, rws := 0x0, reset := 0x0, kind := .plain } /- WKS_ORD_NEXT -/,
  { base := 0x600408, dims := [(16, 0x4000)], rw := 0x0, w1c := 0x0, w1s := 0x0, rws := 0x0, reset := 0x0, kind := .plain } /- WKS_DISP_STAT -/,
  { base := 0x60040C, dims := [(16, 0x4000)], rw := 0x0, w1c := 0x0, w1s := 0x0, rws := 0x0, reset := 0x0, kind := .plain } /- WKS_I_SKIPS -/,
  { base := 0x600410, dims := [(16, 0x4000)], rw := 0x0, w1c := 0x0, w1s := 0x0, rws := 0x0, reset := 0x0, kind := .plain } /- WKS_I_LATE -/,
  { base := 0x600414, dims := [(16, 0x4000)], rw := 0x0, w1c := 0x0, w1s := 0x0, rws := 0x0, reset := 0x0, kind := .plain } /- WKS_I_FULL -/,
  { base := 0x600418, dims := [(16, 0x4000)], rw := 0x0, w1c := 0x0, w1s := 0x0, rws := 0x0, reset := 0x0, kind := .plain } /- WKS_E_SKIPS -/,
  { base := 0x60041C, dims := [(16, 0x4000)], rw := 0x0, w1c := 0x0, w1s := 0x0, rws := 0x0, reset := 0x0, kind := .plain } /- WKS_E_LATE -/,
  { base := 0x600420, dims := [(16, 0x4000)], rw := 0x0, w1c := 0x0, w1s := 0x0, rws := 0x0, reset := 0x0, kind := .plain } /- WKS_E_FULL -/,
  { base := 0x600424, dims := [(16, 0x4000)], rw := 0x0, w1c := 0x0, w1s := 0x0, rws := 0x0, reset := 0x0, kind := .plain } /- WKS_STEAL_OUT -/]

/-- The registers of PRS. -/
def rowsPrs : List RegRow := [
  { base := 0x700080, dims := [(16, 0x1000)], rw := 0x0, w1c := 0x0, w1s := 0x0, rws := 0x0, reset := 0x0, kind := .plain } /- PRS_STAT -/,
  { base := 0x7000A0, dims := [(16, 0x1000)], rw := 0x0, w1c := 0x0, w1s := 0x0, rws := 0x3FF001F, reset := 0x2000018, kind := .plain } /- PRS_LIMITS -/,
  { base := 0x7000A4, dims := [(16, 0x1000)], rw := 0x0, w1c := 0x0, w1s := 0x0, rws := 0x1FF, reset := 0x40, kind := .plain } /- PRS_PAT_CFG -/,
  { base := 0x700100, dims := [(16, 0x1000)], rw := 0x7FFF, w1c := 0x0, w1s := 0x0, rws := 0x0, reset := 0x0, kind := .plain } /- PRS_GMEM_ADDR -/,
  { base := 0x700104, dims := [(16, 0x1000)], rw := 0x0, w1c := 0x0, w1s := 0x0, rws := 0x0, reset := 0x0, kind := .plain } /- PRS_GMEM_CMD -/,
  { base := 0x700108, dims := [(16, 0x1000)], rw := 0x0, w1c := 0x3, w1s := 0x0, rws := 0x0, reset := 0x0, kind := .plain } /- PRS_GMEM_STAT -/,
  { base := 0x700110, dims := [(16, 0x1000), (9, 0x4)], rw := 0xFFFFFFFF, w1c := 0x0, w1s := 0x0, rws := 0x0, reset := 0x0, kind := .plain } /- PRS_GMEM_DATA -/,
  { base := 0x700180, dims := [(16, 0x1000)], rw := 0x0, w1c := 0x0, w1s := 0x0, rws := 0x0, reset := 0x0, kind := .plain } /- PRS_CNT_DEPTH -/,
  { base := 0x700184, dims := [(16, 0x1000)], rw := 0x0, w1c := 0x0, w1s := 0x0, rws := 0x0, reset := 0x0, kind := .plain } /- PRS_CNT_SHORT -/,
  { base := 0x700188, dims := [(16, 0x1000)], rw := 0x0, w1c := 0x0, w1s := 0x0, rws := 0x0, reset := 0x0, kind := .plain } /- PRS_CNT_LONG -/,
  { base := 0x70018C, dims := [(16, 0x1000)], rw := 0x0, w1c := 0x0, w1s := 0x0, rws := 0x0, reset := 0x0, kind := .plain } /- PRS_CNT_NOTR -/,
  { base := 0x700190, dims := [(16, 0x1000)], rw := 0x0, w1c := 0x0, w1s := 0x0, rws := 0x0, reset := 0x0, kind := .plain } /- PRS_CNT_DEFT -/,
  { base := 0x700194, dims := [(16, 0x1000)], rw := 0x0, w1c := 0x0, w1s := 0x0, rws := 0x0, reset := 0x0, kind := .plain } /- PRS_CNT_PDENY -/,
  { base := 0x700198, dims := [(16, 0x1000)], rw := 0x0, w1c := 0x0, w1s := 0x0, rws := 0x0, reset := 0x0, kind := .plain } /- PRS_CNT_PAD -/,
  { base := 0x70019C, dims := [(16, 0x1000)], rw := 0x0, w1c := 0x0, w1s := 0x0, rws := 0x0, reset := 0x0, kind := .plain } /- PRS_CNT_ECC_COR -/,
  { base := 0x700800, dims := [(16, 0x1000), (18, 0x20)], rw := 0x0, w1c := 0x0, w1s := 0x0, rws := 0x3FFF, reset := 0xFE, kind := .plain } /- PRS_PORT_CFG -/]

/-- The registers of LOOM. -/
def rowsLoom : List RegRow := [
  { base := 0x801080, dims := [(64, 0x1000)], rw := 0x0, w1c := 0x0, w1s := 0x0, rws := 0xFFFF003F, reset := 0x0, kind := .plain } /- LOOM_GRP_CFG -/,
  { base := 0x801084, dims := [(64, 0x1000)], rw := 0x0, w1c := 0x0, w1s := 0x0, rws := 0xFFFFF, reset := 0x0, kind := .plain } /- LOOM_GRP_NUM -/,
  { base := 0x801090, dims := [(64, 0x1000), (4, 0x4)], rw := 0x0, w1c := 0x0, w1s := 0x0, rws := 0xFFFFFFFF, reset := 0x0, kind := .plain } /- LOOM_GRP_BASE -/,
  { base := 0x8010A0, dims := [(64, 0x1000)], rw := 0x0, w1c := 0xE, w1s := 0x0, rws := 0x0, reset := 0x0, kind := .plain } /- LOOM_GRP_STAT -/,
  { base := 0x801100, dims := [(64, 0x1000), (16, 0x4)], rw := 0x0, w1c := 0x0, w1s := 0x0, rws := 0xFFFF00FF, reset := 0x0, kind := .plain } /- LOOM_CLIENT_CFG -/,
  { base := 0x801400, dims := [(64, 0x1000), (80, 0x4)], rw := 0x0, w1c := 0x0, w1s := 0x0, rws := 0x1F1F1F1F, reset := 0x1F1F1F1F, kind := .plain } /- LOOM_CAL_A -/,
  { base := 0x801600, dims := [(64, 0x1000), (80, 0x4)], rw := 0x0, w1c := 0x0, w1s := 0x0, rws := 0x1F1F1F1F, reset := 0x1F1F1F1F, kind := .plain } /- LOOM_CAL_B -/,
  { base := 0x800080, dims := [], rw := 0x0, w1c := 0x0, w1s := 0x0, rws := 0xFF, reset := 0x0, kind := .plain } /- LOOM_LRN_CFG -/,
  { base := 0x800084, dims := [], rw := 0x0, w1c := 0xFF00, w1s := 0x0, rws := 0x0, reset := 0x0, kind := .plain } /- LOOM_LRN_STAT -/,
  { base := 0x800088, dims := [], rw := 0x0, w1c := 0x0, w1s := 0x0, rws := 0x0, reset := 0x0, kind := .plain } /- LOOM_HNOTICE -/,
  { base := 0x80008C, dims := [], rw := 0x0, w1c := 0x0, w1s := 0x0, rws := 0x0, reset := 0x0, kind := .plain } /- LOOM_HN_STAT -/,
  { base := 0x800090, dims := [], rw := 0x7F7F, w1c := 0x0, w1s := 0x0, rws := 0x0, reset := 0x0, kind := .plain } /- LOOM_CALRD_SEL -/,
  { base := 0x800094, dims := [], rw := 0x0, w1c := 0x0, w1s := 0x0, rws := 0x0, reset := 0x1F1F1F1F, kind := .plain } /- LOOM_CALRD_DATA -/,
  { base := 0x800100, dims := [(64, 0x4)], rw := 0x0, w1c := 0x0, w1s := 0x0, rws := 0xFFFF, reset := 0x0, kind := .plain } /- LOOM_FOL_CFG -/,
  { base := 0x800200, dims := [(64, 0x4)], rw := 0x0, w1c := 0x0, w1s := 0x0, rws := 0x0, reset := 0x0, kind := .plain } /- LOOM_FOL_STAT -/,
  { base := 0x800300, dims := [(64, 0x4)], rw := 0x0, w1c := 0xFF, w1s := 0x0, rws := 0x0, reset := 0x0, kind := .plain } /- LOOM_FOL_EVT -/,
  { base := 0x800400, dims := [(64, 0x10)], rw := 0x0, w1c := 0x0, w1s := 0x0, rws := 0x0, reset := 0x0, kind := .plain } /- LOOM_FOL_CNT0 -/,
  { base := 0x800404, dims := [(64, 0x10)], rw := 0x0, w1c := 0x0, w1s := 0x0, rws := 0x0, reset := 0x0, kind := .plain } /- LOOM_FOL_CNT1 -/,
  { base := 0x800408, dims := [(64, 0x10)], rw := 0x0, w1c := 0x0, w1s := 0x0, rws := 0x0, reset := 0x0, kind := .plain } /- LOOM_FOL_CNT2 -/,
  { base := 0x800800, dims := [(64, 0x20), (8, 0x4)], rw := 0x0, w1c := 0x0, w1s := 0x0, rws := 0x1FFFFF, reset := 0x14FFFF, kind := .plain } /- LOOM_MAP -/]

/-- The registers of PRT. -/
def rowsPrt : List RegRow := [
  { base := 0x900080, dims := [(16, 0x1000)], rw := 0x0, w1c := 0x0, w1s := 0x0, rws := 0x1F, reset := 0x0, kind := .plain } /- PRT_SLICE_MODE -/,
  { base := 0x900084, dims := [(16, 0x1000)], rw := 0x0, w1c := 0x10000, w1s := 0x0, rws := 0x0, reset := 0x0, kind := .plain } /- PRT_SLICE_STAT -/,
  { base := 0x900088, dims := [(16, 0x1000)], rw := 0x0, w1c := 0x7FF0000, w1s := 0x0, rws := 0x0, reset := 0x0, kind := .plain } /- PRT_HQ_STAT -/,
  { base := 0x9000C0, dims := [(16, 0x1000)], rw := 0x0, w1c := 0x0, w1s := 0x0, rws := 0xFFFFFFFF, reset := 0x0, kind := .plain } /- PRT_LANE_POL -/,
  { base := 0x900200, dims := [(16, 0x1000), (8, 0x4)], rw := 0x0, w1c := 0x0, w1s := 0x0, rws := 0x77777777, reset := 0x0, kind := .plain } /- PRT_DSCP_MAP -/,
  { base := 0x900800, dims := [(16, 0x1000), (16, 0x40)], rw := 0x0, w1c := 0x0, w1s := 0x0, rws := 0xFF, reset := 0x0, kind := .plain } /- PRT_PORT_CFG -/,
  { base := 0x900804, dims := [(16, 0x1000), (16, 0x40)], rw := 0x0, w1c := 0x0, w1s := 0x0, rws := 0x3FFF, reset := 0x5F2, kind := .plain } /- PRT_PORT_MAXF -/,
  { base := 0x900808, dims := [(16, 0x1000), (16, 0x40)], rw := 0x0, w1c := 0x0, w1s := 0x0, rws := 0x1FFFFFF, reset := 0xFFFF00, kind := .plain } /- PRT_PFC_CFG -/,
  { base := 0x90080C, dims := [(16, 0x1000), (16, 0x40)], rw := 0x0, w1c := 0x0, w1s := 0x0, rws := 0xFFFFFFFF, reset := 0x0, kind := .plain } /- PRT_PFC_THR -/,
  { base := 0x900818, dims := [(16, 0x1000), (16, 0x40)], rw := 0x0, w1c := 0x0, w1s := 0x0, rws := 0x0, reset := 0x0, kind := .plain } /- PRT_PORT_STAT -/,
  { base := 0x900810, dims := [(16, 0x1000), (16, 0x40)], rw := 0x0, w1c := 0x0, w1s := 0x0, rws := 0xFFFFFF, reset := 0x0, kind := .plain } /- PRT_PTP_RXDLY -/,
  { base := 0x900814, dims := [(16, 0x1000), (16, 0x40)], rw := 0x0, w1c := 0x0, w1s := 0x0, rws := 0xFFFFFF, reset := 0x0, kind := .plain } /- PRT_PTP_TXDLY -/]

/-- The block code owning a BAR0 address (02 Table 2.2); 24 for the unassigned addresses above. -/
def blockOf (a : Nat) : Nat :=
  if a < 0x10000 then 0
  else if a < 0x20000 then 1
  else if a < 0x30000 then 2
  else if a < 0x40000 then 3
  else if a < 0x50000 then 4
  else if a < 0x60000 then 5
  else if a < 0x80000 then 6
  else if a < 0x90000 then 7
  else if a < 0xA0000 then 8
  else if a < 0xB0000 then 9
  else if a < 0xC0000 then 10
  else if a < 0x100000 then 11
  else if a < 0x200000 then 12
  else if a < 0x300000 then 13
  else if a < 0x400000 then 14
  else if a < 0x410000 then 15
  else if a < 0x420000 then 16
  else if a < 0x430000 then 17
  else if a < 0x500000 then 18
  else if a < 0x600000 then 19
  else if a < 0x700000 then 20
  else if a < 0x800000 then 21
  else if a < 0x900000 then 22
  else if a < 0xA00000 then 23
  else 24

/-- The register rows of a block. -/
def blockRows : Nat → List RegRow
  | 0 => rowsSys
  | 1 => rowsLdg
  | 2 => rowsSec
  | 3 => rowsFlt
  | 4 => rowsAon
  | 5 => rowsIcu
  | 6 => rowsHif
  | 7 => rowsTim
  | 8 => rowsCnt
  | 9 => rowsCap
  | 10 => rowsCly
  | 11 => rowsHbc
  | 12 => rowsSch
  | 13 => rowsBuf
  | 14 => rowsVoq
  | 15 => rowsAcs
  | 16 => rowsObj
  | 17 => rowsLpm
  | 18 => rowsXmt
  | 19 => rowsCst
  | 20 => rowsWks
  | 21 => rowsPrs
  | 22 => rowsLoom
  | 23 => rowsPrt
  | _ => []

/-- The first address of a block's region (02 Table 2.2). -/
def blockBase : Nat → Nat
  | 0 => 0x0
  | 1 => 0x10000
  | 2 => 0x20000
  | 3 => 0x30000
  | 4 => 0x40000
  | 5 => 0x50000
  | 6 => 0x60000
  | 7 => 0x80000
  | 8 => 0x90000
  | 9 => 0xA0000
  | 10 => 0xB0000
  | 11 => 0xC0000
  | 12 => 0x100000
  | 13 => 0x200000
  | 14 => 0x300000
  | 15 => 0x400000
  | 16 => 0x410000
  | 17 => 0x420000
  | 18 => 0x430000
  | 19 => 0x500000
  | 20 => 0x600000
  | 21 => 0x700000
  | 22 => 0x800000
  | 23 => 0x900000
  | _ => 0xA00000

/-- The number of assigned pages of a block (each chapter's page list). -/
def blockPages : Nat → Nat
  | 0 => 2
  | 1 => 1
  | 2 => 1
  | 3 => 1
  | 4 => 1
  | 5 => 2
  | 6 => 1
  | 7 => 1
  | 8 => 1
  | 9 => 1
  | 10 => 9
  | 11 => 6
  | 12 => 17
  | 13 => 1
  | 14 => 1
  | 15 => 4
  | 16 => 1
  | 17 => 1
  | 18 => 9
  | 19 => 1
  | 20 => 64
  | 21 => 16
  | 22 => 65
  | 23 => 16
  | _ => 0

end Sys2Proof.Machine
end

