-- ==== Sys2Proof/Machine/RegNames.lean ====
section
/-! DEFINITION. The registers and fields that the meanings use, under the manual's names: a register is its BAR0 byte address, a
field is an address, a lowest bit and a width (each block's register map). -/

namespace Sys2Proof.Machine.Reg

/-- A field of a register: the register's BAR0 byte address, the field's lowest bit and its width. -/
structure Fld where
  addr : Nat
  lo : Nat
  w : Nat
  deriving DecidableEq, Repr

def SYS_BAR4_WIN : Nat := 0xC0
def SYS_BAR4_WIN_WINDOW : Fld := ⟨SYS_BAR4_WIN, 0, 6⟩
def SYS_BAR4_WIN_EN : Fld := ⟨SYS_BAR4_WIN, 31, 1⟩
def LDG_STAGE : Nat := 0x10080
def LDG_ORPHAN_STAT : Nat := 0x10084
def LDG_ORPHAN_STAT_ORPHAN : Fld := ⟨LDG_ORPHAN_STAT, 0, 1⟩
def LDG_ORPHAN_STAT_INIT : Fld := ⟨LDG_ORPHAN_STAT, 1, 3⟩
def LDG_ORPHAN_ADDR : Nat := 0x10088
def LDG_ORPHAN_ADDR_ADDR : Fld := ⟨LDG_ORPHAN_ADDR, 0, 27⟩
def LDG_TXN_CMD (i : Nat) : Nat := 0x10100 + 0x40 * i
def LDG_TXN_STAT (i : Nat) : Nat := 0x10104 + 0x40 * i
def LDG_TXN_STAT_STATE (i : Nat) : Fld := ⟨LDG_TXN_STAT i, 0, 3⟩
def LDG_TXN_STAT_CMD_ERR (i : Nat) : Fld := ⟨LDG_TXN_STAT i, 3, 1⟩
def LDG_TXN_STAT_RESULT (i : Nat) : Fld := ⟨LDG_TXN_STAT i, 4, 4⟩
def LDG_TXN_CTL (i : Nat) : Nat := 0x10108 + 0x40 * i
def LDG_TXN_CTL_READ_STAGED (i : Nat) : Fld := ⟨LDG_TXN_CTL i, 0, 1⟩
def LDG_TXN_TIMEOUT (i : Nat) : Nat := 0x1010C + 0x40 * i
def LDG_TXN_TIMEOUT_TIMEOUT_US (i : Nat) : Fld := ⟨LDG_TXN_TIMEOUT i, 0, 24⟩
def LDG_TXN_EPOCH (i : Nat) : Nat := 0x10110 + 0x40 * i
def LDG_TXN_EPOCH_EPOCH (i : Nat) : Fld := ⟨LDG_TXN_EPOCH i, 0, 32⟩
def LDG_TXN_CONFLICT_ADDR (i : Nat) : Nat := 0x10114 + 0x40 * i
def LDG_TXN_CONFLICT_ADDR_ADDR (i : Nat) : Fld := ⟨LDG_TXN_CONFLICT_ADDR i, 0, 27⟩
def PRT_SLICE_MODE (i : Nat) : Nat := 0x900080 + 0x1000 * i
def PRT_SLICE_MODE_MODE (i : Nat) : Fld := ⟨PRT_SLICE_MODE i, 0, 4⟩
def PRT_SLICE_STAT (i : Nat) : Nat := 0x900084 + 0x1000 * i
def PRT_SLICE_STAT_MODE_ERR (i : Nat) : Fld := ⟨PRT_SLICE_STAT i, 16, 1⟩
def PRT_HQ_STAT (i : Nat) : Nat := 0x900088 + 0x1000 * i
def PRT_HQ_STAT_HWM (i : Nat) : Fld := ⟨PRT_HQ_STAT i, 16, 11⟩
def PRT_DSCP_MAP (i : Nat) (j : Nat) : Nat := 0x900200 + 0x1000 * i + 0x4 * j
def PRT_DSCP_MAP_CLS_at (i : Nat) (j : Nat) (x : Nat) : Fld := ⟨PRT_DSCP_MAP i j, 0 + 4 * x, 3⟩
def PRT_PORT_CFG (i : Nat) (j : Nat) : Nat := 0x900800 + 0x1000 * i + 0x40 * j
def PRT_PORT_CFG_EN (i : Nat) (j : Nat) : Fld := ⟨PRT_PORT_CFG i j, 0, 1⟩
def PRT_PORT_CFG_FUNC (i : Nat) (j : Nat) : Fld := ⟨PRT_PORT_CFG i j, 1, 1⟩
def PRT_PORT_CFG_CT (i : Nat) (j : Nat) : Fld := ⟨PRT_PORT_CFG i j, 2, 1⟩
def PRT_PORT_CFG_CLS_MODE (i : Nat) (j : Nat) : Fld := ⟨PRT_PORT_CFG i j, 3, 2⟩
def PRT_PORT_CFG_DEF_CLS (i : Nat) (j : Nat) : Fld := ⟨PRT_PORT_CFG i j, 5, 3⟩
def PRT_PORT_MAXF (i : Nat) (j : Nat) : Nat := 0x900804 + 0x1000 * i + 0x40 * j
def PRT_PORT_MAXF_MAX_FRAME (i : Nat) (j : Nat) : Fld := ⟨PRT_PORT_MAXF i j, 0, 14⟩
def PRT_PFC_CFG (i : Nat) (j : Nat) : Nat := 0x900808 + 0x1000 * i + 0x40 * j
def PRT_PFC_CFG_PRI_EN (i : Nat) (j : Nat) : Fld := ⟨PRT_PFC_CFG i j, 0, 8⟩
def PRT_PFC_CFG_QUANTA (i : Nat) (j : Nat) : Fld := ⟨PRT_PFC_CFG i j, 8, 16⟩
def PRT_PFC_CFG_RX_EN (i : Nat) (j : Nat) : Fld := ⟨PRT_PFC_CFG i j, 24, 1⟩
def PRT_PFC_THR (i : Nat) (j : Nat) : Nat := 0x90080C + 0x1000 * i + 0x40 * j
def PRT_PFC_THR_XOFF_KB (i : Nat) (j : Nat) : Fld := ⟨PRT_PFC_THR i j, 0, 16⟩
def PRT_PFC_THR_XON_KB (i : Nat) (j : Nat) : Fld := ⟨PRT_PFC_THR i j, 16, 16⟩
def PRT_PORT_STAT (i : Nat) (j : Nat) : Nat := 0x900818 + 0x1000 * i + 0x40 * j
def PRT_PORT_STAT_UP (i : Nat) (j : Nat) : Fld := ⟨PRT_PORT_STAT i j, 0, 1⟩
def PRT_PORT_STAT_FEC_LOCK (i : Nat) (j : Nat) : Fld := ⟨PRT_PORT_STAT i j, 1, 1⟩
def PRT_PORT_STAT_LF_RX (i : Nat) (j : Nat) : Fld := ⟨PRT_PORT_STAT i j, 2, 1⟩
def PRT_PORT_STAT_RF_RX (i : Nat) (j : Nat) : Fld := ⟨PRT_PORT_STAT i j, 3, 1⟩
def PRT_PTP_RXDLY (i : Nat) (j : Nat) : Nat := 0x900810 + 0x1000 * i + 0x40 * j
def PRT_PTP_RXDLY_DLY (i : Nat) (j : Nat) : Fld := ⟨PRT_PTP_RXDLY i j, 0, 24⟩
def PRT_PTP_TXDLY (i : Nat) (j : Nat) : Nat := 0x900814 + 0x1000 * i + 0x40 * j
def PRT_PTP_TXDLY_DLY (i : Nat) (j : Nat) : Fld := ⟨PRT_PTP_TXDLY i j, 0, 24⟩
def LOOM_GRP_CFG (i : Nat) : Nat := 0x801080 + 0x1000 * i
def LOOM_GRP_CFG_EN (i : Nat) : Fld := ⟨LOOM_GRP_CFG i, 0, 1⟩
def LOOM_GRP_CFG_SLICE (i : Nat) : Fld := ⟨LOOM_GRP_CFG i, 1, 4⟩
def LOOM_GRP_CFG_EXT800 (i : Nat) : Fld := ⟨LOOM_GRP_CFG i, 5, 1⟩
def LOOM_GRP_CFG_PHY_MASK (i : Nat) : Fld := ⟨LOOM_GRP_CFG i, 16, 16⟩
def LOOM_GRP_NUM (i : Nat) : Nat := 0x801084 + 0x1000 * i
def LOOM_GRP_NUM_GNUM (i : Nat) : Fld := ⟨LOOM_GRP_NUM i, 0, 20⟩
def LOOM_GRP_BASE (i : Nat) (j : Nat) : Nat := 0x801090 + 0x1000 * i + 0x4 * j
def LOOM_GRP_BASE_BASE_at (i : Nat) (j : Nat) (x : Nat) : Fld := ⟨LOOM_GRP_BASE i j, 0 + 8 * x, 8⟩
def LOOM_GRP_STAT (i : Nat) : Nat := 0x8010A0 + 0x1000 * i
def LOOM_CLIENT_CFG (i : Nat) (j : Nat) : Nat := 0x801100 + 0x1000 * i + 0x4 * j
def LOOM_CLIENT_CFG_EN (i : Nat) (j : Nat) : Fld := ⟨LOOM_CLIENT_CFG i j, 0, 1⟩
def LOOM_CLIENT_CFG_PORT (i : Nat) (j : Nat) : Fld := ⟨LOOM_CLIENT_CFG i j, 1, 4⟩
def LOOM_CLIENT_CFG_PRIO (i : Nat) (j : Nat) : Fld := ⟨LOOM_CLIENT_CFG i j, 5, 3⟩
def LOOM_CAL_A (i : Nat) (j : Nat) : Nat := 0x801400 + 0x1000 * i + 0x4 * j
def LOOM_CAL_A_SLOT_at (i : Nat) (j : Nat) (x : Nat) : Fld := ⟨LOOM_CAL_A i j, 0 + 8 * x, 5⟩
def LOOM_CAL_B (i : Nat) (j : Nat) : Nat := 0x801600 + 0x1000 * i + 0x4 * j
def LOOM_CAL_B_SLOT_at (i : Nat) (j : Nat) (x : Nat) : Fld := ⟨LOOM_CAL_B i j, 0 + 8 * x, 5⟩
def LOOM_LRN_CFG : Nat := 0x800080
def LOOM_LRN_CFG_LRN_EN : Fld := ⟨LOOM_LRN_CFG, 0, 8⟩
def LOOM_LRN_STAT : Nat := 0x800084
def LOOM_HNOTICE : Nat := 0x800088
def LOOM_HN_STAT : Nat := 0x80008C
def LOOM_HN_STAT_STATE : Fld := ⟨LOOM_HN_STAT, 0, 2⟩
def LOOM_HN_STAT_CODE : Fld := ⟨LOOM_HN_STAT, 2, 4⟩
def LOOM_HN_STAT_GROUP : Fld := ⟨LOOM_HN_STAT, 6, 6⟩
def LOOM_CALRD_SEL : Nat := 0x800090
def LOOM_CALRD_SEL_GROUP : Fld := ⟨LOOM_CALRD_SEL, 0, 6⟩
def LOOM_CALRD_SEL_DIR : Fld := ⟨LOOM_CALRD_SEL, 6, 1⟩
def LOOM_CALRD_SEL_WORD : Fld := ⟨LOOM_CALRD_SEL, 8, 7⟩
def LOOM_CALRD_DATA : Nat := 0x800094
def LOOM_FOL_CFG (i : Nat) : Nat := 0x800100 + 0x4 * i
def LOOM_FOL_CFG_FOL_EN (i : Nat) : Fld := ⟨LOOM_FOL_CFG i, 0, 1⟩
def LOOM_FOL_CFG_CAL (i : Nat) : Fld := ⟨LOOM_FOL_CFG i, 1, 1⟩
def LOOM_FOL_CFG_LRN_SEL (i : Nat) : Fld := ⟨LOOM_FOL_CFG i, 2, 4⟩
def LOOM_FOL_CFG_PARK_MS (i : Nat) : Fld := ⟨LOOM_FOL_CFG i, 6, 10⟩
def LOOM_FOL_STAT (i : Nat) : Nat := 0x800200 + 0x4 * i
def LOOM_FOL_STAT_MAP (i : Nat) : Fld := ⟨LOOM_FOL_STAT i, 0, 3⟩
def LOOM_FOL_STAT_PMAP (i : Nat) : Fld := ⟨LOOM_FOL_STAT i, 3, 3⟩
def LOOM_FOL_STAT_PEND (i : Nat) : Fld := ⟨LOOM_FOL_STAT i, 6, 1⟩
def LOOM_FOL_STAT_TXCAL (i : Nat) : Fld := ⟨LOOM_FOL_STAT i, 7, 1⟩
def LOOM_FOL_STAT_RXCAL (i : Nat) : Fld := ⟨LOOM_FOL_STAT i, 8, 1⟩
def LOOM_FOL_STAT_OPER (i : Nat) : Fld := ⟨LOOM_FOL_STAT i, 9, 1⟩
def LOOM_FOL_STAT_PHY_FLT (i : Nat) : Fld := ⟨LOOM_FOL_STAT i, 16, 16⟩
def LOOM_FOL_EVT (i : Nat) : Nat := 0x800300 + 0x4 * i
def LOOM_FOL_EVT_LAST_REJ (i : Nat) : Fld := ⟨LOOM_FOL_EVT i, 8, 4⟩
def LOOM_FOL_CNT0 (i : Nat) : Nat := 0x800400 + 0x10 * i
def LOOM_FOL_CNT0_ACCEPTED (i : Nat) : Fld := ⟨LOOM_FOL_CNT0 i, 0, 16⟩
def LOOM_FOL_CNT0_REJECTED (i : Nat) : Fld := ⟨LOOM_FOL_CNT0 i, 16, 16⟩
def LOOM_FOL_CNT1 (i : Nat) : Nat := 0x800404 + 0x10 * i
def LOOM_FOL_CNT1_SWITCHES (i : Nat) : Fld := ⟨LOOM_FOL_CNT1 i, 0, 16⟩
def LOOM_FOL_CNT1_FORCEDS (i : Nat) : Fld := ⟨LOOM_FOL_CNT1 i, 16, 16⟩
def LOOM_FOL_CNT2 (i : Nat) : Nat := 0x800408 + 0x10 * i
def LOOM_FOL_CNT2_PHY_FAULTS (i : Nat) : Fld := ⟨LOOM_FOL_CNT2 i, 0, 16⟩
def LOOM_FOL_CNT2_TRUNC (i : Nat) : Fld := ⟨LOOM_FOL_CNT2 i, 16, 16⟩
def LOOM_MAP (i : Nat) (j : Nat) : Nat := 0x800800 + 0x20 * i + 0x4 * j
def LOOM_MAP_INST_MASK (i : Nat) (j : Nat) : Fld := ⟨LOOM_MAP i j, 0, 16⟩
def LOOM_MAP_PER_INST (i : Nat) (j : Nat) : Fld := ⟨LOOM_MAP i j, 16, 5⟩
def PRS_LIMITS (i : Nat) : Nat := 0x7000A0 + 0x1000 * i
def PRS_LIMITS_MAXL (i : Nat) : Fld := ⟨PRS_LIMITS i, 0, 5⟩
def PRS_LIMITS_MAXB (i : Nat) : Fld := ⟨PRS_LIMITS i, 16, 10⟩
def PRS_PAT_CFG (i : Nat) : Nat := 0x7000A4 + 0x1000 * i
def PRS_PAT_CFG_PAT_WIN (i : Nat) : Fld := ⟨PRS_PAT_CFG i, 0, 9⟩
def PRS_GMEM_ADDR (i : Nat) : Nat := 0x700100 + 0x1000 * i
def PRS_GMEM_ADDR_INDEX (i : Nat) : Fld := ⟨PRS_GMEM_ADDR i, 0, 12⟩
def PRS_GMEM_ADDR_MEM (i : Nat) : Fld := ⟨PRS_GMEM_ADDR i, 12, 2⟩
def PRS_GMEM_ADDR_BCAST (i : Nat) : Fld := ⟨PRS_GMEM_ADDR i, 14, 1⟩
def PRS_GMEM_CMD (i : Nat) : Nat := 0x700104 + 0x1000 * i
def PRS_GMEM_STAT (i : Nat) : Nat := 0x700108 + 0x1000 * i
def PRS_GMEM_STAT_ORPHAN (i : Nat) : Fld := ⟨PRS_GMEM_STAT i, 0, 1⟩
def PRS_GMEM_STAT_RANGE (i : Nat) : Fld := ⟨PRS_GMEM_STAT i, 1, 1⟩
def PRS_GMEM_DATA (i : Nat) (j : Nat) : Nat := 0x700110 + 0x1000 * i + 0x4 * j
def PRS_CNT_DEPTH (i : Nat) : Nat := 0x700180 + 0x1000 * i
def PRS_CNT_DEPTH_DEPTH (i : Nat) : Fld := ⟨PRS_CNT_DEPTH i, 0, 32⟩
def PRS_CNT_SHORT (i : Nat) : Nat := 0x700184 + 0x1000 * i
def PRS_CNT_SHORT_SHORT (i : Nat) : Fld := ⟨PRS_CNT_SHORT i, 0, 32⟩
def PRS_CNT_LONG (i : Nat) : Nat := 0x700188 + 0x1000 * i
def PRS_CNT_LONG_LONG (i : Nat) : Fld := ⟨PRS_CNT_LONG i, 0, 32⟩
def PRS_CNT_NOTR (i : Nat) : Nat := 0x70018C + 0x1000 * i
def PRS_CNT_NOTR_NOTR (i : Nat) : Fld := ⟨PRS_CNT_NOTR i, 0, 32⟩
def PRS_CNT_DEFT (i : Nat) : Nat := 0x700190 + 0x1000 * i
def PRS_CNT_DEFT_DEFT (i : Nat) : Fld := ⟨PRS_CNT_DEFT i, 0, 32⟩
def PRS_CNT_PDENY (i : Nat) : Nat := 0x700194 + 0x1000 * i
def PRS_CNT_PDENY_PDENY (i : Nat) : Fld := ⟨PRS_CNT_PDENY i, 0, 32⟩
def PRS_CNT_PAD (i : Nat) : Nat := 0x700198 + 0x1000 * i
def PRS_CNT_PAD_PAD (i : Nat) : Fld := ⟨PRS_CNT_PAD i, 0, 32⟩
def PRS_CNT_ECC_COR (i : Nat) : Nat := 0x70019C + 0x1000 * i
def PRS_CNT_ECC_COR_ECC_COR (i : Nat) : Fld := ⟨PRS_CNT_ECC_COR i, 0, 32⟩
def PRS_PORT_CFG (i : Nat) (j : Nat) : Nat := 0x700800 + 0x1000 * i + 0x20 * j
def PRS_PORT_CFG_START (i : Nat) (j : Nat) : Fld := ⟨PRS_PORT_CFG i j, 0, 8⟩
def PRS_PORT_CFG_DA_DEPTH (i : Nat) (j : Nat) : Fld := ⟨PRS_PORT_CFG i j, 8, 1⟩
def PRS_PORT_CFG_DA_SHORT (i : Nat) (j : Nat) : Fld := ⟨PRS_PORT_CFG i j, 9, 1⟩
def PRS_PORT_CFG_DA_LONG (i : Nat) (j : Nat) : Fld := ⟨PRS_PORT_CFG i j, 10, 1⟩
def PRS_PORT_CFG_DA_NOTR (i : Nat) (j : Nat) : Fld := ⟨PRS_PORT_CFG i j, 11, 1⟩
def PRS_PORT_CFG_DA_DEFT (i : Nat) (j : Nat) : Fld := ⟨PRS_PORT_CFG i j, 12, 1⟩
def PRS_PORT_CFG_PAT_EN (i : Nat) (j : Nat) : Fld := ⟨PRS_PORT_CFG i j, 13, 1⟩
def WKS_STAT (i : Nat) : Nat := 0x600080 + 0x1000 * i
def WKS_STAT_STATE (i : Nat) : Fld := ⟨WKS_STAT i, 0, 2⟩
def WKS_STEAL_CFG (i : Nat) : Nat := 0x600084 + 0x1000 * i
def WKS_STEAL_CFG_STEAL_MIN (i : Nat) : Fld := ⟨WKS_STEAL_CFG i, 0, 8⟩
def WKS_WDOG (i : Nat) : Nat := 0x600088 + 0x1000 * i
def WKS_WDOG_MAX_ISSUE (i : Nat) : Fld := ⟨WKS_WDOG i, 0, 16⟩
def WKS_ISSUE_LO (i : Nat) : Nat := 0x600100 + 0x1000 * i
def WKS_ISSUE_HI (i : Nat) : Nat := 0x600104 + 0x1000 * i
def WKS_PASS_LO (i : Nat) : Nat := 0x600108 + 0x1000 * i
def WKS_PASS_HI (i : Nat) : Nat := 0x60010C + 0x1000 * i
def WKS_IDLE_LO (i : Nat) : Nat := 0x600110 + 0x1000 * i
def WKS_IDLE_HI (i : Nat) : Nat := 0x600114 + 0x1000 * i
def WKS_STOLEN (i : Nat) : Nat := 0x600118 + 0x1000 * i
def WKS_STOLEN_STOLEN (i : Nat) : Fld := ⟨WKS_STOLEN i, 0, 32⟩
def WKS_WDOG_CNT (i : Nat) : Nat := 0x60011C + 0x1000 * i
def WKS_WDOG_CNT_WDOG_CNT (i : Nat) : Fld := ⟨WKS_WDOG_CNT i, 0, 32⟩
def WKS_RERUN (i : Nat) : Nat := 0x600120 + 0x1000 * i
def WKS_RERUN_RERUN (i : Nat) : Fld := ⟨WKS_RERUN i, 0, 32⟩
def WKS_ORD_NEXT (i : Nat) : Nat := 0x600404 + 0x4000 * i
def WKS_ORD_NEXT_I_NEXT (i : Nat) : Fld := ⟨WKS_ORD_NEXT i, 0, 16⟩
def WKS_ORD_NEXT_E_NEXT (i : Nat) : Fld := ⟨WKS_ORD_NEXT i, 16, 16⟩
def WKS_I_SKIPS (i : Nat) : Nat := 0x60040C + 0x4000 * i
def WKS_I_SKIPS_I_SKIPS (i : Nat) : Fld := ⟨WKS_I_SKIPS i, 0, 32⟩
def WKS_I_LATE (i : Nat) : Nat := 0x600410 + 0x4000 * i
def WKS_I_LATE_I_LATE (i : Nat) : Fld := ⟨WKS_I_LATE i, 0, 32⟩
def WKS_I_FULL (i : Nat) : Nat := 0x600414 + 0x4000 * i
def WKS_I_FULL_I_FULL (i : Nat) : Fld := ⟨WKS_I_FULL i, 0, 32⟩
def WKS_E_SKIPS (i : Nat) : Nat := 0x600418 + 0x4000 * i
def WKS_E_SKIPS_E_SKIPS (i : Nat) : Fld := ⟨WKS_E_SKIPS i, 0, 32⟩
def WKS_E_LATE (i : Nat) : Nat := 0x60041C + 0x4000 * i
def WKS_E_LATE_E_LATE (i : Nat) : Fld := ⟨WKS_E_LATE i, 0, 32⟩
def WKS_E_FULL (i : Nat) : Nat := 0x600420 + 0x4000 * i
def WKS_E_FULL_E_FULL (i : Nat) : Fld := ⟨WKS_E_FULL i, 0, 32⟩
def WKS_STEAL_OUT (i : Nat) : Nat := 0x600424 + 0x4000 * i
def WKS_STEAL_OUT_STEAL_OUT (i : Nat) : Fld := ⟨WKS_STEAL_OUT i, 0, 32⟩
def CST_CMD : Nat := 0x500080
def CST_STAT : Nat := 0x500084
def CST_STAT_STATE : Fld := ⟨CST_STAT, 0, 3⟩
def CST_STAT_CMD_ERR : Fld := ⟨CST_STAT, 3, 1⟩
def CST_STAT_RESULT : Fld := ⟨CST_STAT, 4, 4⟩
def CST_STAT_RUN_BUF : Fld := ⟨CST_STAT, 8, 1⟩
def CST_SRC_LO : Nat := 0x500088
def CST_SRC_LEN : Nat := 0x500090
def CST_SRC_LEN_LEN : Fld := ⟨CST_SRC_LEN, 0, 24⟩
def CST_SRC_LEN_FLASH : Fld := ⟨CST_SRC_LEN, 24, 1⟩
def CST_PATCH_CFG : Nat := 0x500094
def CST_PATCH_CFG_PAR : Fld := ⟨CST_PATCH_CFG, 0, 3⟩
def CST_RUN_VER : Nat := 0x500098
def CST_RUN_VER_VERSION : Fld := ⟨CST_RUN_VER, 0, 32⟩
def CST_RUN_FMT : Nat := 0x50009C
def CST_RUN_FMT_IFMT : Fld := ⟨CST_RUN_FMT, 0, 16⟩
def CST_RUN_ENTRY : Nat := 0x5000A0
def CST_RUN_ENTRY_IENTRY : Fld := ⟨CST_RUN_ENTRY, 0, 13⟩
def CST_RUN_ENTRY_EENTRY : Fld := ⟨CST_RUN_ENTRY, 16, 13⟩
def CST_NEW_VER : Nat := 0x5000A4
def CST_NEW_VER_VERSION : Fld := ⟨CST_NEW_VER, 0, 32⟩
def CST_ECC_CNT : Nat := 0x5000A8
def CST_ECC_CNT_COR : Fld := ⟨CST_ECC_CNT, 0, 16⟩
def CST_ECC_CNT_UNCOR : Fld := ⟨CST_ECC_CNT, 16, 16⟩
def CST_UWERR : Nat := 0x5000AC
def CST_UWERR_COUNT : Fld := ⟨CST_UWERR, 0, 32⟩
def CST_UWERR_LAST : Nat := 0x5000B0
def CST_UWERR_LAST_ADDR : Fld := ⟨CST_UWERR_LAST, 0, 13⟩
def CST_UWERR_LAST_WKS : Fld := ⟨CST_UWERR_LAST, 16, 6⟩
def CST_UWERR_LAST_CAUSE : Fld := ⟨CST_UWERR_LAST, 22, 4⟩
def CST_DBG_ADDR : Nat := 0x5000B4
def CST_DBG_ADDR_ADDR : Fld := ⟨CST_DBG_ADDR, 0, 13⟩
def CST_DBG_ADDR_WKS : Fld := ⟨CST_DBG_ADDR, 16, 6⟩
def CST_DBG_ADDR_SRC : Fld := ⟨CST_DBG_ADDR, 22, 1⟩
def CST_DBG_ADDR_BUF : Fld := ⟨CST_DBG_ADDR, 23, 1⟩
def CST_DBG_DATA (i : Nat) : Nat := 0x5000C0 + 0x4 * i
def CST_WVER (i : Nat) : Nat := 0x500400 + 0x4 * i
def XMT_STAT : Nat := 0x430080
def XMT_LRN_CFG : Nat := 0x430084
def XMT_LRN_CFG_CRING : Fld := ⟨XMT_LRN_CFG, 0, 11⟩
def XMT_LRN_CFG_NOTIFY : Fld := ⟨XMT_LRN_CFG, 11, 1⟩
def XMT_LRN_CFG_WIN_US : Fld := ⟨XMT_LRN_CFG, 16, 4⟩
def XMT_PLACE_CFG : Nat := 0x430088
def XMT_PLACE_CFG_HOT_PCT : Fld := ⟨XMT_PLACE_CFG, 0, 7⟩
def XMT_PLACE_CFG_COLD_PCT : Fld := ⟨XMT_PLACE_CFG, 8, 7⟩
def XMT_PLACE_CFG_DEMOTE_MS : Fld := ⟨XMT_PLACE_CFG, 16, 16⟩
def XMT_PLACE_STAT : Nat := 0x43008C
def XMT_PLACE_STAT_FREE_EXT : Fld := ⟨XMT_PLACE_STAT, 0, 12⟩
def XMT_PLACE_STAT_REPL_EXT : Fld := ⟨XMT_PLACE_STAT, 16, 12⟩
def XMT_JOB_ADDR_LO : Nat := 0x430090
def XMT_JOB_ADDR_LO_ADDR : Fld := ⟨XMT_JOB_ADDR_LO, 0, 32⟩
def XMT_JOB_ADDR_HI : Nat := 0x430094
def XMT_JOB_ADDR_HI_ADDR : Fld := ⟨XMT_JOB_ADDR_HI, 0, 32⟩
def XMT_JOB_CMD : Nat := 0x430098
def XMT_JOB_STAT : Nat := 0x43009C
def XMT_JOB_STAT_RUNNING : Fld := ⟨XMT_JOB_STAT, 0, 1⟩
def XMT_JOB_STAT_REJ : Fld := ⟨XMT_JOB_STAT, 1, 3⟩
def XMT_JOB_STAT_RESULT : Fld := ⟨XMT_JOB_STAT, 4, 4⟩
def XMT_JOB_STAT_DONE : Fld := ⟨XMT_JOB_STAT, 16, 16⟩
def XMT_ASY_CFG : Nat := 0x4300A0
def XMT_ASY_CFG_EN : Fld := ⟨XMT_ASY_CFG, 0, 1⟩
def XMT_ASY_CFG_REPAIR : Fld := ⟨XMT_ASY_CFG, 1, 1⟩
def XMT_ASY_STAT : Nat := 0x4300A4
def XMT_ASY_STAT_TID : Fld := ⟨XMT_ASY_STAT, 0, 8⟩
def XMT_ASY_STAT_ACTIVE : Fld := ⟨XMT_ASY_STAT, 8, 1⟩
def XMT_ASY_STAT_PASSES : Fld := ⟨XMT_ASY_STAT, 16, 16⟩
def XMT_MISSING : Nat := 0x4300A8
def XMT_MISSING_MISSING : Fld := ⟨XMT_MISSING, 0, 32⟩
def XMT_DIFFERENT : Nat := 0x4300AC
def XMT_DIFFERENT_DIFFERENT : Fld := ⟨XMT_DIFFERENT, 0, 32⟩
def XMT_EXTRA : Nat := 0x4300B0
def XMT_EXTRA_EXTRA : Fld := ⟨XMT_EXTRA, 0, 32⟩
def XMT_REPAIRED : Nat := 0x4300B4
def XMT_REPAIRED_REPAIRED : Fld := ⟨XMT_REPAIRED, 0, 32⟩
def XMT_ECC_CNT : Nat := 0x4300B8
def XMT_ECC_CNT_COR : Fld := ⟨XMT_ECC_CNT, 0, 16⟩
def XMT_ECC_CNT_UNCOR : Fld := ⟨XMT_ECC_CNT, 16, 16⟩
def XMT_PERR_CNT : Nat := 0x4300BC
def XMT_PERR_CNT_PERR_CNT : Fld := ⟨XMT_PERR_CNT, 0, 32⟩
def XMT_TBL_CFG (i : Nat) (j : Nat) : Nat := 0x431800 + 0x1000 * i + 0x40 * j
def XMT_TBL_CFG_EN (i : Nat) (j : Nat) : Fld := ⟨XMT_TBL_CFG i j, 0, 1⟩
def XMT_TBL_CFG_CLASS (i : Nat) (j : Nat) : Fld := ⟨XMT_TBL_CFG i j, 1, 1⟩
def XMT_TBL_CFG_FMT (i : Nat) (j : Nat) : Fld := ⟨XMT_TBL_CFG i j, 2, 1⟩
def XMT_TBL_CFG_KLEN (i : Nat) (j : Nat) : Fld := ⟨XMT_TBL_CFG i j, 3, 6⟩
def XMT_TBL_CFG_LRN_EN (i : Nat) (j : Nat) : Fld := ⟨XMT_TBL_CFG i j, 9, 1⟩
def XMT_TBL_CFG_EXT_EN (i : Nat) (j : Nat) : Fld := ⟨XMT_TBL_CFG i j, 10, 1⟩
def XMT_TBL_CFG_PERR_ACT (i : Nat) (j : Nat) : Fld := ⟨XMT_TBL_CFG i j, 11, 1⟩
def XMT_TBL_CFG_CAPK (i : Nat) (j : Nat) : Fld := ⟨XMT_TBL_CFG i j, 16, 16⟩
def XMT_TBL_SEED0 (i : Nat) (j : Nat) : Nat := 0x431804 + 0x1000 * i + 0x40 * j
def XMT_TBL_SEED1 (i : Nat) (j : Nat) : Nat := 0x431808 + 0x1000 * i + 0x40 * j
def XMT_TBL_LRN (i : Nat) (j : Nat) : Nat := 0x43180C + 0x1000 * i + 0x40 * j
def XMT_TBL_LRN_MOVE_HOLD (i : Nat) (j : Nat) : Fld := ⟨XMT_TBL_LRN i j, 0, 10⟩
def XMT_TBL_SHADOW_LO (i : Nat) (j : Nat) : Nat := 0x431810 + 0x1000 * i + 0x40 * j
def XMT_TBL_SHADOW_CNT (i : Nat) (j : Nat) : Nat := 0x431818 + 0x1000 * i + 0x40 * j
def XMT_TBL_SHADOW_CNT_COUNT (i : Nat) (j : Nat) : Fld := ⟨XMT_TBL_SHADOW_CNT i j, 0, 29⟩
def XMT_TBL_STAT (i : Nat) (j : Nat) : Nat := 0x43181C + 0x1000 * i + 0x40 * j
def XMT_TBL_STAT_LOCK (i : Nat) (j : Nat) : Fld := ⟨XMT_TBL_STAT i j, 0, 1⟩
def XMT_TBL_STAT_RHREQ (i : Nat) (j : Nat) : Fld := ⟨XMT_TBL_STAT i j, 1, 1⟩
def XMT_TBL_STAT_SEED_ERR (i : Nat) (j : Nat) : Fld := ⟨XMT_TBL_STAT i j, 2, 1⟩
def XMT_TBL_STAT_CFG_ERR (i : Nat) (j : Nat) : Fld := ⟨XMT_TBL_STAT i j, 3, 1⟩
def XMT_TBL_STAT_CAP_ERR (i : Nat) (j : Nat) : Fld := ⟨XMT_TBL_STAT i j, 4, 1⟩
def XMT_TBL_LEARNS (i : Nat) (j : Nat) : Nat := 0x431828 + 0x1000 * i + 0x40 * j
def XMT_TBL_LEARNS_LEARNS (i : Nat) (j : Nat) : Fld := ⟨XMT_TBL_LEARNS i j, 0, 32⟩
def XMT_TBL_MOVES (i : Nat) (j : Nat) : Nat := 0x43182C + 0x1000 * i + 0x40 * j
def XMT_TBL_MOVES_MOVES (i : Nat) (j : Nat) : Fld := ⟨XMT_TBL_MOVES i j, 0, 32⟩
def XMT_TBL_FLAPS (i : Nat) (j : Nat) : Nat := 0x431830 + 0x1000 * i + 0x40 * j
def XMT_TBL_FLAPS_FLAPS (i : Nat) (j : Nat) : Fld := ⟨XMT_TBL_FLAPS i j, 0, 32⟩
def XMT_TBL_LFAIL (i : Nat) (j : Nat) : Nat := 0x431834 + 0x1000 * i + 0x40 * j
def XMT_TBL_LFAIL_LFAIL (i : Nat) (j : Nat) : Fld := ⟨XMT_TBL_LFAIL i j, 0, 32⟩
def LPM_CAP : Nat := 0x420080
def LPM_CAP_V4_K : Fld := ⟨LPM_CAP, 0, 16⟩
def LPM_CAP_V6_K : Fld := ⟨LPM_CAP, 16, 16⟩
def LPM_EXT_CFG : Nat := 0x420084
def LPM_EXT_CFG_EXT_EN : Fld := ⟨LPM_EXT_CFG, 0, 1⟩
def LPM_EXT_CFG_DEMOTE_PCT : Fld := ⟨LPM_EXT_CFG, 8, 7⟩
def LPM_EXT_CFG_PROMOTE_PCT : Fld := ⟨LPM_EXT_CFG, 16, 7⟩
def LPM_STAT : Nat := 0x420088
def LPM_STAT_CAP_ERR : Fld := ⟨LPM_STAT, 0, 1⟩
def LPM_V4_CNT : Nat := 0x42008C
def LPM_V6_CNT : Nat := 0x420090
def LPM_EXT_CNT : Nat := 0x420094
def LPM_JOB_ADDR_LO : Nat := 0x420098
def LPM_JOB_ADDR_HI : Nat := 0x42009C
def LPM_JOB_CMD : Nat := 0x4200A0
def LPM_JOB_STAT : Nat := 0x4200A4
def LPM_ECC_CNT : Nat := 0x4200A8
def LPM_ECC_CNT_COR : Fld := ⟨LPM_ECC_CNT, 0, 16⟩
def LPM_ECC_CNT_UNCOR : Fld := ⟨LPM_ECC_CNT, 16, 16⟩
def LPM_EXT_MOVES : Nat := 0x4200AC
def LPM_EXT_MOVES_DEMOTED : Fld := ⟨LPM_EXT_MOVES, 0, 16⟩
def LPM_EXT_MOVES_PROMOTED : Fld := ⟨LPM_EXT_MOVES, 16, 16⟩
def OBJ_CAP : Nat := 0x410080
def OBJ_CAP_NH_K : Fld := ⟨OBJ_CAP, 0, 16⟩
def OBJ_CAP_ENC_K : Fld := ⟨OBJ_CAP, 16, 16⟩
def OBJ_ECMP_SEED : Nat := 0x410084
def OBJ_STAT : Nat := 0x410088
def OBJ_STAT_CAP_ERR : Fld := ⟨OBJ_STAT, 0, 1⟩
def OBJ_COPY_FREE : Nat := 0x41008C
def OBJ_POOL_FREE : Nat := 0x410090
def OBJ_REPL_FREE : Nat := 0x410094
def OBJ_JOB_ADDR_LO : Nat := 0x410098
def OBJ_JOB_ADDR_HI : Nat := 0x41009C
def OBJ_JOB_CMD : Nat := 0x4100A0
def OBJ_JOB_STAT : Nat := 0x4100A4
def OBJ_ECC_CNT : Nat := 0x4100A8
def OBJ_ECC_CNT_COR : Fld := ⟨OBJ_ECC_CNT, 0, 16⟩
def OBJ_ECC_CNT_UNCOR : Fld := ⟨OBJ_ECC_CNT, 16, 16⟩
def OBJ_MC_DOWN : Nat := 0x4100B0
def OBJ_MC_DOWN_MC_DOWN : Fld := ⟨OBJ_MC_DOWN, 0, 32⟩
def OBJ_MC_REFUSED : Nat := 0x4100B4
def OBJ_MC_REFUSED_MC_REFUSED : Fld := ⟨OBJ_MC_REFUSED, 0, 32⟩
def OBJ_MC_EMPTY : Nat := 0x4100B8
def OBJ_MC_EMPTY_MC_EMPTY : Fld := ⟨OBJ_MC_EMPTY, 0, 32⟩
def OBJ_MC_SKIPPED : Nat := 0x4100BC
def OBJ_MC_SKIPPED_MC_SKIPPED : Fld := ⟨OBJ_MC_SKIPPED, 0, 32⟩
def ACS_STAT (i : Nat) : Nat := 0x400080 + 0x1000 * i
def ACS_STAT_FREE_BLK (i : Nat) : Fld := ⟨ACS_STAT i, 0, 8⟩
def ACS_STAT_SCRUB_ACT (i : Nat) : Fld := ⟨ACS_STAT i, 8, 1⟩
def ACS_SRCH_LO (i : Nat) : Nat := 0x400084 + 0x1000 * i
def ACS_SRCH_HI (i : Nat) : Nat := 0x400088 + 0x1000 * i
def ACS_BLK_LO (i : Nat) : Nat := 0x40008C + 0x1000 * i
def ACS_BLK_HI (i : Nat) : Nat := 0x400090 + 0x1000 * i
def ACS_FALSE_HIT (i : Nat) : Nat := 0x400094 + 0x1000 * i
def ACS_FALSE_HIT_FALSE_HIT (i : Nat) : Fld := ⟨ACS_FALSE_HIT i, 0, 32⟩
def ACS_SCRUB_FIX (i : Nat) : Nat := 0x400098 + 0x1000 * i
def ACS_SCRUB_FIX_SCRUB_FIX (i : Nat) : Fld := ⟨ACS_SCRUB_FIX i, 0, 32⟩
def ACS_ECC_CNT (i : Nat) : Nat := 0x40009C + 0x1000 * i
def ACS_ECC_CNT_COR (i : Nat) : Fld := ⟨ACS_ECC_CNT i, 0, 16⟩
def ACS_ECC_CNT_UNCOR (i : Nat) : Fld := ⟨ACS_ECC_CNT i, 16, 16⟩
def ACS_SCRUB_CFG : Nat := 0x400100
def ACS_SCRUB_CFG_EN : Fld := ⟨ACS_SCRUB_CFG, 0, 1⟩
def ACS_JOB_ADDR_LO : Nat := 0x400104
def ACS_JOB_ADDR_HI : Nat := 0x400108
def ACS_JOB_CMD : Nat := 0x40010C
def ACS_JOB_STAT : Nat := 0x400110
def ACS_CFG_STAT : Nat := 0x400114
def ACS_CFG_STAT_CAP_ERR : Fld := ⟨ACS_CFG_STAT, 0, 1⟩
def ACS_CFG_STAT_PROF_ERR : Fld := ⟨ACS_CFG_STAT, 1, 1⟩
def ACS_PROF (i : Nat) : Nat := 0x400400 + 0x4 * i
def ACS_PROF_EN (i : Nat) : Fld := ⟨ACS_PROF i, 0, 1⟩
def ACS_PROF_WIDTH (i : Nat) : Fld := ⟨ACS_PROF i, 1, 2⟩
def ACS_PROF_LIST0 (i : Nat) : Fld := ⟨ACS_PROF i, 3, 6⟩
def ACS_PROF_L0_EN (i : Nat) : Fld := ⟨ACS_PROF i, 9, 1⟩
def ACS_PROF_LIST1 (i : Nat) : Fld := ⟨ACS_PROF i, 10, 6⟩
def ACS_PROF_L1_EN (i : Nat) : Fld := ⟨ACS_PROF i, 16, 1⟩
def ACS_PROF_LIST2 (i : Nat) : Fld := ⟨ACS_PROF i, 17, 6⟩
def ACS_PROF_L2_EN (i : Nat) : Fld := ⟨ACS_PROF i, 23, 1⟩
def ACS_LIST_CFG (i : Nat) : Nat := 0x400800 + 0x8 * i
def ACS_LIST_CFG_EN (i : Nat) : Fld := ⟨ACS_LIST_CFG i, 0, 1⟩
def ACS_LIST_CFG_WIDTH (i : Nat) : Fld := ⟨ACS_LIST_CFG i, 1, 2⟩
def ACS_LIST_CFG_DUAL (i : Nat) : Fld := ⟨ACS_LIST_CFG i, 3, 1⟩
def ACS_LIST_CFG_CLASS_EN (i : Nat) : Fld := ⟨ACS_LIST_CFG i, 4, 1⟩
def ACS_LIST_CFG_DENY_EN (i : Nat) : Fld := ⟨ACS_LIST_CFG i, 5, 1⟩
def ACS_LIST_CFG_BLOCKS (i : Nat) : Fld := ⟨ACS_LIST_CFG i, 16, 8⟩
def LDG_COMMIT_TIMEOUT : Nat := 0x10240
def LDG_COMMIT_TIMEOUT_TIMEOUT_US : Fld := ⟨LDG_COMMIT_TIMEOUT, 0, 24⟩
def LDG_EPOCH : Nat := 0x10244
def LDG_EPOCH_EPOCH : Fld := ⟨LDG_EPOCH, 0, 32⟩
def LDG_VER_STAT : Nat := 0x10248
def LDG_SLOT_CMD : Nat := 0x1024C
def LDG_SLOT_CMD_STAT : Nat := 0x10250
def LDG_SLOT_CMD_STAT_RESULT : Fld := ⟨LDG_SLOT_CMD_STAT, 0, 3⟩
def LDG_SLOT_CMD_STAT_SLOT : Fld := ⟨LDG_SLOT_CMD_STAT, 3, 4⟩
def LDG_RETIRE_DROPS : Nat := 0x10254
def LDG_RETIRE_DROPS_RETIRE_DROPS : Fld := ⟨LDG_RETIRE_DROPS, 0, 32⟩
def LDG_RETIRE_CNT : Nat := 0x10258
def LDG_RETIRE_CNT_RETIRES : Fld := ⟨LDG_RETIRE_CNT, 0, 16⟩
def LDG_RETIRE_CNT_TIMEOUTS : Fld := ⟨LDG_RETIRE_CNT, 16, 16⟩
def LDG_SLOT_WAITS : Nat := 0x1025C
def LDG_SLOT_WAITS_SLOT_WAITS : Fld := ⟨LDG_SLOT_WAITS, 0, 32⟩
def LDG_SLOT_EPOCH (i : Nat) : Nat := 0x10400 + 0x10 * i
def LDG_SLOT_EPOCH_EPOCH (i : Nat) : Fld := ⟨LDG_SLOT_EPOCH i, 0, 32⟩
def LDG_SLOT_STAT (i : Nat) : Nat := 0x10404 + 0x10 * i
def LDG_SLOT_STAT_STATE (i : Nat) : Fld := ⟨LDG_SLOT_STAT i, 0, 3⟩
def LDG_SLOT_STAT_GEN (i : Nat) : Fld := ⟨LDG_SLOT_STAT i, 3, 1⟩
def LDG_SLOT_PRE (i : Nat) : Nat := 0x10408 + 0x10 * i
def LDG_SLOT_PRE_COUNT (i : Nat) : Fld := ⟨LDG_SLOT_PRE i, 0, 32⟩
def LDG_SLOT_POST (i : Nat) : Nat := 0x1040C + 0x10 * i
def LDG_SLOT_POST_COUNT (i : Nat) : Fld := ⟨LDG_SLOT_POST i, 0, 32⟩
def LDG_SLOT_RPRE (i : Nat) : Nat := 0x10500 + 0x4 * i
def LDG_SLOT_RPRE_RPRE (i : Nat) : Fld := ⟨LDG_SLOT_RPRE i, 0, 32⟩
def LDG_CC_CFG : Nat := 0x10600
def LDG_CC_CFG_ROLE : Fld := ⟨LDG_CC_CFG, 0, 2⟩
def LDG_CC_CFG_LEAD_US : Fld := ⟨LDG_CC_CFG, 16, 16⟩
def LDG_CC_PREP_TO : Nat := 0x10604
def LDG_CC_PREP_TO_TIMEOUT_US : Fld := ⟨LDG_CC_PREP_TO, 0, 24⟩
def LDG_CC_CMD : Nat := 0x10608
def LDG_CC_STAT : Nat := 0x1060C
def LDG_CC_STAT_PHASE : Fld := ⟨LDG_CC_STAT, 0, 3⟩
def LDG_CC_STAT_SLOT : Fld := ⟨LDG_CC_STAT, 3, 4⟩
def LDG_CC_STAT_LATE : Fld := ⟨LDG_CC_STAT, 7, 1⟩
def LDG_CC_STAT_RESULT : Fld := ⟨LDG_CC_STAT, 8, 4⟩
def LDG_CC_STAT_REF_DEV : Fld := ⟨LDG_CC_STAT, 12, 11⟩
def LDG_CC_STAT_REF_CAUSE : Fld := ⟨LDG_CC_STAT, 23, 2⟩
def LDG_CC_EPOCH : Nat := 0x10610
def LDG_CC_EPOCH_EPOCH : Fld := ⟨LDG_CC_EPOCH, 0, 32⟩
def LDG_CC_TIME_LO : Nat := 0x10614
def LDG_CC_TIME_LO_TIME : Fld := ⟨LDG_CC_TIME_LO, 0, 32⟩
def LDG_CC_TIME_HI : Nat := 0x10618
def LDG_CC_TIME_HI_TIME : Fld := ⟨LDG_CC_TIME_HI, 0, 32⟩
def LDG_CC_MASK (i : Nat) : Nat := 0x10700 + 0x4 * i
def LDG_CC_MASK_DEV (i : Nat) : Fld := ⟨LDG_CC_MASK i, 0, 32⟩
def BUF_CFG : Nat := 0x200080
def BUF_CFG_UPSIZE : Fld := ⟨BUF_CFG, 0, 3⟩
def BUF_CFG_SPILL_EN : Fld := ⟨BUF_CFG, 3, 1⟩
def BUF_CFG_SPILL_US : Fld := ⟨BUF_CFG, 16, 10⟩
def BUF_SPILL_CFG : Nat := 0x200084
def BUF_SPILL_CFG_RET_KB : Fld := ⟨BUF_SPILL_CFG, 0, 16⟩
def BUF_SPILL_CFG_MINR : Fld := ⟨BUF_SPILL_CFG, 16, 16⟩
def BUF_STAT : Nat := 0x200088
def BUF_STAT_INIT : Fld := ⟨BUF_STAT, 0, 1⟩
def BUF_AUDIT_CFG : Nat := 0x20008C
def BUF_AUDIT_CFG_EN : Fld := ⟨BUF_AUDIT_CFG, 0, 1⟩
def BUF_AUDIT_STAT : Nat := 0x200090
def BUF_AUDIT_STAT_EPOCH : Fld := ⟨BUF_AUDIT_STAT, 0, 12⟩
def BUF_AUDIT_STAT_PASSES : Fld := ⟨BUF_AUDIT_STAT, 16, 16⟩
def BUF_SPILL_STAT : Nat := 0x200094
def BUF_SPILL_STAT_FREE_BLK : Fld := ⟨BUF_SPILL_STAT, 0, 26⟩
def BUF_SPILLED : Nat := 0x200098
def BUF_SPILLED_SPILLED : Fld := ⟨BUF_SPILLED, 0, 32⟩
def BUF_RETURNED : Nat := 0x20009C
def BUF_RETURNED_RETURNED : Fld := ⟨BUF_RETURNED, 0, 32⟩
def BUF_SPILL_FULL : Nat := 0x2000A0
def BUF_SPILL_FULL_SPILL_FULL : Fld := ⟨BUF_SPILL_FULL, 0, 32⟩
def BUF_LEAK_BLK : Nat := 0x2000A4
def BUF_LEAK_BLK_LEAK_BLK : Fld := ⟨BUF_LEAK_BLK, 0, 32⟩
def BUF_DFREE : Nat := 0x2000A8
def BUF_DFREE_DFREE : Fld := ⟨BUF_DFREE, 0, 32⟩
def BUF_HQ_DROPS : Nat := 0x2000AC
def BUF_HQ_DROPS_HQ_DROPS : Fld := ⟨BUF_HQ_DROPS, 0, 32⟩
def BUF_POOL_CFG (i : Nat) : Nat := 0x200100 + 0x20 * i
def BUF_POOL_CFG_COUNT_K (i : Nat) : Fld := ⟨BUF_POOL_CFG i, 0, 12⟩
def BUF_POOL_CFG_GUARD_K (i : Nat) : Fld := ⟨BUF_POOL_CFG i, 16, 12⟩
def BUF_POOL_FREE (i : Nat) : Nat := 0x200104 + 0x20 * i
def BUF_POOL_FREE_FREE (i : Nat) : Fld := ⟨BUF_POOL_FREE i, 0, 22⟩
def BUF_POOL_LWM (i : Nat) : Nat := 0x200108 + 0x20 * i
def BUF_POOL_LWM_LWM (i : Nat) : Fld := ⟨BUF_POOL_LWM i, 0, 22⟩
def BUF_POOL_ARB (i : Nat) : Nat := 0x20010C + 0x20 * i
def BUF_POOL_ARB_POINTER (i : Nat) : Fld := ⟨BUF_POOL_ARB i, 0, 5⟩
def BUF_POOL_WAITS (i : Nat) : Nat := 0x200110 + 0x20 * i
def BUF_POOL_WAITS_WAITS (i : Nat) : Fld := ⟨BUF_POOL_WAITS i, 0, 32⟩
def BUF_POOL_UPSIZED (i : Nat) : Nat := 0x200114 + 0x20 * i
def BUF_POOL_UPSIZED_UPSIZED (i : Nat) : Fld := ⟨BUF_POOL_UPSIZED i, 0, 32⟩
def BUF_POOL_LEAKS (i : Nat) : Nat := 0x200118 + 0x20 * i
def BUF_POOL_LEAKS_LEAKS (i : Nat) : Fld := ⟨BUF_POOL_LEAKS i, 0, 32⟩
def VOQ_GEO : Nat := 0x300080
def VOQ_GEO_QPD : Fld := ⟨VOQ_GEO, 0, 2⟩
def VOQ_AGE : Nat := 0x300084
def VOQ_AGE_AGE_MS : Fld := ⟨VOQ_AGE, 0, 10⟩
def VOQ_MAP_SEL : Nat := 0x30008C
def VOQ_MAP_SEL_INDEX : Fld := ⟨VOQ_MAP_SEL, 0, 17⟩
def VOQ_MAP_SEL_TBL : Fld := ⟨VOQ_MAP_SEL, 17, 1⟩
def VOQ_MAP_DATA : Nat := 0x300090
def VOQ_MAP_CMD : Nat := 0x300094
def VOQ_MAP_STAT : Nat := 0x300098
def VOQ_MAP_STAT_RESULT : Fld := ⟨VOQ_MAP_STAT, 0, 3⟩
def VOQ_DEPTH_SEL : Nat := 0x30009C
def VOQ_DEPTH_SEL_VOQID : Fld := ⟨VOQ_DEPTH_SEL, 0, 17⟩
def VOQ_DEPTH_LO : Nat := 0x3000A0
def VOQ_DEPTH_HI : Nat := 0x3000A4
def VOQ_SPILL_LO : Nat := 0x3000A8
def VOQ_SPILL_HI : Nat := 0x3000AC
def VOQ_DROP_LIM : Nat := 0x3000B0
def VOQ_DROP_LIM_DROP_LIM : Fld := ⟨VOQ_DROP_LIM, 0, 32⟩
def VOQ_INVALID : Nat := 0x3000B4
def VOQ_INVALID_INVALID : Fld := ⟨VOQ_INVALID, 0, 32⟩
def VOQ_DROP_AGE : Nat := 0x3000B8
def VOQ_DROP_AGE_DROP_AGE : Fld := ⟨VOQ_DROP_AGE, 0, 32⟩
def VOQ_DROP_PARK : Nat := 0x3000BC
def VOQ_DROP_PARK_DROP_PARK : Fld := ⟨VOQ_DROP_PARK, 0, 32⟩
def VOQ_CT_MARKED : Nat := 0x3000C0
def VOQ_CT_MARKED_CT_MARKED : Fld := ⟨VOQ_CT_MARKED, 0, 32⟩
def VOQ_PROF_LIM (i : Nat) (j : Nat) : Nat := 0x300200 + 0x10 * i + 0x4 * j
def VOQ_PROF_LIM_LIM (i : Nat) (j : Nat) : Fld := ⟨VOQ_PROF_LIM i j, 0, 24⟩
def HBC_CFG (i : Nat) : Nat := 0xC0080 + 0x1000 * i
def HBC_CFG_PD_EN (i : Nat) : Fld := ⟨HBC_CFG i, 0, 1⟩
def HBC_CFG_POSTPONE (i : Nat) : Fld := ⟨HBC_CFG i, 4, 4⟩
def HBC_CFG_PD_TIMER (i : Nat) : Fld := ⟨HBC_CFG i, 16, 12⟩
def HBC_ARB (i : Nat) : Nat := 0xC0084 + 0x1000 * i
def HBC_ARB_X_RES (i : Nat) : Fld := ⟨HBC_ARB i, 0, 12⟩
def HBC_ARB_C_RES (i : Nat) : Fld := ⟨HBC_ARB i, 12, 12⟩
def HBC_ARB_D_MAX (i : Nat) : Fld := ⟨HBC_ARB i, 24, 8⟩
def HBC_SCRUB (i : Nat) : Nat := 0xC0088 + 0x1000 * i
def HBC_SCRUB_EN (i : Nat) : Fld := ⟨HBC_SCRUB i, 0, 1⟩
def HBC_CMD (i : Nat) : Nat := 0xC008C + 0x1000 * i
def HBC_STAT (i : Nat) : Nat := 0xC0090 + 0x1000 * i
def HBC_STAT_STATE (i : Nat) : Fld := ⟨HBC_STAT i, 0, 3⟩
def HBC_STAT_PREDICT (i : Nat) : Fld := ⟨HBC_STAT i, 3, 1⟩
def HBC_STAT_RESULT (i : Nat) : Fld := ⟨HBC_STAT i, 4, 4⟩
def HBC_STAT_CMD_ERR (i : Nat) : Fld := ⟨HBC_STAT i, 8, 1⟩
def HBC_STAT_PC_FAILED (i : Nat) : Fld := ⟨HBC_STAT i, 16, 7⟩
def HBC_PC_FAIL_LO (i : Nat) : Nat := 0xC0094 + 0x1000 * i
def HBC_PC_FAIL_LO_FAIL (i : Nat) : Fld := ⟨HBC_PC_FAIL_LO i, 0, 32⟩
def HBC_PC_FAIL_HI (i : Nat) : Nat := 0xC0098 + 0x1000 * i
def HBC_PC_FAIL_HI_FAIL (i : Nat) : Fld := ⟨HBC_PC_FAIL_HI i, 0, 32⟩
def HBC_TEMP (i : Nat) : Nat := 0xC009C + 0x1000 * i
def HBC_TEMP_TEMP (i : Nat) : Fld := ⟨HBC_TEMP i, 0, 8⟩
def HBC_TEMP_PEAK (i : Nat) : Fld := ⟨HBC_TEMP i, 8, 8⟩
def HBC_TEMP_HOT (i : Nat) : Fld := ⟨HBC_TEMP i, 16, 1⟩
def HBC_REF_STAT (i : Nat) : Nat := 0xC00A0 + 0x1000 * i
def HBC_REF_STAT_FORCED (i : Nat) : Fld := ⟨HBC_REF_STAT i, 16, 16⟩
def HBC_ECC_COR (i : Nat) : Nat := 0xC00A4 + 0x1000 * i
def HBC_ECC_COR_ECC_COR (i : Nat) : Fld := ⟨HBC_ECC_COR i, 0, 32⟩
def HBC_ECC_UNCOR (i : Nat) : Nat := 0xC00A8 + 0x1000 * i
def HBC_ECC_UNCOR_ECC_UNCOR (i : Nat) : Fld := ⟨HBC_ECC_UNCOR i, 0, 32⟩
def HBC_ERR_ADDR_LO (i : Nat) : Nat := 0xC00AC + 0x1000 * i
def HBC_ERR_ADDR_LO_ERR_ADDR_LO (i : Nat) : Fld := ⟨HBC_ERR_ADDR_LO i, 0, 32⟩
def HBC_ERR_ADDR_HI (i : Nat) : Nat := 0xC00B0 + 0x1000 * i
def HBC_ERR_ADDR_HI_ERR_ADDR_HI (i : Nat) : Fld := ⟨HBC_ERR_ADDR_HI i, 0, 6⟩
def HBC_LANES (i : Nat) : Nat := 0xC00B4 + 0x1000 * i
def HBC_LANES_LANES (i : Nat) : Fld := ⟨HBC_LANES i, 0, 8⟩
def HBC_P_LO (i : Nat) : Nat := 0xC00C0 + 0x1000 * i
def HBC_P_LO_P_LO (i : Nat) : Fld := ⟨HBC_P_LO i, 0, 32⟩
def HBC_P_HI (i : Nat) : Nat := 0xC00C4 + 0x1000 * i
def HBC_P_HI_P_HI (i : Nat) : Fld := ⟨HBC_P_HI i, 0, 32⟩
def HBC_X_LO (i : Nat) : Nat := 0xC00C8 + 0x1000 * i
def HBC_X_LO_X_LO (i : Nat) : Fld := ⟨HBC_X_LO i, 0, 32⟩
def HBC_X_HI (i : Nat) : Nat := 0xC00CC + 0x1000 * i
def HBC_X_HI_X_HI (i : Nat) : Fld := ⟨HBC_X_HI i, 0, 32⟩
def HBC_C_LO (i : Nat) : Nat := 0xC00D0 + 0x1000 * i
def HBC_C_LO_C_LO (i : Nat) : Fld := ⟨HBC_C_LO i, 0, 32⟩
def HBC_C_HI (i : Nat) : Nat := 0xC00D4 + 0x1000 * i
def HBC_C_HI_C_HI (i : Nat) : Fld := ⟨HBC_C_HI i, 0, 32⟩
def HBC_D_LO (i : Nat) : Nat := 0xC00D8 + 0x1000 * i
def HBC_D_LO_D_LO (i : Nat) : Fld := ⟨HBC_D_LO i, 0, 32⟩
def HBC_D_HI (i : Nat) : Nat := 0xC00DC + 0x1000 * i
def HBC_D_HI_D_HI (i : Nat) : Fld := ⟨HBC_D_HI i, 0, 32⟩
def HBC_REGION_CFG : Nat := 0xC0100
def HBC_REGION_CFG_CAP_U : Fld := ⟨HBC_REGION_CFG, 0, 8⟩
def HBC_REGION_CFG_STAT_U : Fld := ⟨HBC_REGION_CFG, 8, 8⟩
def HBC_REGION_STAT : Nat := 0xC0104
def HBC_REGION_STAT_FIXED : Fld := ⟨HBC_REGION_STAT, 0, 1⟩
def HBC_REGION_STAT_EXT_U : Fld := ⟨HBC_REGION_STAT, 16, 9⟩
def SCH_CRED_CFG : Nat := 0x100080
def SCH_CRED_CFG_SIZE_KB : Fld := ⟨SCH_CRED_CFG, 0, 5⟩
def SCH_CRED_CFG_SPEEDUP : Fld := ⟨SCH_CRED_CFG, 10, 6⟩
def SCH_INT_RATE : Nat := 0x100084
def SCH_INT_RATE_HOST_G : Fld := ⟨SCH_INT_RATE, 0, 10⟩
def SCH_INT_RATE_RECIRC_G : Fld := ⟨SCH_INT_RATE, 11, 10⟩
def SCH_INT_RATE_MC_G : Fld := ⟨SCH_INT_RATE, 21, 11⟩
def SCH_SMP_CFG : Nat := 0x100088
def SCH_SMP_CFG_EN : Fld := ⟨SCH_SMP_CFG, 16, 1⟩
def SCH_SMP_SEL : Nat := 0x10008C
def SCH_SMP_SEL_QUEUE : Fld := ⟨SCH_SMP_SEL, 0, 12⟩
def SCH_POL_SEL : Nat := 0x1000A8
def SCH_POL_SEL_INDEX : Fld := ⟨SCH_POL_SEL, 0, 14⟩
def SCH_POL_SEL_QUARTER : Fld := ⟨SCH_POL_SEL, 14, 2⟩
def SCH_POL_SEL_ALLQ : Fld := ⟨SCH_POL_SEL, 16, 1⟩
def SCH_POL_CMD : Nat := 0x1000AC
def SCH_GATE_SEL : Nat := 0x1000CC
def SCH_GATE_SEL_PORT : Fld := ⟨SCH_GATE_SEL, 0, 8⟩
def SCH_GATE_SEL_LIST : Fld := ⟨SCH_GATE_SEL, 8, 1⟩
def SCH_GATE_SEL_ENTRY : Fld := ⟨SCH_GATE_SEL, 9, 6⟩
def SCH_GATE_CMD : Nat := 0x1000D0
def SCH_CMD_STAT : Nat := 0x1000DC
def SCH_CMD_STAT_POL_RESULT : Fld := ⟨SCH_CMD_STAT, 0, 2⟩
def SCH_CMD_STAT_GATE_RESULT : Fld := ⟨SCH_CMD_STAT, 2, 2⟩
def SCH_SMP_DATA0 : Nat := 0x100090
def SCH_SMP_DATA0_MAXDEPTH : Fld := ⟨SCH_SMP_DATA0, 0, 32⟩
def SCH_SMP_DATA1 : Nat := 0x100094
def SCH_SMP_DATA1_MAXSOJ : Fld := ⟨SCH_SMP_DATA1, 0, 32⟩
def SCH_SMP_DATA2 : Nat := 0x100098
def SCH_SMP_DATA2_MAXLAT : Fld := ⟨SCH_SMP_DATA2, 0, 32⟩
def SCH_SMP_DATA3 : Nat := 0x10009C
def SCH_SMP_DATA3_SUMLAT_LO : Fld := ⟨SCH_SMP_DATA3, 0, 32⟩
def SCH_SMP_DATA4 : Nat := 0x1000A0
def SCH_SMP_DATA4_SUMLAT_HI : Fld := ⟨SCH_SMP_DATA4, 0, 16⟩
def SCH_SMP_DATA5 : Nat := 0x1000A4
def SCH_SMP_DATA5_COUNT : Fld := ⟨SCH_SMP_DATA5, 0, 32⟩
def SCH_POL_DATA0 : Nat := 0x1000B0
def SCH_POL_DATA0_CIR : Fld := ⟨SCH_POL_DATA0, 0, 22⟩
def SCH_POL_DATA1 : Nat := 0x1000B4
def SCH_POL_DATA1_PIR_EIR : Fld := ⟨SCH_POL_DATA1, 0, 22⟩
def SCH_POL_DATA2 : Nat := 0x1000B8
def SCH_POL_DATA2_CBS : Fld := ⟨SCH_POL_DATA2, 0, 24⟩
def SCH_POL_DATA3 : Nat := 0x1000BC
def SCH_POL_DATA3_PBS_EBS : Fld := ⟨SCH_POL_DATA3, 0, 24⟩
def SCH_POL_DATA4 : Nat := 0x1000C0
def SCH_POL_DATA5 : Nat := 0x1000C4
def SCH_POL_DATA5_TC_TOK : Fld := ⟨SCH_POL_DATA5, 0, 32⟩
def SCH_POL_DATA6 : Nat := 0x1000C8
def SCH_POL_DATA6_TX_TOK : Fld := ⟨SCH_POL_DATA6, 0, 32⟩
def SCH_GATE_DATA0 : Nat := 0x1000D4
def SCH_GATE_DATA0_GATES : Fld := ⟨SCH_GATE_DATA0, 0, 16⟩
def SCH_GATE_DATA1 : Nat := 0x1000D8
def SCH_GATE_DATA1_INTERVAL : Fld := ⟨SCH_GATE_DATA1, 0, 32⟩
def SCH_CRED_LO : Nat := 0x1000E0
def SCH_CRED_HI : Nat := 0x1000E4
def SCH_DROP_GATE : Nat := 0x1000E8
def SCH_DROP_GATE_DROP_GATE : Fld := ⟨SCH_DROP_GATE, 0, 32⟩
def SCH_POL_RED : Nat := 0x1000EC
def SCH_POL_RED_POL_RED : Fld := ⟨SCH_POL_RED, 0, 32⟩
def SCH_PORT_CFG (i : Nat) (j : Nat) : Nat := 0x101100 + 0x1000 * i + 0xF0 * j
def SCH_PORT_CFG_PROF (i : Nat) (j : Nat) : Fld := ⟨SCH_PORT_CFG i j, 0, 1⟩
def SCH_PORT_CFG_GATE_EN (i : Nat) (j : Nat) : Fld := ⟨SCH_PORT_CFG i j, 1, 1⟩
def SCH_PORT_CFG_GATE_LIST (i : Nat) (j : Nat) : Fld := ⟨SCH_PORT_CFG i j, 2, 1⟩
def SCH_PORT_CFG_CR_MODE (i : Nat) (j : Nat) : Fld := ⟨SCH_PORT_CFG i j, 3, 1⟩
def SCH_PORT_CFG_LEN_OVH (i : Nat) (j : Nat) : Fld := ⟨SCH_PORT_CFG i j, 8, 8⟩
def SCH_PORT_SHP (i : Nat) (j : Nat) : Nat := 0x101104 + 0x1000 * i + 0xF0 * j
def SCH_PORT_SHP_RATE (i : Nat) (j : Nat) : Fld := ⟨SCH_PORT_SHP i j, 0, 22⟩
def SCH_PORT_SHP_EN (i : Nat) (j : Nat) : Fld := ⟨SCH_PORT_SHP i j, 31, 1⟩
def SCH_PORT_BURST (i : Nat) (j : Nat) : Nat := 0x101108 + 0x1000 * i + 0xF0 * j
def SCH_PORT_BURST_BURST (i : Nat) (j : Nat) : Fld := ⟨SCH_PORT_BURST i j, 0, 16⟩
def SCH_QMAP_LO (i : Nat) (j : Nat) : Nat := 0x10110C + 0x1000 * i + 0xF0 * j
def SCH_QMAP_LO_Q_at (i : Nat) (j : Nat) (x : Nat) : Fld := ⟨SCH_QMAP_LO i j, 0 + 4 * x, 4⟩
def SCH_QMAP_HI (i : Nat) (j : Nat) : Nat := 0x101110 + 0x1000 * i + 0xF0 * j
def SCH_QMAP_HI_Q_at (i : Nat) (j : Nat) (x : Nat) : Fld := ⟨SCH_QMAP_HI i j, 0 + 4 * x, 4⟩
def SCH_EQ_THR (i : Nat) (j : Nat) : Nat := 0x101114 + 0x1000 * i + 0xF0 * j
def SCH_EQ_THR_XOFF_KB (i : Nat) (j : Nat) : Fld := ⟨SCH_EQ_THR i j, 0, 16⟩
def SCH_EQ_THR_XON_KB (i : Nat) (j : Nat) : Fld := ⟨SCH_EQ_THR i j, 16, 16⟩
def SCH_CRED_W (i : Nat) (j : Nat) (k : Nat) : Nat := 0x101118 + 0x1000 * i + 0xF0 * j + 0x4 * k
def SCH_CRED_W_W_at (i : Nat) (j : Nat) (k : Nat) (x : Nat) : Fld := ⟨SCH_CRED_W i j k, 0 + 8 * x, 8⟩
def SCH_WFQ_W (i : Nat) (j : Nat) (k : Nat) : Nat := 0x101120 + 0x1000 * i + 0xF0 * j + 0x4 * k
def SCH_WFQ_W_W_at (i : Nat) (j : Nat) (k : Nat) (x : Nat) : Fld := ⟨SCH_WFQ_W i j k, 0 + 8 * x, 8⟩
def SCH_GL_CYC0 (i : Nat) (j : Nat) : Nat := 0x101130 + 0x1000 * i + 0xF0 * j
def SCH_GL_CYC0_CYC0 (i : Nat) (j : Nat) : Fld := ⟨SCH_GL_CYC0 i j, 0, 32⟩
def SCH_GL_CYC1 (i : Nat) (j : Nat) : Nat := 0x101134 + 0x1000 * i + 0xF0 * j
def SCH_GL_CYC1_CYC1 (i : Nat) (j : Nat) : Fld := ⟨SCH_GL_CYC1 i j, 0, 32⟩
def SCH_GL_BASE0_NS (i : Nat) (j : Nat) : Nat := 0x101138 + 0x1000 * i + 0xF0 * j
def SCH_GL_BASE0_NS_BASE0_NS (i : Nat) (j : Nat) : Fld := ⟨SCH_GL_BASE0_NS i j, 0, 30⟩
def SCH_GL_BASE0_S (i : Nat) (j : Nat) : Nat := 0x10113C + 0x1000 * i + 0xF0 * j
def SCH_GL_BASE0_S_BASE0_S (i : Nat) (j : Nat) : Fld := ⟨SCH_GL_BASE0_S i j, 0, 32⟩
def SCH_GL_BASE1_NS (i : Nat) (j : Nat) : Nat := 0x101140 + 0x1000 * i + 0xF0 * j
def SCH_GL_BASE1_NS_BASE1_NS (i : Nat) (j : Nat) : Fld := ⟨SCH_GL_BASE1_NS i j, 0, 30⟩
def SCH_GL_BASE1_S (i : Nat) (j : Nat) : Nat := 0x101144 + 0x1000 * i + 0xF0 * j
def SCH_GL_BASE1_S_BASE1_S (i : Nat) (j : Nat) : Fld := ⟨SCH_GL_BASE1_S i j, 0, 32⟩
def SCH_GL_LEN (i : Nat) (j : Nat) : Nat := 0x101148 + 0x1000 * i + 0xF0 * j
def SCH_GL_LEN_LEN0 (i : Nat) (j : Nat) : Fld := ⟨SCH_GL_LEN i j, 0, 7⟩
def SCH_GL_LEN_LEN1 (i : Nat) (j : Nat) : Fld := ⟨SCH_GL_LEN i j, 16, 7⟩
def SCH_PORT_STAT (i : Nat) (j : Nat) : Nat := 0x10114C + 0x1000 * i + 0xF0 * j
def SCH_PORT_STAT_XOFF (i : Nat) (j : Nat) : Fld := ⟨SCH_PORT_STAT i j, 0, 1⟩
def SCH_PORT_STAT_LIST_USED (i : Nat) (j : Nat) : Fld := ⟨SCH_PORT_STAT i j, 1, 1⟩
def SCH_PORT_STAT_LIST_PEND (i : Nat) (j : Nat) : Fld := ⟨SCH_PORT_STAT i j, 2, 1⟩
def SCH_PORT_RATE (i : Nat) (j : Nat) : Nat := 0x101150 + 0x1000 * i + 0xF0 * j
def SCH_PORT_RATE_RATE (i : Nat) (j : Nat) : Fld := ⟨SCH_PORT_RATE i j, 0, 22⟩
def SCH_Q_SHP (i : Nat) (j : Nat) (k : Nat) : Nat := 0x101160 + 0x1000 * i + 0xF0 * j + 0x8 * k
def SCH_Q_SHP_RATE (i : Nat) (j : Nat) (k : Nat) : Fld := ⟨SCH_Q_SHP i j k, 0, 22⟩
def SCH_Q_SHP_EN (i : Nat) (j : Nat) (k : Nat) : Fld := ⟨SCH_Q_SHP i j k, 31, 1⟩
def SCH_Q_BURST (i : Nat) (j : Nat) (k : Nat) : Nat := 0x101164 + 0x1000 * i + 0xF0 * j + 0x8 * k
def SCH_Q_BURST_BURST (i : Nat) (j : Nat) (k : Nat) : Fld := ⟨SCH_Q_BURST i j k, 0, 16⟩
def SCH_PORT_GDROP (i : Nat) (j : Nat) : Nat := 0x1011E0 + 0x1000 * i + 0xF0 * j
def SCH_PORT_GDROP_DROPS (i : Nat) (j : Nat) : Fld := ⟨SCH_PORT_GDROP i j, 0, 32⟩
def SYS_OVL_STAT : Nat := 0x1080
def SYS_OVL_STAT_ACTIVE : Fld := ⟨SYS_OVL_STAT, 0, 5⟩
def SYS_OVL_EPIS (i : Nat) : Nat := 0x1084 + 0x4 * i
def SYS_OVL_EPIS_EPIS (i : Nat) : Fld := ⟨SYS_OVL_EPIS i, 0, 32⟩
def SYS_OVL_SPILL_BUD : Nat := 0x10A0
def SYS_OVL_SPILL_BUD_BUD : Fld := ⟨SYS_OVL_SPILL_BUD, 0, 17⟩
def SYS_OVL_SPILL_CAP (i : Nat) : Nat := 0x10A4 + 0x4 * i
def SYS_OVL_SPILL_CAP_CAP_at (i : Nat) (x : Nat) : Fld := ⟨SYS_OVL_SPILL_CAP i, 0 + 8 * x, 5⟩
def SYS_OVL_SPILL_USE : Nat := 0x10AC
def SYS_OVL_SPILL_USE_U : Fld := ⟨SYS_OVL_SPILL_USE, 0, 17⟩
def SYS_OVL_SHED_THR (i : Nat) : Nat := 0x10B0 + 0x4 * i
def SYS_OVL_SHED_THR_THR_LO (i : Nat) : Fld := ⟨SYS_OVL_SHED_THR i, 0, 11⟩
def SYS_OVL_SHED_THR_THR_HI (i : Nat) : Fld := ⟨SYS_OVL_SHED_THR i, 16, 11⟩
def SYS_OVL_PUNT (i : Nat) : Nat := 0x10C0 + 0x4 * i
def SYS_OVL_PUNT_RATE (i : Nat) : Fld := ⟨SYS_OVL_PUNT i, 0, 16⟩
def SYS_OVL_PUNT_BURST (i : Nat) : Fld := ⟨SYS_OVL_PUNT i, 16, 16⟩
def SYS_OVL_SPILL_DROP (i : Nat) : Nat := 0x1100 + 0x4 * i
def SYS_OVL_SPILL_DROP_SPILL_DROP (i : Nat) : Fld := ⟨SYS_OVL_SPILL_DROP i, 0, 32⟩
def SYS_OVL_SHED (i : Nat) : Nat := 0x1120 + 0x4 * i
def SYS_OVL_SHED_SHED (i : Nat) : Fld := ⟨SYS_OVL_SHED i, 0, 32⟩
def SYS_OVL_PUNT_DROP (i : Nat) : Nat := 0x1140 + 0x4 * i
def SYS_OVL_PUNT_DROP_PUNT_DROP (i : Nat) : Fld := ⟨SYS_OVL_PUNT_DROP i, 0, 32⟩
def SYS_OVL_BANK_WAIT_LO : Nat := 0x1160
def SYS_OVL_BANK_WAIT_HI : Nat := 0x1164
def SYS_OVL_ACS_WAIT_LO : Nat := 0x1168
def SYS_OVL_ACS_WAIT_HI : Nat := 0x116C
def SYS_OVL_REPL_FAIL : Nat := 0x1170
def SYS_OVL_REPL_FAIL_REPL_FAIL : Fld := ⟨SYS_OVL_REPL_FAIL, 0, 32⟩
def CLY_ID : Nat := 0xB0080
def CLY_ID_DEV_ID : Fld := ⟨CLY_ID, 0, 11⟩
def CLY_ID_FABRIC : Fld := ⟨CLY_ID, 11, 1⟩
def CLY_ID_PLANE : Fld := ⟨CLY_ID, 12, 1⟩
def CLY_CFG : Nat := 0xB0084
def CLY_CFG_REORD_US : Fld := ⟨CLY_CFG, 0, 10⟩
def CLY_CFG_TWIN : Fld := ⟨CLY_CFG, 16, 8⟩
def CLY_LFC : Nat := 0xB0088
def CLY_LFC_STOP_CELLS : Fld := ⟨CLY_LFC, 0, 16⟩
def CLY_LFC_GO_CELLS : Fld := ⟨CLY_LFC, 16, 16⟩
def CLY_STAT : Nat := 0xB008C
def CLY_STAT_STOPPING : Fld := ⟨CLY_STAT, 17, 1⟩
def CLY_STAT_ID_ERR : Fld := ⟨CLY_STAT, 18, 1⟩
def CLY_MST_CFG : Nat := 0xB0090
def CLY_MST_CFG_MROLE : Fld := ⟨CLY_MST_CFG, 0, 2⟩
def CLY_MST_CFG_MISS : Fld := ⟨CLY_MST_CFG, 8, 4⟩
def CLY_MST_CFG_HB_US : Fld := ⟨CLY_MST_CFG, 16, 16⟩
def CLY_MST_CLAIM : Nat := 0xB0094
def CLY_MST_CLAIM_CLAIM : Fld := ⟨CLY_MST_CLAIM, 0, 32⟩
def CLY_MST_STAT : Nat := 0xB0098
def CLY_MST_STAT_MASTER : Fld := ⟨CLY_MST_STAT, 0, 11⟩
def CLY_MST_STAT_VALID : Fld := ⟨CLY_MST_STAT, 11, 1⟩
def CLY_MST_STAT_SELF : Fld := ⟨CLY_MST_STAT, 12, 1⟩
def CLY_MST_STAT_DEPOSED : Fld := ⟨CLY_MST_STAT, 13, 1⟩
def CLY_MST_STAT_TOOK_OVER : Fld := ⟨CLY_MST_STAT, 14, 1⟩
def CLY_MST_STAT_STBY_LOST : Fld := ⟨CLY_MST_STAT, 15, 1⟩
def CLY_MST_CUR : Nat := 0xB009C
def CLY_MST_CUR_CLAIM : Fld := ⟨CLY_MST_CUR, 0, 32⟩
def CLY_MST_CMD : Nat := 0xB00A0
def CLY_MST_RESULT : Nat := 0xB00A4
def CLY_MST_RESULT_RESULT : Fld := ⟨CLY_MST_RESULT, 0, 4⟩
def CLY_MST_RESULT_DEV : Fld := ⟨CLY_MST_RESULT, 4, 11⟩
def CLY_MST_RESULT_DUR_US : Fld := ⟨CLY_MST_RESULT, 16, 16⟩
def CLY_CKPT_SRC_LO : Nat := 0xB00A8
def CLY_CKPT_CFG : Nat := 0xB00B0
def CLY_CKPT_CFG_SW_LEN : Fld := ⟨CLY_CKPT_CFG, 0, 12⟩
def CLY_CKPT_CFG_PERIOD_MS : Fld := ⟨CLY_CKPT_CFG, 16, 8⟩
def CLY_CKPT_STBY : Nat := 0xB00B4
def CLY_CKPT_STBY_STBY : Fld := ⟨CLY_CKPT_STBY, 0, 11⟩
def CLY_CKPT_STBY_EN : Fld := ⟨CLY_CKPT_STBY, 31, 1⟩
def CLY_CKPT_DST_LO : Nat := 0xB00B8
def CLY_CKPT_DST_HI : Nat := 0xB00BC
def CLY_CKPT_STAT : Nat := 0xB00C0
def CLY_CKPT_STAT_ACKED : Fld := ⟨CLY_CKPT_STAT, 0, 16⟩
def CLY_CKPT_STAT_VALIDSEQ : Fld := ⟨CLY_CKPT_STAT, 16, 16⟩
def CLY_RW_DEV : Nat := 0xB00D0
def CLY_RW_DEV_DEV : Fld := ⟨CLY_RW_DEV, 0, 11⟩
def CLY_RW_ADDR : Nat := 0xB00D4
def CLY_RW_ADDR_ADDR : Fld := ⟨CLY_RW_ADDR, 0, 27⟩
def CLY_RW_DATA : Nat := 0xB00D8
def CLY_RW_DATA_DATA : Fld := ⟨CLY_RW_DATA, 0, 32⟩
def CLY_RW_CMD : Nat := 0xB00DC
def CLY_RW_STAT : Nat := 0xB00E0
def CLY_RW_STAT_RESULT : Fld := ⟨CLY_RW_STAT, 0, 3⟩
def CLY_RW_STAT_RUNNING : Fld := ⟨CLY_RW_STAT, 3, 1⟩
def CLY_RCH_DEV : Nat := 0xB0100
def CLY_RCH_DEV_DEV : Fld := ⟨CLY_RCH_DEV, 0, 11⟩
def CLY_RCH_CMD : Nat := 0xB0104
def CLY_RCH_DATA (i : Nat) : Nat := 0xB0120 + 0x4 * i
def CLY_RCH_DATA_DATA (i : Nat) : Fld := ⟨CLY_RCH_DATA i, 0, 32⟩
def CLY_DUP_CELLS : Nat := 0xB0180
def CLY_DUP_CELLS_DUP_CELLS : Fld := ⟨CLY_DUP_CELLS, 0, 32⟩
def CLY_DUP_FRAMES : Nat := 0xB0184
def CLY_DUP_FRAMES_DUP_FRAMES : Fld := ⟨CLY_DUP_FRAMES, 0, 32⟩
def CLY_LATE_CELLS : Nat := 0xB0188
def CLY_LATE_CELLS_LATE_CELLS : Fld := ⟨CLY_LATE_CELLS, 0, 32⟩
def CLY_STALE_CELLS : Nat := 0xB018C
def CLY_STALE_CELLS_STALE_CELLS : Fld := ⟨CLY_STALE_CELLS, 0, 32⟩
def CLY_SKIPS : Nat := 0xB0190
def CLY_SKIPS_SKIPS : Fld := ⟨CLY_SKIPS, 0, 32⟩
def CLY_LOST_FRAMES : Nat := 0xB0194
def CLY_LOST_FRAMES_LOST_FRAMES : Fld := ⟨CLY_LOST_FRAMES, 0, 32⟩
def CLY_NOROUTE : Nat := 0xB0198
def CLY_NOROUTE_NOROUTE : Fld := ⟨CLY_NOROUTE, 0, 32⟩
def CLY_HOPS_DROP : Nat := 0xB019C
def CLY_HOPS_DROP_HOPS_DROP : Fld := ⟨CLY_HOPS_DROP, 0, 32⟩
def CLY_TWIN_SINGLE : Nat := 0xB01A0
def CLY_TWIN_SINGLE_TWIN_SINGLE : Fld := ⟨CLY_TWIN_SINGLE, 0, 32⟩
def CLY_OVERRUN : Nat := 0xB01A4
def CLY_OVERRUN_OVERRUN : Fld := ⟨CLY_OVERRUN, 0, 32⟩
def CLY_CR_NODEST : Nat := 0xB01A8
def CLY_CR_NODEST_CR_NODEST : Fld := ⟨CLY_CR_NODEST, 0, 32⟩
def CLY_REJ : Nat := 0xB01AC
def CLY_REJ_REJ : Fld := ⟨CLY_REJ, 0, 32⟩
def CLY_TAKEOVERS : Nat := 0xB01B0
def CLY_TAKEOVERS_TAKEOVERS : Fld := ⟨CLY_TAKEOVERS, 0, 32⟩
def CLY_DEPOSALS : Nat := 0xB01B4
def CLY_DEPOSALS_DEPOSALS : Fld := ⟨CLY_DEPOSALS, 0, 32⟩
def CLY_LINK_CFG (i : Nat) (j : Nat) : Nat := 0xB1100 + 0x1000 * i + 0x20 * j
def CLY_LINK_CFG_EN (i : Nat) (j : Nat) : Fld := ⟨CLY_LINK_CFG i j, 0, 1⟩
def CLY_LINK_CFG_PLANE (i : Nat) (j : Nat) : Fld := ⟨CLY_LINK_CFG i j, 1, 1⟩
def CLY_LINK_STAT (i : Nat) (j : Nat) : Nat := 0xB1104 + 0x1000 * i + 0x20 * j
def CLY_LINK_STAT_STATE (i : Nat) (j : Nat) : Fld := ⟨CLY_LINK_STAT i j, 0, 2⟩
def CLY_LINK_STAT_STOPPED (i : Nat) (j : Nat) : Fld := ⟨CLY_LINK_STAT i j, 2, 1⟩
def CLY_LINK_STAT_LOOP (i : Nat) (j : Nat) : Fld := ⟨CLY_LINK_STAT i j, 3, 1⟩
def CLY_LINK_STAT_FAR_DEV (i : Nat) (j : Nat) : Fld := ⟨CLY_LINK_STAT i j, 16, 11⟩
def CLY_LINK_STAT_FAR_FABRIC (i : Nat) (j : Nat) : Fld := ⟨CLY_LINK_STAT i j, 27, 1⟩
def CLY_LINK_STAT_FAR_PLANE (i : Nat) (j : Nat) : Fld := ⟨CLY_LINK_STAT i j, 28, 1⟩
def CLY_LINK_DLY (i : Nat) (j : Nat) : Nat := 0xB1108 + 0x1000 * i + 0x20 * j
def CLY_LINK_DLY_DLY (i : Nat) (j : Nat) : Fld := ⟨CLY_LINK_DLY i j, 0, 24⟩
def CLY_LINK_CELLS_TX (i : Nat) (j : Nat) : Nat := 0xB110C + 0x1000 * i + 0x20 * j
def CLY_LINK_CELLS_TX_CELLS_TX (i : Nat) (j : Nat) : Fld := ⟨CLY_LINK_CELLS_TX i j, 0, 32⟩
def CLY_LINK_CELLS_RX (i : Nat) (j : Nat) : Nat := 0xB1110 + 0x1000 * i + 0x20 * j
def CLY_LINK_CELLS_RX_CELLS_RX (i : Nat) (j : Nat) : Fld := ⟨CLY_LINK_CELLS_RX i j, 0, 32⟩
def CLY_LINK_ERR (i : Nat) (j : Nat) : Nat := 0xB1114 + 0x1000 * i + 0x20 * j
def CLY_LINK_ERR_HCRC_ERR (i : Nat) (j : Nat) : Fld := ⟨CLY_LINK_ERR i j, 0, 16⟩
def CLY_LINK_ERR_PCRC_ERR (i : Nat) (j : Nat) : Fld := ⟨CLY_LINK_ERR i j, 16, 16⟩
def CLY_LINK_DOWNS (i : Nat) (j : Nat) : Nat := 0xB1118 + 0x1000 * i + 0x20 * j
def CLY_LINK_DOWNS_DOWNS (i : Nat) (j : Nat) : Fld := ⟨CLY_LINK_DOWNS i j, 0, 16⟩
def HIF_LINK_STAT : Nat := 0x60080
def HIF_LINK_STAT_SPEED : Fld := ⟨HIF_LINK_STAT, 0, 4⟩
def HIF_LINK_STAT_WIDTH : Fld := ⟨HIF_LINK_STAT, 4, 5⟩
def HIF_LINK_STAT_FLIT : Fld := ⟨HIF_LINK_STAT, 9, 1⟩
def HIF_LINK_STAT_LPM : Fld := ⟨HIF_LINK_STAT, 10, 2⟩
def HIF_LINK_STAT_DSTATE : Fld := ⟨HIF_LINK_STAT, 12, 2⟩
def HIF_RING_SEL : Nat := 0x60084
def HIF_RING_SEL_INDEX : Fld := ⟨HIF_RING_SEL, 0, 11⟩
def HIF_RING_SEL_CQ : Fld := ⟨HIF_RING_SEL, 11, 1⟩
def HIF_RING_CMD : Nat := 0x60088
def HIF_RING_STAT : Nat := 0x6008C
def HIF_RING_STAT_RESULT : Fld := ⟨HIF_RING_STAT, 0, 2⟩
def HIF_RING_DATA (i : Nat) : Nat := 0x60090 + 0x4 * i
def HIF_PUNT_MAP (i : Nat) : Nat := 0x600B0 + 0x4 * i
def HIF_PUNT_MAP_RING (i : Nat) : Fld := ⟨HIF_PUNT_MAP i, 0, 11⟩
def HIF_TS_CFG : Nat := 0x600D0
def HIF_TS_CFG_CQ : Fld := ⟨HIF_TS_CFG, 0, 11⟩
def HIF_TS_CFG_EN : Fld := ⟨HIF_TS_CFG, 31, 1⟩
def HIF_TS_STAT : Nat := 0x600D4
def HIF_PUNT_CFG : Nat := 0x600D8
def HIF_PUNT_CFG_SLICE : Fld := ⟨HIF_PUNT_CFG, 0, 4⟩
def HIF_INJ_FRAMES : Nat := 0x600E0
def HIF_INJ_FRAMES_INJ_FRAMES : Fld := ⟨HIF_INJ_FRAMES, 0, 32⟩
def HIF_PUNT_FRAMES : Nat := 0x600E4
def HIF_PUNT_FRAMES_PUNT_FRAMES : Fld := ⟨HIF_PUNT_FRAMES, 0, 32⟩
def HIF_PUNT_FLUSH : Nat := 0x600E8
def HIF_PUNT_FLUSH_PUNT_FLUSH : Fld := ⟨HIF_PUNT_FLUSH, 0, 32⟩
def HIF_DB_ERR : Nat := 0x600EC
def HIF_DB_ERR_DB_ERR : Fld := ⟨HIF_DB_ERR, 0, 32⟩
def HIF_BADENT : Nat := 0x600F0
def HIF_BADENT_BADENT : Fld := ⟨HIF_BADENT, 0, 32⟩
def HIF_DMA_ERR : Nat := 0x600F4
def HIF_DMA_ERR_DMA_ERR : Fld := ⟨HIF_DMA_ERR, 0, 32⟩
def HIF_HOLD_STOPS : Nat := 0x600F8
def HIF_HOLD_STOPS_HOLD_STOPS : Fld := ⟨HIF_HOLD_STOPS, 0, 32⟩
def HIF_TS_LOST : Nat := 0x600FC
def HIF_TS_LOST_TS_LOST : Fld := ⟨HIF_TS_LOST, 0, 32⟩
def HIF_HOLD_STOP (i : Nat) : Nat := 0x60100 + 0x4 * i
def ICU_SRC_SEL : Nat := 0x50080
def ICU_SRC_SEL_SRC : Fld := ⟨ICU_SRC_SEL, 0, 12⟩
def ICU_SRC_CFG : Nat := 0x50084
def ICU_SRC_STAT : Nat := 0x50088
def ICU_PEND_SET : Nat := 0x5008C
def ICU_TGT_SEL : Nat := 0x50090
def ICU_TGT_SEL_TGT : Fld := ⟨ICU_TGT_SEL, 0, 8⟩
def ICU_TGT_ADDR_LO : Nat := 0x50094
def ICU_TGT_ADDR_HI : Nat := 0x50098
def ICU_TGT_DATA : Nat := 0x5009C
def ICU_TGT_CTL : Nat := 0x500A0
def ICU_TGT_STAT : Nat := 0x500A4
def ICU_MSGS : Nat := 0x500A8
def ICU_MSGS_MSGS : Fld := ⟨ICU_MSGS, 0, 32⟩
def ICU_EOI_ERR : Nat := 0x500AC
def ICU_EOI_ERR_EOI_ERR : Fld := ⟨ICU_EOI_ERR, 0, 32⟩
def ICU_ISL_CLAIM : Nat := 0x500C0
def ICU_ISL_EOI : Nat := 0x500C4
def ICU_ISL_STAT : Nat := 0x500C8
def ICU_CLAIM (i : Nat) : Nat := 0x50800 + 0x8 * i
def ICU_EOI (i : Nat) : Nat := 0x50804 + 0x8 * i
def CNT_SEL : Nat := 0x90080
def CNT_SEL_INDEX : Fld := ⟨CNT_SEL, 0, 12⟩
def CNT_CFG0 : Nat := 0x90084
def CNT_CFG1 : Nat := 0x90088
def CNT_CMD : Nat := 0x9008C
def CNT_VAL_LO : Nat := 0x90090
def CNT_VAL_HI : Nat := 0x90094
def CNT_DUMP_CFG : Nat := 0x90098
def CNT_DUMP_CFG_EN : Fld := ⟨CNT_DUMP_CFG, 0, 1⟩
def CNT_DUMP_CFG_DEST : Fld := ⟨CNT_DUMP_CFG, 1, 1⟩
def CNT_DUMP_CFG_SECT : Fld := ⟨CNT_DUMP_CFG, 2, 5⟩
def CNT_DUMP_CFG_PERIOD_MS : Fld := ⟨CNT_DUMP_CFG, 16, 16⟩
def CNT_DUMP_NSLOT : Nat := 0x9009C
def CNT_DUMP_NSLOT_NSLOT : Fld := ⟨CNT_DUMP_NSLOT, 0, 16⟩
def CNT_DUMP_ADDR_LO : Nat := 0x900A0
def CNT_DUMP_ADDR_HI : Nat := 0x900A4
def CNT_DUMP_STAT : Nat := 0x900A8
def CNT_DUMP_STAT_SEQ : Fld := ⟨CNT_DUMP_STAT, 0, 32⟩
def CNT_DUMP_ERR : Nat := 0x900AC
def CNT_DUMP_ERR_SKIPS : Fld := ⟨CNT_DUMP_ERR, 0, 16⟩
def CNT_DUMP_ERR_FAILS : Fld := ⟨CNT_DUMP_ERR, 16, 16⟩
def CAP_CFG : Nat := 0xA0080
def CAP_CFG_FULL : Fld := ⟨CAP_CFG, 0, 1⟩
def CAP_WR : Nat := 0xA0084
def CAP_WR_OFF : Fld := ⟨CAP_WR, 0, 29⟩
def CAP_WR_LAP : Fld := ⟨CAP_WR, 31, 1⟩
def CAP_RD : Nat := 0xA0088
def CAP_RD_OFF : Fld := ⟨CAP_RD, 0, 29⟩
def CAP_RD_LAP : Fld := ⟨CAP_RD, 31, 1⟩
def CAP_STAT : Nat := 0xA008C
def CAP_LOST : Nat := 0xA0090
def CAP_LOST_LOST : Fld := ⟨CAP_LOST, 0, 32⟩
def CAP_RECS : Nat := 0xA0094
def CAP_RECS_RECS : Fld := ⟨CAP_RECS, 0, 32⟩
def CAP_SEQ : Nat := 0xA0098
def CAP_SEQ_SEQ : Fld := ⟨CAP_SEQ, 0, 32⟩
def CAP_TRIG_CFG (i : Nat) : Nat := 0xA0100 + 0x10 * i
def CAP_TRIG_CFG_TYPE (i : Nat) : Fld := ⟨CAP_TRIG_CFG i, 0, 2⟩
def CAP_TRIG_CFG_REASON (i : Nat) : Fld := ⟨CAP_TRIG_CFG i, 2, 8⟩
def CAP_TRIG_CFG_PF_EN (i : Nat) : Fld := ⟨CAP_TRIG_CFG i, 10, 1⟩
def CAP_TRIG_CFG_PORTF (i : Nat) : Fld := ⟨CAP_TRIG_CFG i, 11, 9⟩
def CAP_TRIG_CFG_SNAP (i : Nat) : Fld := ⟨CAP_TRIG_CFG i, 20, 4⟩
def CAP_TRIG_LIM (i : Nat) : Nat := 0xA0104 + 0x10 * i
def CAP_TRIG_LIM_MAXREC (i : Nat) : Fld := ⟨CAP_TRIG_LIM i, 0, 16⟩
def CAP_TRIG_LIM_PERIOD_US (i : Nat) : Fld := ⟨CAP_TRIG_LIM i, 16, 16⟩
def CAP_TRIG_CNT (i : Nat) : Nat := 0xA0108 + 0x10 * i
def CAP_TRIG_CNT_RECS (i : Nat) : Fld := ⟨CAP_TRIG_CNT i, 0, 32⟩
def CAP_TRIG_SUPP (i : Nat) : Nat := 0xA010C + 0x10 * i
def CAP_TRIG_SUPP_SUPP (i : Nat) : Fld := ⟨CAP_TRIG_SUPP i, 0, 32⟩
def TIM_NOW_NS : Nat := 0x80080
def TIM_NOW_SLO : Nat := 0x80084
def TIM_NOW_SHI : Nat := 0x80088
def TIM_CFG : Nat := 0x8008C
def TIM_CFG_ROLE : Fld := ⟨TIM_CFG, 2, 2⟩
def TIM_CFG_KP_SH : Fld := ⟨TIM_CFG, 4, 4⟩
def TIM_CFG_KI_SH : Fld := ⟨TIM_CFG, 8, 4⟩
def TIM_CFG_STEP_THR : Fld := ⟨TIM_CFG, 12, 16⟩
def TIM_FREQ : Nat := 0x80090
def TIM_CMD : Nat := 0x80094
def TIM_CMD_CMD_ERR : Fld := ⟨TIM_CMD, 2, 1⟩
def TIM_ARG_NS : Nat := 0x80098
def TIM_ARG_SLO : Nat := 0x8009C
def TIM_ARG_SHI : Nat := 0x800A0
def TIM_ARG_SHI_SEC : Fld := ⟨TIM_ARG_SHI, 0, 16⟩
def TIM_ARG_SHI_FRAC : Fld := ⟨TIM_ARG_SHI, 16, 16⟩
def TIM_PPS_CFG : Nat := 0x800A4
def TIM_PPS_CFG_OUT_EN : Fld := ⟨TIM_PPS_CFG, 0, 1⟩
def TIM_PPS_CFG_IN_EN : Fld := ⟨TIM_PPS_CFG, 1, 1⟩
def TIM_PPS_CFG_WIDTH_MS : Fld := ⟨TIM_PPS_CFG, 2, 10⟩
def TIM_PPS_OFS : Nat := 0x800A8
def TIM_PPS_OFS_OUT_OFS : Fld := ⟨TIM_PPS_OFS, 0, 16⟩
def TIM_PPS_OFS_IN_DLY : Fld := ⟨TIM_PPS_OFS, 16, 16⟩
def TIM_PPS_IN_NS : Nat := 0x800AC
def TIM_PPS_IN_SLO : Nat := 0x800B0
def TIM_SYNCE : Nat := 0x800B4
def TIM_SYNCE_LANE0 : Fld := ⟨TIM_SYNCE, 0, 8⟩
def TIM_SYNCE_LANE1 : Fld := ⟨TIM_SYNCE, 8, 8⟩
def TIM_SYNCE_EN0 : Fld := ⟨TIM_SYNCE, 16, 1⟩
def TIM_SYNCE_EN1 : Fld := ⟨TIM_SYNCE, 17, 1⟩
def TIM_STAT : Nat := 0x800B8
def TIM_STAT_LOCKED : Fld := ⟨TIM_STAT, 0, 1⟩
def TIM_STAT_HOLDOVER : Fld := ⟨TIM_STAT, 1, 1⟩
def TIM_STAT_DEPTH : Fld := ⟨TIM_STAT, 2, 4⟩
def TIM_STAT_LINK : Fld := ⟨TIM_STAT, 6, 8⟩
def TIM_STAT_SQ0 : Fld := ⟨TIM_STAT, 14, 1⟩
def TIM_STAT_SQ1 : Fld := ⟨TIM_STAT, 15, 1⟩
def TIM_CASC : Nat := 0x800BC
def TIM_CASC_TIME_US : Fld := ⟨TIM_CASC, 0, 16⟩
def TIM_OFFSET : Nat := 0x800C0
def FLT_CFG : Nat := 0x30080
def FLT_CFG_SHADOW_US : Fld := ⟨FLT_CFG, 0, 14⟩
def FLT_SRC_SEL : Nat := 0x30084
def FLT_SRC_SEL_SRC : Fld := ⟨FLT_SRC_SEL, 0, 12⟩
def FLT_SRC_CFG : Nat := 0x30088
def FLT_SRC_STAT : Nat := 0x3008C
def FLT_REC_SEL : Nat := 0x30090
def FLT_REC_SEL_INDEX : Fld := ⟨FLT_REC_SEL, 0, 8⟩
def FLT_REC_STAT : Nat := 0x30094
def FLT_REC_STAT_WR : Fld := ⟨FLT_REC_STAT, 0, 8⟩
def FLT_REC_STAT_WRAPPED : Fld := ⟨FLT_REC_STAT, 8, 1⟩
def FLT_REC_STAT_OVERRUN : Fld := ⟨FLT_REC_STAT, 16, 16⟩
def FLT_SEQ : Nat := 0x30098
def FLT_SEQ_SEQ : Fld := ⟨FLT_SEQ, 0, 32⟩
def FLT_FIRST_CTL : Nat := 0x300E0
def FLT_FIRST_CTL_FIRST_V : Fld := ⟨FLT_FIRST_CTL, 0, 1⟩
def FLT_NMT_ADDR_LO : Nat := 0x300E4
def FLT_NMT_ADDR_HI : Nat := 0x300E8
def FLT_NMT_DATA : Nat := 0x300EC
def FLT_NMT : Nat := 0x300F0
def FLT_NMT_PEND : Fld := ⟨FLT_NMT, 0, 1⟩
def FLT_PIN : Nat := 0x300F4
def FLT_PIN_ERRN : Fld := ⟨FLT_PIN, 0, 1⟩
def FLT_PIN_SAFE : Fld := ⟨FLT_PIN, 1, 1⟩
def FLT_SHADOW_STAT : Nat := 0x300F8
def FLT_CNT : Nat := 0x300FC
def FLT_CNT_NMT_LOST : Fld := ⟨FLT_CNT, 0, 16⟩
def FLT_CNT_SHADOW_FULL : Fld := ⟨FLT_CNT, 16, 16⟩
def FLT_REC_DATA (i : Nat) : Nat := 0x300A0 + 0x4 * i
def FLT_FIRST (i : Nat) : Nat := 0x300C0 + 0x4 * i
def AON_CFG : Nat := 0x40080
def AON_CFG_TICK : Fld := ⟨AON_CFG, 0, 12⟩
def AON_CFG_HOLD : Fld := ⟨AON_CFG, 12, 4⟩
def AON_CFG_WAKE_MAX : Fld := ⟨AON_CFG, 16, 3⟩
def AON_CFG_BULK : Fld := ⟨AON_CFG, 19, 5⟩
def AON_CFG_COOL_EN : Fld := ⟨AON_CFG, 24, 1⟩
def AON_CFG_COOL_LIM : Fld := ⟨AON_CFG, 25, 1⟩
def AON_CFG_NMT_SAFE : Fld := ⟨AON_CFG, 26, 1⟩
def AON_STAT : Nat := 0x40084
def AON_STAT_DEFER : Fld := ⟨AON_STAT, 10, 1⟩
def AON_STAT_CMD_ERR : Fld := ⟨AON_STAT, 11, 1⟩
def AON_CMD : Nat := 0x40088
def AON_BUDGET : Nat := 0x4008C
def AON_BUDGET_PBUDGET : Fld := ⟨AON_BUDGET, 0, 16⟩
def AON_BUDGET_WAKE_W : Fld := ⟨AON_BUDGET, 16, 8⟩
def AON_FF : Nat := 0x40090
def AON_FF_FF_LEAD_US : Fld := ⟨AON_FF, 0, 16⟩
def AON_FF_KFF : Fld := ⟨AON_FF, 16, 10⟩
def AON_TSAFE : Nat := 0x40094
def AON_TSAFE_DIE : Fld := ⟨AON_TSAFE, 0, 16⟩
def AON_TSAFE_HBM : Fld := ⟨AON_TSAFE, 16, 16⟩
def AON_NMIN : Nat := 0x40098
def AON_NMIN_NMIN_at (x : Nat) : Fld := ⟨AON_NMIN, 0 + 8 * x, 5⟩
def AON_LVL : Nat := 0x4009C
def AON_LVL_LVL_BASE : Fld := ⟨AON_LVL, 0, 3⟩
def AON_TARGET : Nat := 0x400A0
def AON_TARGET_N_at (x : Nat) : Fld := ⟨AON_TARGET, 0 + 8 * x, 5⟩
def AON_WKS_PIN (i : Nat) : Nat := 0x400A4 + 0x4 * i
def AON_WKS_FAIL (i : Nat) : Nat := 0x400AC + 0x4 * i
def AON_LEVEL (i : Nat) : Nat := 0x400B4 + 0x4 * i
def AON_LEVEL_LEVEL_at (i : Nat) (x : Nat) : Fld := ⟨AON_LEVEL i, 0 + 4 * x, 3⟩
def AON_CNT : Nat := 0x400BC
def AON_CNT_WAKES : Fld := ⟨AON_CNT, 0, 16⟩
def AON_CNT_DEFERS : Fld := ⟨AON_CNT, 16, 16⟩
def AON_COOL_CTL : Nat := 0x400C0
def AON_COOL_CTL_CH : Fld := ⟨AON_COOL_CTL, 0, 5⟩
def AON_COOL_CTL_KP : Fld := ⟨AON_COOL_CTL, 8, 8⟩
def AON_COOL_CTL_KI : Fld := ⟨AON_COOL_CTL, 16, 8⟩
def AON_COOL_SP : Nat := 0x400C4
def AON_COOL_SP_SP : Fld := ⟨AON_COOL_SP, 0, 16⟩
def AON_COOL_SP_CPER_MS : Fld := ⟨AON_COOL_SP, 16, 16⟩
def AON_COOL_LIM : Nat := 0x400C8
def AON_COOL_LIM_DMIN : Fld := ⟨AON_COOL_LIM, 0, 10⟩
def AON_COOL_LIM_DBASE : Fld := ⟨AON_COOL_LIM, 16, 10⟩
def AON_COOL_STAT : Nat := 0x400CC
def AON_COOL_STAT_D : Fld := ⟨AON_COOL_STAT, 0, 10⟩
def AON_COOL_STAT_SAT : Fld := ⟨AON_COOL_STAT, 10, 1⟩
def AON_PWM (i : Nat) : Nat := 0x400D0 + 0x4 * i
def AON_PWM_MIN (i : Nat) : Fld := ⟨AON_PWM i, 0, 7⟩
def AON_PWM_MAX (i : Nat) : Fld := ⟨AON_PWM i, 8, 7⟩
def AON_PWM_GAIN (i : Nat) : Fld := ⟨AON_PWM i, 16, 8⟩
def AON_PWM_OE (i : Nat) : Fld := ⟨AON_PWM i, 24, 1⟩
def AON_PWM_MAN (i : Nat) : Fld := ⟨AON_PWM i, 26, 1⟩
def AON_PWM_PER : Nat := 0x400E0
def AON_PWM_PER_PER : Fld := ⟨AON_PWM_PER, 0, 16⟩
def AON_TACH_CFG : Nat := 0x400E4
def AON_TACH_CFG_TMIN : Fld := ⟨AON_TACH_CFG, 16, 16⟩
def AON_TACH_CFG_PPR_at (x : Nat) : Fld := ⟨AON_TACH_CFG, 0 + 2 * x, 2⟩
def AON_VALVE (i : Nat) : Nat := 0x400E8 + 0x4 * i
def AON_VALVE_VON (i : Nat) : Fld := ⟨AON_VALVE i, 0, 10⟩
def AON_VALVE_VOFF (i : Nat) : Fld := ⟨AON_VALVE i, 10, 10⟩
def AON_VALVE_SAFE (i : Nat) : Fld := ⟨AON_VALVE i, 21, 1⟩
def AON_VALVE_MAN (i : Nat) : Fld := ⟨AON_VALVE i, 22, 1⟩
def AON_VALVE_MANVAL (i : Nat) : Fld := ⟨AON_VALVE i, 23, 1⟩
def AON_RULE_HELD (i : Nat) : Nat := 0x40100 + 0x4 * i
def AON_CH_CFG (i : Nat) : Nat := 0x40200 + 0x8 * i
def AON_CH_CFG_SRC (i : Nat) : Fld := ⟨AON_CH_CFG i, 0, 6⟩
def AON_CH_CFG_K (i : Nat) : Fld := ⟨AON_CH_CFG i, 8, 4⟩
def AON_CH_CFG_EN (i : Nat) : Fld := ⟨AON_CH_CFG i, 12, 1⟩
def AON_CH_VAL (i : Nat) : Nat := 0x40204 + 0x8 * i
def AON_CH_VAL_F (i : Nat) : Fld := ⟨AON_CH_VAL i, 0, 16⟩
def AON_CH_VAL_RAW (i : Nat) : Fld := ⟨AON_CH_VAL i, 16, 16⟩
def AON_RULE0 (i : Nat) : Nat := 0x40400 + 0x10 * i
def AON_RULE0_THRA (i : Nat) : Fld := ⟨AON_RULE0 i, 0, 16⟩
def AON_RULE0_CHA (i : Nat) : Fld := ⟨AON_RULE0 i, 16, 5⟩
def AON_RULE0_CMPA (i : Nat) : Fld := ⟨AON_RULE0 i, 21, 1⟩
def AON_RULE0_EN (i : Nat) : Fld := ⟨AON_RULE0 i, 31, 1⟩
def AON_RULE1 (i : Nat) : Nat := 0x40404 + 0x10 * i
def AON_RULE1_THRB (i : Nat) : Fld := ⟨AON_RULE1 i, 0, 16⟩
def AON_RULE1_CHB (i : Nat) : Fld := ⟨AON_RULE1 i, 16, 5⟩
def AON_RULE1_CMPB (i : Nat) : Fld := ⟨AON_RULE1 i, 21, 1⟩
def AON_RULE1_BEN (i : Nat) : Fld := ⟨AON_RULE1 i, 22, 1⟩
def AON_RULE2 (i : Nat) : Nat := 0x40408 + 0x10 * i
def AON_RULE2_ACT (i : Nat) : Fld := ⟨AON_RULE2 i, 0, 3⟩
def AON_RULE2_ARG (i : Nat) : Fld := ⟨AON_RULE2 i, 8, 8⟩
def AON_RULE2_MASK (i : Nat) : Fld := ⟨AON_RULE2 i, 16, 16⟩
def SEC_STAT : Nat := 0x20080
def SEC_STAT_STATE : Fld := ⟨SEC_STAT, 0, 2⟩
def SEC_STAT_BOOT_SRC : Fld := ⟨SEC_STAT, 2, 2⟩
def SEC_STAT_ISLAND_OK : Fld := ⟨SEC_STAT, 4, 1⟩
def SEC_STAT_BUSY : Fld := ⟨SEC_STAT, 5, 1⟩
def SEC_CMD : Nat := 0x20084
def SEC_RESULT : Nat := 0x20088
def SEC_RESULT_RESULT : Fld := ⟨SEC_RESULT, 0, 4⟩
def SEC_RESULT_CMD_ERR : Fld := ⟨SEC_RESULT, 4, 1⟩
def SEC_SRC_LO : Nat := 0x2008C
def SEC_SRC_LEN : Nat := 0x20094
def SEC_SRC_LEN_LEN : Fld := ⟨SEC_SRC_LEN, 0, 24⟩
def SEC_SRC_LEN_FLASH : Fld := ⟨SEC_SRC_LEN, 24, 1⟩
def SEC_FUSE : Nat := 0x20098
def SEC_SVN_ARG : Nat := 0x2009C
def SEC_SVN_ARG_ARG : Fld := ⟨SEC_SVN_ARG, 0, 7⟩
def SEC_SERIAL (i : Nat) : Nat := 0x200A0 + 0x4 * i
def SEC_FAIL : Nat := 0x200A8
def SEC_FAIL_KIND : Fld := ⟨SEC_FAIL, 0, 3⟩
def SEC_FAIL_CAUSE : Fld := ⟨SEC_FAIL, 3, 3⟩
def SEC_CNT : Nat := 0x200AC
def SEC_CNT_CHECKS : Fld := ⟨SEC_CNT, 0, 16⟩
def SEC_CNT_FAILS : Fld := ⟨SEC_CNT, 16, 16⟩
def SEC_IDPUB (i : Nat) : Nat := 0x20100 + 0x4 * i
def SEC_NONCE (i : Nat) : Nat := 0x20140 + 0x4 * i
def SEC_REPORT (i : Nat) : Nat := 0x20200 + 0x4 * i

end Sys2Proof.Machine.Reg
end

