-- ==== Sys2Proof/Machine/State.lean ====
section
/-! DEFINITION. The state of the device as plain data: every register of the register map (one sparse table of words), the
engines' own state by block, the frames in passage, and the queue of waiting commands. Structure defaults are the values
after reset. -/

namespace Sys2Proof.Machine

/-- Reasons the machine stops with a fault. No meaning of this model raises one; the type is kept for the interface. -/
inductive Fault where
  /-- Raised by nobody: every command of the table has an effect in every state (safe). -/
  | none
  deriving DecidableEq, Repr

/-- Reasons a command has no meaning. -/
inductive Refusal where
  /-- Raised only by the dispatch, for a row whose meaning has not been written (safe: nothing is claimed of it). -/
  | notModelled (mnemonic : String)
  deriving DecidableEq, Repr

/-! ### Versions and transactions (02 R41–R48, 11) -/

/-- The version fields of a table copy (08 Table 8.1, 11 R240): `pend` staged in an open transaction, `sup` superseded,
`bslot` and `dslot` the slots of its visibility; `delBy` is the initiator that staged its supersession (08 R178). -/
structure VTag where
  pend : Bool := false
  sup : Bool := false
  bslot : Nat := 0
  dslot : Nat := 0
  delBy : Option Nat := none
  deriving DecidableEq, Repr

/-- Where a COMMITTING transaction stands (11 R242–R245). -/
inductive TxnPhase where
  | none
  | waiting
  | bound (slot : Option Nat)
  | switching
  deriving DecidableEq, Repr

/-- What the Ledger holds for one initiator beside its register set (02 R42–R45). -/
structure Txn where
  opened : Nat := 0
  arrived : Nat := 0
  waited : Bool := false
  staged : Tbl (Option Word) := []
  gmem : Tbl (Option (BitVec 288)) := []
  phase : TxnPhase := .none
  deriving DecidableEq, Repr

/-- A cascade commit on the master (11 R255–R258, 16 R361, R366): devices READY, devices DONE, GO or ABORT sent, when PREPARE and the
last repeat were sent, a GO that waits for a checkpoint and since when; the drain masks of the devices by device and the mask
that this device sent last (R258); and the instant of a scheduled retirement (R250). -/
structure Cascade where
  ready : List Nat := []
  doneDev : List Nat := []
  goSent : Bool := false
  abortSent : Bool := false
  started : Nat := 0
  lastSent : Nat := 0
  goPend : Bool := false
  drained : List (Nat × Nat) := []
  sentMask : Nat := 0
  readyAt : Nat := 0
  retireAt : Option Nat := none
  deriving DecidableEq, Repr

/-- The Ledger. -/
structure Ledger where
  txns : Tbl Txn := []
  order : List Nat := []
  switchWait : List Nat := []
  switchInit : Option Nat := none
  stampSlot : Nat := 0
  cc : Cascade := {}
  deriving DecidableEq, Repr


/-! ### Exact-match tables (08) -/

/-- Where an exact entry lies (08 R173, R176, R190). -/
inductive XPlace where
  | bucket (way b slot : Nat)
  | stash (i : Nat)
  | ext
  deriving DecidableEq, Repr

/-- An exact-match entry (08 Table 8.1): flags H, S, L, A, version fields, key and data bytes; `last` its last sighting
(R180), `epoch` the epoch of the commit that made it visible (R192), `idle` the time since which H has been 0 (R190),
`badPar` the quarters whose copy has bad parity (R195). -/
structure XEntry where
  tid : Nat
  key : List Byte
  data : List Byte
  h : Bool := false
  s : Bool := false
  l : Bool := false
  a : Bool := false
  v : VTag := {}
  place : XPlace := .ext
  last : Option Nat := none
  epoch : Nat := 0
  idle : Nat := 0
  badPar : List Nat := []
  deriving DecidableEq, Repr

/-- A learn request (08 R180). -/
structure LearnReq where
  tid : Nat
  key : List Byte
  data : List Byte
  t : Nat
  iport : Nat
  arrived : Nat
  deriving DecidableEq, Repr

/-- A table job (08 R184–R186, 09 R215, 10 R235): table (XMT only), record list address, count, records processed, whether
an ABORT waits, whether its initiator had an open transaction at START, and that initiator. -/
structure Job where
  tid : Nat := 0
  addr : Nat := 0
  count : Nat := 0
  next : Nat := 0
  abort : Bool := false
  open0 : Bool := false
  init : Nat := 0
  deriving DecidableEq, Repr

/-- A REHASH in progress (08 R177). -/
structure Rehash where
  tid : Nat
  seed0 : Nat
  seed1 : Nat
  recAddr : Nat
  deriving DecidableEq, Repr

/-- A replica of an extent (08 R189): the hot bank it relieves, the bank that holds it, and since when that bank has been cold. -/
structure Replica where
  hot : Nat
  bank : Nat
  coldSince : Nat
  deriving DecidableEq, Repr

/-- The Assayer's pass (08 R192). -/
structure Assay where
  active : Bool := false
  tid : Nat := 0
  idx : Nat := 0
  e0 : Nat := 0
  diff : Bool := false
  deriving DecidableEq, Repr

/-- The exact-match complex. -/
structure Xmt where
  entries : List XEntry := []
  badBuckets : List (Nat × Nat × Nat) := []
  held : List (Nat × Nat) := []
  extents : Tbl Nat := []
  replicas : List Replica := []
  bankAcc : Tbl Nat := []
  bankQ : Tbl Nat := []
  bankLast : Tbl Bool := []
  learnQ : List LearnReq := []
  job : Option Job := none
  rehash : Option Rehash := none
  asy : Assay := {}
  deriving DecidableEq, Repr


/-! ### Routes, objects and groups (09) -/

/-- A route (09 R199): identity, DATA, version fields, and whether it lies in the HBM extension (R203). -/
structure Route where
  v6 : Bool
  vrf : Nat
  plen : Nat
  pfx : Nat
  data : Word
  v : VTag := {}
  ext : Bool := false
  deriving DecidableEq, Repr

/-- A cone (09 R203): family, VRF and the address bits that its routes share, with its last hit and its extension hits in the
current 1 ms window. -/
structure Cone where
  v6 : Bool
  vrf : Nat
  top : Nat
  demoted : Bool := false
  lastHit : Nat := 0
  hits : Nat := 0
  hitsFrom : Nat := 0
  deriving DecidableEq, Repr

/-- The route tables; `badNodes` are internal nodes (family, VRF, depth, leading address bits) not yet rebuilt (R204);
`reserved` is the reservation of R197 in extents, none before the first. -/
structure Lpm where
  routes : List Route := []
  cones : List Cone := []
  badNodes : List (Bool × Nat × Nat × Nat) := []
  job : Option Job := none
  reserved : Option (Nat × Nat) := none
  deriving DecidableEq, Repr

/-- A replication entry (09 Table 9.2): its low 32 bits as written and its DROPS count. -/
structure RepEntry where
  w : Nat
  drops : Nat := 0
  deriving DecidableEq, Repr

/-- A copy of an object (TID 0, 1), ECMP group (2) or replication group (3) (09 R205–R210). -/
structure OCopy where
  tid : Nat
  index : Nat
  data : List Byte := []
  logn : Nat := 0
  members : List Word := []
  buckets : List (Option Word) := []
  devs : List RepEntry := []
  ports : List RepEntry := []
  v : VTag := {}
  bad : Bool := false
  deriving DecidableEq, Repr

/-- The object tables. -/
structure Obj where
  copies : List OCopy := []
  job : Option Job := none
  reserved : Option (Nat × Nat) := none
  deriving DecidableEq, Repr

/-! ### Associative search (10) -/

/-- A rule copy of the rule store (10 R218, R229, R230): list, position and copy, value and mask bytes, action, SMASK, the
initiator of a pending copy and the initiator that staged its clearing; `bad` are the instances whose word is uncorrectable. -/
structure ACopy where
  list : Nat
  pos : Nat
  copy : Nat
  value : List Byte
  mask : List Byte
  action : Word
  smask : Nat := 0
  pend : Option Nat := none
  clr : Option Nat := none
  bad : List Nat := []
  deriving DecidableEq, Repr

/-- A row group named by instance, list, position and copy. -/
structure AGroup where
  inst : Nat
  list : Nat
  pos : Nat
  copy : Nat
  deriving DecidableEq, Repr

/-- The associative search unit: rule copies (the same in all instances but for `bad`), queued rewrites of row groups (from the
scrubber or not), blocks with a stale class summary and the summaries by list × 128 + block of the list, and the rows scrubbed
in each instance's pass. A copy with SMASK 0 that is not pending is free and is not listed. -/
structure Acs where
  copies : List ACopy := []
  rewrites : List (AGroup × Bool) := []
  stale : List Nat := []
  summary : Tbl (BitVec 256) := []
  job : Option Job := none
  scrubAt : Tbl Nat := []
  deriving DecidableEq, Repr


/-! ### Host link and descriptor rings (17) -/

/-- A submission entry fetched and not yet arrived: its index, and the kind, completion ring and slice under which it was fetched. -/
structure Fetch where
  idx : Nat
  inject : Bool
  cq : Nat
  slice : Nat
  deriving DecidableEq, Repr

/-- A submission ring (17 Table 17.5, R374, R378): configuration, HEAD, TAIL, round-robin credit, the RXBUF entries cached, and the
entries fetched that have not arrived. -/
structure SRing where
  en : Bool := false
  inject : Bool := true
  logsz : Nat := 0
  eng : Nat := 0
  slice : Nat := 0
  cq : Nat := 0
  weight : Nat := 0
  burst : Nat := 0
  err : Bool := false
  base : Nat := 0
  head : Nat := 0
  tail : Nat := 0
  credit : Nat := 0
  cache : List (Nat × List Byte) := []
  fetched : List Fetch := []
  deriving DecidableEq, Repr

/-- A completion ring (17 Table 17.6, R384, R385, R397): configuration, HEAD, TAIL, records in the hold, places reserved, stop, a tail
writeback that is due, the times at which the records not consumed were written, and the state of its interrupt source. -/
structure CRing where
  en : Bool := false
  logsz : Nat := 0
  thresh : Nat := 0
  timer : Nat := 0
  base : Nat := 0
  wb : Nat := 0
  head : Nat := 0
  tail : Nat := 0
  hold : List (List Byte) := []
  reserved : Nat := 0
  stop : Bool := false
  wbDue : Bool := false
  born : List Nat := []
  asserted : Bool := false
  deriving DecidableEq, Repr

/-- An INJECT entry accepted and waiting for its buffer or its data (17 R380). -/
structure Inject where
  ring : Nat
  cq : Nat
  idx : Nat
  entry : List Byte
  frame : Nat
  deriving DecidableEq, Repr

/-- The host interface: rings, the last ring that each engine visited, entries on their way into frames, the timestamp queue (R386),
PME_En of the function, and the PM_PME messages sent (R394). -/
structure Hif where
  sr : Tbl SRing := []
  cr : Tbl CRing := []
  engP : Tbl Nat := []
  injects : List Inject := []
  tsQ : List (List Byte) := []
  pmeEn : Bool := false
  pmes : Nat := 0
  deriving DecidableEq, Repr

/-- An interrupt source (17 R388, R390): EN, PRIO, TARGET, RAW, P and the target that it is bound to. -/
structure ISrc where
  en : Bool := false
  prio : Nat := 0
  tgt : Nat := 0
  raw : Bool := false
  p : Bool := false
  bound : Option Nat := none
  deriving DecidableEq, Repr

/-- An interrupt target (17 R391–R394): message address and data, MASK, SLEEP, MSG_OUT, INSVC, and the source whose sample answer it
waits for. -/
structure ITgt where
  addr : Nat := 0
  data : Word := 0
  mask : Bool := true
  sleep : Bool := false
  msgOut : Bool := false
  insvc : Option Nat := none
  sample : Option Nat := none
  deriving DecidableEq, Repr

/-- The interrupt controller: sources and targets, 256 the island, whose target software cannot mask. -/
structure Icu where
  src : Tbl ISrc := []
  tgt : Tbl ITgt := []
  deriving DecidableEq, Repr


/-! ### Lookups in flight between workshops and tables (06 R133, 07 R152) -/

/-- The lookup kinds of the micro-word's LOP field (07 Table 7.8). -/
inductive LKind where
  | exact | learn | lpm | obj | ecmp | acs | police | count
  deriving DecidableEq, Repr

/-- A lookup sent and not yet returned: the workshop, context and result register it is tagged with, its kind, table or
profile number and key, and the frame facts that it carries. -/
structure Lookup where
  wks : Nat
  ctx : Nat
  reg : Nat
  kind : LKind
  tid : Nat
  key : List Byte
  vslot : Nat
  frame : Nat
  t : Nat
  iport : Nat
  len : Nat := 0
  dp : Nat := 0
  pass : Nat := 0
  issued : Nat := 0
  res : Option (BitVec 128) := none
  deriving DecidableEq, Repr


/-! ### Frames in passage (00 R14, 01 R19) -/

/-- Where a frame stands in its passage (01 Table 1.2). -/
inductive Stage where
  | staging | waitBuf | headQ | parsing | parsed | dispatch | pass | ordered | voq | spilled | dequeued | egDispatch | egPass
  | egOrdered | egQ | transmit | done
  deriving DecidableEq, Repr

/-- Where a queued frame's bytes are (12 R274, R276): on die, being written to a spill block, spilled, or returning. -/
inductive Spill where
  | none | writing | spilled | returning
  deriving DecidableEq, Repr

/-- A frame (or a multicast copy) in passage: its bytes so far, its metadata (00 Table 0.5) and the facts that later steps use. -/
structure Frame where
  bytes : List Byte := []
  iport : Nat := 0
  vslot : Nat := 0
  gen : Nat := 0
  stamped : Bool := false
  post : Bool := false
  tc : Nat := 0
  dp : Nat := 0
  iclass : Nat := 0
  otkt : Nat := 0
  etkt : Nat := 0
  slice : Nat := 0
  eslice : Nat := 0
  voqid : Nat := 0
  mcast : Bool := false
  group : Nat := 0
  rid : Nat := 0
  reason : Nat := 0
  pflags : Nat := 0
  phits : BitVec 64 := 0
  t : Nat := 0
  stage : Stage := .done
  ended : Bool := false
  fcs : Option Bool := none
  ct : Bool := false
  wasSpilled : Bool := false
  spill : Spill := .none
  marked : Bool := false
  oversize : Bool := false
  buf : Option (Nat × Nat) := none
  eport : Nat := 0
  egq : Nat := 0
  etime : Nat := 0
  etx : Nat := 0
  head : List Byte := []
  intent : List Byte := []
  edited : List Byte := []
  parDrop : Bool := false
  pfcN : Nat := 0
  origin : Option Nat := none
  acsDeny : Bool := false
  remote : Option Nat := none
  arrived : Nat := 0
  bypass : Bool := false
  tf : Nat := 0
  cut : Nat := 0
  invFcs : Bool := false
  polRed : Bool := false
  oneStep : Option (Bool × Nat × Nat) := none
  twoStep : Option Nat := none
  txT : Nat := 0
  punted : Nat := 0
  deriving DecidableEq, Repr

/-- An event that may trigger a capture (18 R415, R416): the trigger that a pass names or none for a drop, the REASON, whether the frame's
bytes are those after the egress edits, the frame, its COOKIE and the time base in nanoseconds. -/
structure CapEvent where
  prog : Option Nat := none
  reason : Nat := 0
  egress : Bool := false
  frame : Frame
  cookie : List Byte := []
  t : Nat
  deriving DecidableEq, Repr


/-! ### Buffers, pools and virtual output queues (12) -/

/-- What a buffer carries beside its frame (12 R262): audit stamp, EQ bit, version slot and generation, stage bit and the number
of copies that still hold it. -/
structure BufUnit where
  stamp : Nat := 0
  eq : Bool := false
  vslot : Nat := 0
  gen : Nat := 0
  post : Bool := false
  copies : Nat := 1
  deriving DecidableEq, Repr

/-- A buffer request that waits (12 R264): requester 0–19, frame, size needed, and whether it has waited. -/
structure BufReq where
  requester : Nat
  frame : Nat
  size : Nat
  waited : Bool := false
  deriving DecidableEq, Repr

/-- A 4 KiB spill block (12 R275): the VOQ that owns it, bytes used beside its header, the frames with bytes in it and the
frames that start in it, each with its VSLOT and GEN, and its audit stamp. -/
structure SpillBlk where
  voq : Nat
  used : Nat := 0
  frames : List Nat := []
  starts : List (Nat × Nat × Nat) := []
  stamp : Nat := 0
  deriving DecidableEq, Repr

/-- The Cooper, the spill engine and the Tally: whether the pool counts are fixed, the requests in arising order, the allocated
buffers by handle, the allocated spill blocks in chain order, and the Tally's place. -/
structure Buf where
  fixed : Bool := false
  reqs : List BufReq := []
  units : Tbl (Option BufUnit) := []
  blks : List SpillBlk := []
  tallyAt : Nat := 0
  deriving DecidableEq, Repr

/-- The VOQ block: queues of frames by VOQID, drain-rate estimates and bytes dequeued in the window (R273), the destination table
and the multicast map (R269, R270), credit balances (14 R321) and the instants of the last reports (14 R318, 16 R359), released results waiting for
enqueue, and the time of the last ageing visit. -/
structure Voq where
  q : Tbl (List Nat) := []
  rate : Tbl Nat := []
  deq : Tbl Nat := []
  dest : Tbl Word := []
  mc : Tbl Word := []
  bal : Tbl Int := []
  reportAt : Tbl Nat := []
  enqQ : List Nat := []
  deriving DecidableEq, Repr

/-! ### Ports (03) -/

/-- The port complexes beside their registers: PFC byte counts and last PFC times by port × 8 + priority (R59), pause ends (R60),
head queues by slice (R58), PHYs that are up (R62), and what went out on the lines: PFC frames (port, priority, quanta) and frames
(port, bytes, ended with an inverted FCS). -/
structure Prt where
  pfc : Tbl Nat := []
  pfcAt : Tbl Nat := []
  pauseEnd : Tbl Nat := []
  hq : Tbl (List Nat) := []
  phyUp : Tbl Bool := []
  pfcOut : List (Nat × Nat × Nat) := []
  lineOut : List (Nat × List Byte × Bool) := []
  deriving DecidableEq, Repr

/-! ### The Loom (04) -/

/-- A notice in progress (04 R80–R84): its input (none: host), map, time t0, deadline in µs, and class 0 decrease, 1 increase,
2 no change. -/
structure Notice where
  input : Option Nat
  map : Nat
  t0 : Nat
  deadline : Nat
  cls : Nat
  deriving DecidableEq, Repr

/-- A FlexE group: the notice in progress, the map last accepted, the calendars in use, the derived calendar waiting for its
switch, the CR and CA bits, the time from which a switch is forced for a PHY fault, PHYs with overhead lock, clients held down for a PHY fault, PHYs clean since, a
restore in progress or to be retried, and whether the Porter has still to take the new rates. -/
structure LoomGrp where
  notice : Option Notice := none
  accepted : Option Nat := none
  derive : Bool := false
  cal : List Nat := []
  rcal : List Nat := []
  own : List Nat := []
  next : Option (List Nat) := none
  nextMap : Option Nat := none
  cr : Bool := false
  ca : Bool := false
  forceFrom : Option Nat := none
  reqAt : Nat := 0
  lock : List Nat := []
  held : List Nat := []
  clean : Tbl Nat := []
  restore : Bool := false
  retryAt : Option Nat := none
  rates : Bool := false
  deriving DecidableEq, Repr

/-- The Loom: groups, the rise time and group of each LRN_ACK that is high (input 8: the host), and the group of the host's
notice. -/
structure Loom where
  grp : Tbl LoomGrp := []
  ack : Tbl (Option (Nat × Nat)) := []
  deriving DecidableEq, Repr

/-! ### Counters (18) -/

/-- An event on its way to the programmable counters (18 R401): a drop with its code and port, an interrupt cause, a fault raise. -/
inductive CEvent where
  | drop (reason port : Nat)
  | int (src bit : Nat)
  | fault (src inst : Nat)
  deriving DecidableEq, Repr

/-- A programmable counter (18 R400): value, SAT, and its two configuration words; `prev` is the last condition sample. -/
structure Prog where
  value : Nat := 0
  sat : Bool := false
  cfg0 : Word := 0
  cfg1 : Word := 0x40
  prev : Bool := false
  deriving DecidableEq, Repr

/-- A dump being written (18 R412): its first address, SEQ, and whether it goes to host memory. -/
structure Dump where
  base : Nat
  seq : Nat
  host : Bool
  deriving DecidableEq, Repr

/-- The counter block: programmable counters, port, queue and drop counters (R407), page captures (R409), the dump being written and the
SEQ of the last dump begun (R412). -/
structure Cnt where
  prog : Tbl Prog := []
  port : Tbl Nat := []
  queue : Tbl Nat := []
  drop : Tbl Nat := []
  pageCap : Tbl (Option (Nat × Word)) := []
  dump : Option Dump := none
  seq : Nat := 0
  deriving DecidableEq, Repr

/-! ### Overload (15) -/

/-- The overload stages: those whose trigger held in the current window, in the last one (R335), and since the last sample of the condition
lines (18 R401); and the punt buckets in
thousandths of a frame (R341), full at reset. -/
structure Ovl where
  hit : List Nat := []
  was : List Nat := []
  cyc : List Nat := []
  punt : Tbl Nat := []
  deriving DecidableEq, Repr


/-! ### Parsers (05) -/

/-- A parse (05 R98): node, cursor, steps, nodes visited, layers (LTYPE, OFF, LEN), key and deep-extract vectors, PFLAGS and PHITS. -/
structure Parse where
  node : Nat := 0
  c : Nat := 0
  steps : Nat := 0
  visits : List Nat := []
  layers : List (Nat × Nat × Nat) := []
  key : List Byte := []
  deep : List Byte := []
  pflags : Nat := 0
  phits : BitVec 64 := 0
  deriving DecidableEq, Repr

/-- The parsers: the frames that a slice's engines hold, in head-queue order, and the parse of each frame until its ticket is
released. -/
structure Prs where
  eng : Tbl (List Nat) := []
  res : Tbl (Option Parse) := []
  deriving DecidableEq, Repr


/-! ### Order tickets and dispatch (06) -/

/-- An outstanding ticket of a reorder stage (06 R129): number, key, frame, whether it is done or skipped, and
whether its head copy is lost (06 WKS source 2). -/
structure Ticket where
  num : Nat
  key : Nat
  frame : Nat
  done : Bool := false
  skipped : Bool := false
  lost : Bool := false
  deriving DecidableEq, Repr

/-- A reorder stage: its outstanding tickets in ticket order, and the time at which the present blocker became the blocker (R130). -/
structure Ord where
  out : List Ticket := []
  since : Nat := 0
  deriving DecidableEq, Repr

/-- The reorder stages and dispatch queues, by 2 × slice + 1 for egress. -/
structure Order where
  ord : Tbl Ord := []
  disp : Tbl (List Nat) := []
  deriving DecidableEq, Repr

/-! ### The Porter (14) -/

/-- A policer (14 R322, R323): the five configuration words, buckets in hundredths of a byte, the instant of the last refill and
whether its configuration is lost (R333). -/
structure Policer where
  cir : Nat := 0
  pir : Nat := 0
  cbs : Nat := 0
  pbs : Nat := 0
  ctl : Nat := 0
  tc : Nat := 0
  tx : Nat := 0
  last : Nat := 0
  bad : Bool := false
  deriving DecidableEq, Repr

/-- Samples of an egress queue (14 R330). -/
structure Smp where
  depth : Nat := 0
  soj : Nat := 0
  lat : Nat := 0
  sum : Nat := 0
  count : Nat := 0
  deriving DecidableEq, Repr

/-- The Porter: egress queues (16 P + q; 4096 and 4097 for ports 256 and 257), virtual times by port and tags by queue (R313), queues
eligible at the last selection instant and the weighted queue chosen there, shaper tokens by queue and (4096 + P) by port (R315), frames in transmission by port, credit
accumulators by port (511: the multicast flows, R319), flows by source × 4096 + port × 8 + class with the time of their last ON
(R318), rotating source pointers, virtual times, tags and wake states of the credit classes (R320), reports (port, class, ON) and credits (VOQ, bytes) on their
way on this device, policers by quarter × 16384 + index, gate entries by (2 × port + list) × 64 + entry, pending gate lists with
the instant of their switch (R327), the stop of port 256 on egress bytes (17 R381), and samples (R330). -/
structure Sch where
  eq : Tbl (List Nat) := []
  v : Tbl Nat := []
  tag : Tbl Nat := []
  elig : Tbl Bool := []
  chosen : Tbl (Option Nat) := []
  tok : Tbl Int := []
  busy : Tbl (Option Nat) := []
  acc : Tbl Nat := []
  flows : Tbl (Option Nat) := []
  ptr : Tbl Nat := []
  crV : Tbl Nat := []
  crTag : Tbl Nat := []
  crWas : Tbl Bool := []
  reports : List (Nat × Nat × Bool) := []
  credits : List (Nat × Nat) := []
  pol : Tbl Policer := []
  gates : Tbl (Nat × Nat) := []
  gatePend : Tbl (Option Nat) := []
  hostXoff : Bool := false
  smp : Tbl Smp := []
  smpLast : Tbl Smp := []
  smpEnd : Nat := 0
  deriving DecidableEq, Repr


/-! ### Workshops (06, 07) -/

/-- A thread state (06 Table 6.1); RUN lasts within one issue. -/
inductive TState where
  | free | loading | ready | wait
  deriving DecidableEq, Repr

/-- What a waiting thread waits for (06 R133, 07 R146, R149): a result register, a lookup slot, the quarter's search queue, or all its
lookups. -/
inductive WaitFor where
  | none | reg (r : Nat) | slot | search | all
  deriving DecidableEq, Repr

/-- A result register (07 R143, R152). -/
inductive LReg where
  | never
  | outstanding
  | result (v : BitVec 128)
  deriving DecidableEq, Repr

/-- A thread context (06 R121, 07 R143): pass number, frame, pass kind, frame area, registers, flags, return stack, egress head
length, address, words issued, and the recorded edit requests. -/
structure Ctx where
  st : TState := .free
  wait : WaitFor := .none
  pass : Nat := 0
  frame : Nat := 0
  egress : Bool := false
  area : List Byte := []
  g : List Word := []
  l : List LReg := []
  z : Bool := false
  n : Bool := false
  c : Bool := false
  v : Bool := false
  stack : List Nat := []
  hl : Nat := 0
  pc : Nat := 0
  issues : Nat := 0
  cksum : List Nat := []
  oneStep : Option (Bool × Nat × Nat) := none
  twoStep : Bool := false
  deriving DecidableEq, Repr

/-- A journeyman (06 R120): the thread that issued last and a thread that yielded. -/
structure Jman where
  last : Nat := 7
  skip : Option Nat := none
  deriving DecidableEq, Repr

/-- The workshops: contexts by 256 × workshop + context (journeyman × 8 + thread), journeymen by 32 × workshop + journeyman, steal
pointers, the number of passes loaded, and when each wake began. -/
structure Wks where
  ctx : Tbl Ctx := []
  jm : Tbl Jman := []
  steal : Tbl Nat := []
  passes : Nat := 0
  wakeAt : Tbl Nat := []
  deriving DecidableEq, Repr

/-- A control-store image (07 R156): version, IFMT, entry addresses, words, and the digest of its container (21 Table 21.5). -/
structure Image where
  digest : List Byte := []
  ver : Nat := 0
  fmt : Nat := 0
  ient : Nat := 0
  eent : Nat := 0
  words : Tbl (BitVec 256) := []
  deriving DecidableEq, Repr

/-- Where the roll of one quarter stands (07 R158): to choose the next workshop, waiting for its state to settle, for a substitute to
wake, for it to drain, for its store to be written, or for it to wake. -/
inductive RollPhase where
  | next | settle | sub (k : Nat) | drain | write | wake
  deriving DecidableEq, Repr

/-- A quarter of a rolling patch: its present workshop, whether that was AWAKE, and the phase. -/
structure Roll where
  n : Nat := 0
  was : Bool := false
  phase : RollPhase := .next
  deriving DecidableEq, Repr

/-- The control store (07 R140, R158–R162): the two image buffers, the store of each workshop, and words (workshop, address) whose
error has not been rewritten; the command in progress (0 none, 1 LOAD, 2 PATCH) with its length, the version that it brings in, the
RESULT of an aborted patch, the quarters in progress and those to come, and a block reset that waits with its RESET_CAUSE bit (R161). -/
structure Cst where
  bufs : Tbl Image := []
  store : Tbl Image := []
  bad : List (Nat × Nat) := []
  cmd : Nat := 0
  len : Nat := 0
  ver : Nat := 0
  result : Nat := 0
  roll : Tbl (Option Roll) := []
  pend : List Nat := []
  rstPend : Option Nat := none
  deriving DecidableEq, Repr


/-! ### The cascade (16) -/

/-- A cell (R351, Table 16.2), the link and time base nanoseconds of its arrival, and whether staging lost it (CLY source 0). -/
structure Cell where
  type : Nat := 1
  cls : Nat := 0
  twin : Bool := false
  sof : Bool := false
  eof : Bool := false
  hops : Nat := 0
  dst : Nat := 0
  src : Nat := 0
  vslot : Nat := 0
  gen : Nat := 0
  len : Nat := 256
  seq : Nat := 0
  part : Nat := 0
  payload : List Byte := []
  link : Nat := 0
  t : Nat := 0
  bad : Bool := false
  deriving DecidableEq, Repr

/-- A frame that a reorder context is putting together (R356): its payload bytes and cells so far, whether its SOF cell counted it
in POST (R357), and whether it is already lost. -/
structure Build where
  bytes : List Byte := []
  cells : Nat := 0
  vslot : Nat := 0
  gen : Nat := 0
  counted : Bool := false
  lost : Bool := false
  deriving DecidableEq, Repr

/-- A reorder context (R353, R355, R356): N (none: no state), how many numbers before N it has passed (at most 65,536), the ranges
(first, count) of those that it skipped, the cells held, the start of its timer, whether it has changed since its last ACK, and the
frame being put together. -/
structure Reord where
  n : Option Nat := none
  depth : Nat := 0
  skipped : List (Nat × Nat) := []
  held : List Cell := []
  since : Option Nat := none
  changed : Bool := false
  build : Option Build := none
  deriving DecidableEq, Repr

/-- A link (R347, R350, R360): good HELLOs in a row, the time of the last one, the time of the PING that is out, the CTRL, CKPT and
DATA cells queued, and the LINK messages queued. -/
structure LinkQ where
  good : Nat := 0
  helloAt : Nat := 0
  pingAt : Option Nat := none
  cells : List Cell := []
  msgs : List (List Byte) := []
  deriving DecidableEq, Repr

/-- A transit record (R357). -/
structure Transit where
  dst : Nat
  cls : Nat
  seq : Nat
  vslot : Nat
  gen : Nat
  deriving DecidableEq, Repr

/-- A control message delivered: source device, arrival link and time, and its 16 bytes. -/
structure CtlMsg where
  src : Nat
  link : Nat := 0
  t : Nat := 0
  b : List Byte
  deriving DecidableEq, Repr

/-- The cascade unit: control messages that wait for a cell (destination device and 16 bytes, R360), frames that wait to be cut
into cells (R352), links, rotating pointers by destination (R350), SEQ counters by 16 × destination + class, 8 for CTRL (R353),
reorder contexts by 16 × source + class, transit records, messages delivered from CTRL and LINK cells, cells sent on the lines (link and
bytes), the reach table (R350); the time of the last announcement sent and of the last one heard (R363, R367); the remote
access (R362): tag, time and tries, whether it reads, and as a target the last tag with its answer; checkpoints (R365): SEQ, time
of the last one sent, whether one is due, its bytes, whether it is acknowledged, parts received, the two stores and the one that is the
latest valid; HANDOVER step and start (R368); the rehearsal's tag, start and silent devices (R369). -/
structure Cly where
  ctrl : List (Nat × List Byte) := []
  txq : List Nat := []
  links : Tbl LinkQ := []
  rr : Tbl Nat := []
  seq : Tbl Nat := []
  ctx : Tbl Reord := []
  transit : List Transit := []
  inbox : List CtlMsg := []
  linkIn : List (Nat × List Byte) := []
  out : List (Nat × List Byte) := []
  reach : Tbl (BitVec 256) := []
  annAt : Option Nat := none
  heardAt : Nat := 0
  rwTag : Nat := 0
  rwAt : Nat := 0
  rwTries : Nat := 0
  rwRead : Bool := false
  lastTag : Option Nat := none
  lastAck : List Byte := []
  ckSeq : Nat := 0
  ckAt : Nat := 0
  ckDue : Bool := false
  ckpt : List Byte := []
  ckAcked : Bool := true
  parts : Tbl (List Byte) := []
  store0 : List Byte := []
  store1 : List Byte := []
  valid : Option Bool := none
  ho : Nat := 0
  hoAt : Nat := 0
  rehTag : Nat := 0
  rehAt : Nat := 0
  rehWait : List Nat := []
  deriving DecidableEq, Repr


/-! ### The HBM stacks (13) -/

/-- A pseudo-channel: refresh debt (R293), power-down (R294), whether its next make-up refresh re-centres the eyes (R297), the end of
its last access or refresh, and the times of its uncorrectable errors in the last second (R299). -/
structure HbmPc where
  debt : Nat := 0
  pd : Bool := false
  recentre : Bool := false
  last : Nat := 0
  errs : List Nat := []
  deriving DecidableEq, Repr

/-- The predicted page policy of a bank (13 R291). -/
structure HbmBank where
  ctr : Nat := 0
  opn : Bool := false
  row : Nat := 0
  deriving DecidableEq, Repr

/-- The six stacks: pseudo-channels by 64 × stack + pc, banks by 48 × that + bank, requests accepted and waiting by stack, lines
served to X, C and D in the window by 4 × stack + class (R302), stacks held in self-refresh by SREF_ENTER (R295), stacks that owe the
retrain of a block reset (R301), the next line that the scrubber reads and when the eyes were last re-centred. -/
structure Hbc where
  pc : Tbl HbmPc := []
  bank : Tbl HbmBank := []
  q : Tbl (List HReq) := []
  served : Tbl Nat := []
  cmdRef : Tbl Bool := []
  retrain : Tbl Bool := []
  scrubAt : Tbl Nat := []
  eyeAt : Tbl Nat := []
  deriving DecidableEq, Repr

/-! ### The Lumben island (20) -/

/-- The island (20): island-only state; whether its fast clock runs; filter states by channel (none while disabled, R454); ticks for which
each quarter has been above its target (R457); wakes chosen (workshop, whether it restores its quarter, earliest instant), the wakes and
sleeps that the CST asks for, the instants of the wakes begun in the last 10 µs and the quarter whose turn is next (R458, R459); level
targets and changes in progress (target and end) by slice (R461); the integrator and the last P of the cooling loop (R465); tach
readings and slow gates in a row (R463); the last reading of each sensor with its instant, and its readings in a row at or above and below
the threshold (sensors 0–15 slices, 16–19 chiplets, 20–25 HBM stacks; R453, R466, R470); the analog inputs and the device power as last
sampled; the safe-state conditions that hold (kind 1–4, rule or sensor; R466), rules with an uncorrectable error (R470), and the automatic
valve states (R464); and the instants of the last tick and of the last
CPER boundary. -/
structure Aon where
  only : Bool := false
  fast : Bool := false
  filt : Tbl (Option Nat) := []
  below : Tbl Nat := []
  chosen : List (Nat × Bool × Nat) := []
  cstWake : List Nat := []
  cstSleep : List Nat := []
  starts : List Nat := []
  turn : Nat := 0
  ltgt : Tbl Nat := []
  change : Tbl (Option (Nat × Nat)) := []
  integ : Int := 0
  pw : Nat := 0
  tach : Tbl Nat := []
  slow : Tbl Nat := []
  temp : Tbl Nat := []
  tempAt : Tbl Nat := []
  high : Tbl Nat := []
  low : Tbl Nat := []
  ain : Tbl Nat := []
  power : Nat := 0
  conds : List (Nat × Nat) := []
  badRules : List Nat := []
  vopen : Tbl Bool := []
  tickAt : Nat := 0
  cperAt : Nat := 0
  deriving DecidableEq, Repr

/-! ### Fault collection (19) -/

/-- A fault source at the Bellman (19 R436, R437, R449): configuration, COUNT, the reaction in progress (0 none) with the page that raised
it and the SEQ of its record, REPEATS, and whether its configuration is lost. -/
structure FltSrc where
  react : Nat := 0
  escReact : Nat := 0
  escN : Nat := 0
  noShadow : Bool := false
  count : Nat := 0
  ireact : Nat := 0
  page : Nat := 0
  seq : Nat := 0
  repeats : Nat := 0
  bad : Bool := false
  deriving DecidableEq, Repr

/-- A reaction shadow (19 R444): the block and page reset, the SEQ of the record that opened it, the instants of the order and of the end
of the reset. -/
structure Shadow where
  blk : Nat
  page : Nat
  seq : Nat
  since : Nat
  done : Option Nat := none
  deriving DecidableEq, Repr

/-- The Bellman: sources by ID, the record store by slot with the slots that software has read, open shadows in order, and the SEQ of a
chip-reset record whose reset has not begun (19 R443, R447). -/
structure Flt where
  src : Tbl FltSrc := []
  recs : Tbl (List Word) := []
  read : List Nat := []
  shadows : List Shadow := []
  chipPend : Option Nat := none
  deriving DecidableEq, Repr


/-! ### Security (21) -/

/-- An image that passed its check (21 R471, R472, R479): digest, key slot, security version and version. -/
structure SecImg where
  digest : List Byte := []
  slot : Nat := 0
  svn : Nat := 0
  ver : Nat := 0
  deriving DecidableEq, Repr

/-- The security block: the SEC command in progress (CMD code, 0 none) with the argument and length it took; the counter value and the
slots that commands have blown (none: as the device was before the model began); whether the fuses are unreadable and whether a
known-answer test failed (R477); the running BOOT and ISLAND images; the digest of the last GRAPH committed and of the one whose
transaction runs (R475); and the report being signed (R482). -/
structure Sec where
  cmd : Nat := 0
  arg : Nat := 0
  len : Nat := 0
  svn : Option Nat := none
  revoked : Nat := 0
  badFuses : Bool := false
  katFail : Bool := false
  boot : Option SecImg := none
  island : Option SecImg := none
  graph : List Byte := []
  graphPend : Option (List Byte) := none
  report : List Byte := []
  deriving DecidableEq, Repr

/-! ### The device -/

/-- The time base (18 R419): seconds (48 bits), nanoseconds and the fraction in units of 2⁻⁴⁰ ns. -/
structure TimeBase where
  sec : Nat := 0
  ns : Nat := 0
  frac : Nat := 0
  deriving DecidableEq, Repr

/-! ### Capture and time (18) -/

/-- The Scrivener (18 R416, R418): queued records with their trigger, whether the next record written follows a loss, and by trigger the
period (second and number) of its last event with the records made in it. -/
structure Cap where
  q : List (List Byte) := []
  lost : Bool := false
  per : Tbl (Nat × Nat × Nat) := []
  deriving DecidableEq, Repr

/-- The time block beside the time base (18 R420, R424, R426, R427): a slew in 2⁻⁴⁰ ns over `slewN` nanoseconds of which `slewI` have passed,
captured words by 4 × initiator + register (0 SLO, 1 SHI, 2 TIM_PPS_IN_SLO), the rise of PPS_OUT while it is high, the DEPTH and time of
the last TIME by link, the time of the last TIME received and of the last one sent. -/
structure Tim where
  slew : Int := 0
  slewN : Nat := 0
  slewI : Nat := 0
  cap : Tbl (Option Word) := []
  pps : Option Nat := none
  heard : Tbl (Option (Nat × Nat)) := []
  lastAt : Nat := 0
  sentAt : Nat := 0
  deriving DecidableEq, Repr

/-- The state of the device. `now` counts nanoseconds of the model's time (it advances when no command waits); `free` counts
the free values used (the model's own field). `straps` holds STRAP0–3 as latched at the release of RESET_N (23 R505). Registers are held once, in `regs`, by BAR0 byte address. -/
structure State where
  now : Nat := 0
  free : Nat := 0
  pending : List Instr := []
  tb : TimeBase := {}
  regs : Tbl Word := []
  unsw : Tbl (Option Word) := []
  slotVals : Tbl (Option Word) := []
  hiCap : Tbl (Option (Nat × Word)) := []
  loHold : Tbl (Option Word) := []
  rdata : Tbl Word := []
  rbytes : List Byte := []
  hbm : List Host.Cell := []
  raises : List Raise := []
  reports : List CEvent := []
  capEv : List CapEvent := []
  safe : Bool := false
  held : Bool := false
  refLost : Bool := false
  straps : BitVec 4 := 0
  icuMsgs : List (Nat × Bool) := []
  hostWrites : List (Nat × List Byte) := []
  frames : Tbl Frame := []
  nextFrame : Nat := 0
  lkp : List Lookup := []
  ldg : Ledger := {}
  gmem : Tbl (BitVec 288) := []
  gmemSlot : Tbl (Option (BitVec 288)) := []
  xmt : Xmt := {}
  lpm : Lpm := {}
  obj : Obj := {}
  acs : Acs := {}
  hif : Hif := {}
  icu : Icu := {}
  buf : Buf := {}
  voq : Voq := {}
  prt : Prt := {}
  loom : Loom := {}
  cnt : Cnt := {}
  cap : Cap := {}
  tim : Tim := {}
  ovl : Ovl := {}
  prs : Prs := {}
  ord : Order := {}
  wks : Wks := {}
  cst : Cst := {}
  sch : Sch := {}
  cly : Cly := {}
  hbc : Hbc := {}
  aon : Aon := {}
  flt : Flt := {}
  sec : Sec := {}
  deriving DecidableEq, Repr

/-- The machine right after a power-on reset: every field at its default, so every register at its reset word
(`resetWord`), memory with nothing listed and no command waiting. -/
def State.reset : State := {}

end Sys2Proof.Machine
end

