-- ==== Sys2Proof/Machine/Ops.lean ====
section
/-! DEFINITION. The named operations over registers, interrupts, fault raises, version slots and frames that every meaning
uses. -/

namespace Sys2Proof.Machine

open Reg

/-! ### Numbers and bytes -/

/-- Bits `[lo+n-1:lo]` of a number. -/
def bits (x lo n : Nat) : Nat := (x >>> lo) % 2 ^ n

/-- One bit of a number. -/
def bit (x i : Nat) : Bool := x.testBit i

/-- 1 for true, 0 for false. -/
def b2n (b : Bool) : Nat := if b then 1 else 0

/-- Byte `i` of a byte string as a number; 0 beyond its end. -/
def byteAt (l : List Byte) (i : Nat) : Nat := (l.getD i 0).toNat

/-- `n` bytes of a byte string from `i`; zero beyond its end. -/
def bytesAt (l : List Byte) (i n : Nat) : List Byte := (List.range n).map fun k => l.getD (i + k) 0

/-- Little-endian value of a byte string (08 R184). -/
def leNat : List Byte → Nat
  | [] => 0
  | b :: r => b.toNat + 256 * leNat r

/-- Big-endian (network order, 00 R8) value of a byte string. -/
def beNat (l : List Byte) : Nat := l.foldl (fun a b => a * 256 + b.toNat) 0

/-- The `n` little-endian bytes of a number. -/
def leBytes : Nat → Nat → List Byte
  | 0, _ => []
  | n + 1, x => BitVec.ofNat 8 x :: leBytes n (x / 256)

/-- The `n` big-endian bytes of a number. -/
def beBytes (n x : Nat) : List Byte := (leBytes n x).reverse

/-- The signed value of an `n`-bit number. -/
def sgn (n x : Nat) : Int := if x < 2 ^ (n - 1) then (x : Int) else (x : Int) - 2 ^ n

/-- Overwrite bytes of a byte string from `i` on; the string keeps its length. -/
def patchBytes (l : List Byte) (i : Nat) (new : List Byte) : List Byte :=
  l.zipIdx.map fun (b, k) => if i ≤ k && decide (k < i + new.length) then new.getD (k - i) 0 else b

/-- Replace the element at a position, if it exists. -/
def upd {α : Type} (l : List α) (i : Nat) (f : α → α) : List α := l.zipIdx.map fun (x, k) => if k = i then f x else x

/-- Apply `f` to a state for each element in turn. -/
def forEach {α σ : Type} (l : List α) (f : α → σ → σ) (s : σ) : σ := l.foldl (fun s x => f x s) s

/-- Insert an element before the first one that it is not after. -/
def insertBy {α : Type} (le : α → α → Bool) (x : α) : List α → List α
  | [] => [x]
  | y :: r => if le x y then x :: y :: r else y :: insertBy le x r

/-- Sort a list by an order. -/
def sortBy {α : Type} (le : α → α → Bool) (l : List α) : List α := l.foldr (insertBy le) []

/-! ### The register map (02 R34, R35) -/

/-- First address of the page that holds an address. -/
def pageOf (a : Nat) : Nat := a / 0x1000 * 0x1000

/-- Page index of an address within its block's region (02 R34). -/
def pageIndex (a : Nat) : Nat := (a - blockBase (blockOf a)) / 0x1000

/-- Whether an address lies in an assigned page (02 R34). -/
def assigned (a : Nat) : Bool := decide (pageIndex a < blockPages (blockOf a)) && decide (blockOf a < 24)

/-- The row of the register map that holds an address, if a register lies there. -/
def findRow (a : Nat) : Option RegRow := (blockRows (blockOf a)).find? fun r => r.covers a

/-- The reset word of the word at a BAR0 address: RESET_CAUSE.POR is 1 after a power-on reset (02 Table 2.3); a
block-specific register has its row's word; everything else is 0. -/
def resetWord (a : Nat) : Word :=
  if a % 0x1000 < 0x80 then (if a % 0x1000 = 0x24 then (if assigned a then 1 else 0) else 0)
  else match findRow a with
    | some r => BitVec.ofNat 32 r.reset
    | none => 0

/-- The stored word of a register. -/
def State.rd (s : State) (a : Nat) : Word := Tbl.get resetWord s.regs a

/-- Store a register's word. -/
def State.wr (s : State) (a : Nat) (v : Word) : State := { s with regs := Tbl.set resetWord s.regs a v }

/-- The field value of a word. -/
def Reg.Fld.of (f : Fld) (w : Word) : Nat := bits w.toNat f.lo f.w

/-- A word with one field replaced; a value wider than the field is cut to it. -/
def Reg.Fld.put (f : Fld) (w : Word) (v : Nat) : Word :=
  let m : Word := BitVec.ofNat 32 ((2 ^ f.w - 1) <<< f.lo)
  (w &&& ~~~m) ||| (BitVec.ofNat 32 ((v % 2 ^ f.w) <<< f.lo) &&& m)

/-- The value of a field of a register. -/
def State.get (s : State) (f : Fld) : Nat := f.of (s.rd f.addr)

/-- Set a field of a register. -/
def State.set (s : State) (f : Fld) (v : Nat) : State := s.wr f.addr (f.put (s.rd f.addr) v)

/-- The word by which a block acts: the value before a commit until the block switches (02 R46), else the live word. -/
def State.act (s : State) (a : Nat) : Word :=
  match Tbl.get (fun _ => none) s.unsw a with
  | some w => w
  | none => s.rd a

/-- The value of a staged immediate field by which its block acts (02 R46, R47). -/
def State.cfg (s : State) (f : Fld) : Nat := f.of (s.act f.addr)

/-- Key of a frame-bound value: slot and address. -/
def slotKey (k a : Nat) : Nat := k * 2 ^ 28 + a

/-- The word of a frame-bound register for a version slot (02 R47): the slot's own value where one is kept, else the newest. -/
def State.wordV (s : State) (k a : Nat) : Word :=
  match Tbl.get (fun _ => none) s.slotVals (slotKey k a) with
  | some w => w
  | none => s.rd a

/-- The value of a frame-bound field for a version slot (02 R47). -/
def State.cfgV (s : State) (k : Nat) (f : Fld) : Nat := f.of (s.wordV k f.addr)

/-- CTL.EN of a page (02 Table 2.3). -/
def ctlEn (pg : Nat) : Fld := ⟨pg + 0x08, 0, 1⟩

/-- STAT.RESETTING of a page. -/
def statResetting (pg : Nat) : Fld := ⟨pg + 0x0C, 1, 1⟩

/-- The page is resetting: commands and writes to it have no effect (02 R37). -/
def State.resetting (s : State) (pg : Nat) : Bool := s.get (statResetting pg) == 1

/-! ### Interrupt causes and fault raises (02 R35, 17 R387, R388, 19 R434) -/

/-- Whether a page's interrupt condition holds: INT_STAT and INT_EN not 0 (17 Table 17.4). -/
def State.irqLevel (s : State) (pg : Nat) : Bool := (s.rd (pg + 0x14) &&& s.rd (pg + 0x18)) != 0

/-- The interrupt source of a page (17 Table 17.4): 64 times the block code plus the page index. -/
def irqSource (pg : Nat) : Nat := 64 * blockOf pg + pageIndex pg

/-- Apply a change to a page's interrupt registers and send the ASSERT or DEASSERT that it causes (17 R388); LOOM page 64 has
no source (03 R70). -/
def State.withIrq (s : State) (pg : Nat) (f : State → State) : State :=
  let t := f s
  if s.irqLevel pg = t.irqLevel pg || decide (63 < pageIndex pg) then t
  else { t with icuMsgs := t.icuMsgs ++ [(irqSource pg, t.irqLevel pg)] }

/-- Set an INT_STAT bit of a page; each signalling is an event for the counters (18 Table 18.1). -/
def State.setInt (s : State) (pg b : Nat) : State :=
  let t := s.withIrq pg fun s => s.set ⟨pg + 0x14, b, 1⟩ 1
  { t with reports := t.reports ++ [.int (irqSource pg) b] }

/-- A raise of local fault source `i` of a page (19 R434): the FAULT_STAT bit is set and the raise is sent to the Bellman with
the time base at the occurrence. -/
def State.raise (s : State) (pg i : Nat) (addr master acc detail : Nat := 0) : State :=
  let s := s.set ⟨pg + 0x10, i, 1⟩ 1
  let r : Raise := ⟨64 * blockOf pg + i, pageIndex pg, addr, master, acc, detail, s.tb.sec % 2 ^ 32, s.tb.ns⟩
  { s with
    raises := s.raises ++ [r]
    reports := s.reports ++ [.fault r.src r.inst] }

/-! ### Reactions in progress (19 R437) -/

/-- A fault source at the Bellman. -/
def State.fsrc (s : State) (id : Nat) : FltSrc := Tbl.get (fun _ => {}) s.flt.src id

/-- Replace a fault source. -/
def State.setFsrc (s : State) (id : Nat) (x : FltSrc) : State := { s with flt := { s.flt with src := Tbl.set (fun _ => {}) s.flt.src id x } }

/-- The reaction in progress of source `id` goes on (R437): by its kind until FAULT_STAT is cleared, the trap is acknowledged, the reset
ends, ERROR_N is released or safe state ends. -/
def State.reacts (s : State) (id : Nat) (x : FltSrc) : Bool :=
  match x.ireact with
  | 1 => s.get ⟨x.page + 0x10, id % 64 % 32, 1⟩ == 1
  | 2 => s.get FLT_NMT_PEND == 1
  | 3 => s.resetting x.page
  | 4 => s.get FLT_PIN_ERRN == 1
  | 5 => s.safe
  | _ => false

/-- Reactions that have ended leave their sources with none in progress and REPEATS 0 (R437). -/
def State.fltSettle (s : State) : State :=
  { s with flt := { s.flt with src := s.flt.src.filterMap fun p =>
      let x := if p.2.ireact ≠ 0 && !s.reacts p.1 p.2 then { p.2 with
        ireact := 0
        page := 0
        seq := 0
        repeats := 0 } else p.2
      if x = {} then none else some (p.1, x) } }

/-- The reset of pages ends (02 R37): RESETTING and SRST return to 0, a shadow that it opened has its end (19 R444). -/
def State.resetEnded (s : State) (pgs : List Nat) : State :=
  let s := forEach pgs (fun pg s => (s.set (statResetting pg) 0).set ⟨pg + 8, 1, 1⟩ 0) s
  let sh := s.flt.shadows.map fun (x : Shadow) => if pgs.contains x.page && x.done.isNone then { x with done := some s.now } else x
  ({ s with flt := { s.flt with shadows := sh } }).fltSettle

/-! ### Counters -/

/-- Raise a saturating counter field by `n`. -/
def State.inc (s : State) (f : Fld) (n : Nat := 1) : State := s.set f (min (s.get f + n) (2 ^ f.w - 1))

/-- Raise a saturating counter field; reaching its maximum sets INT_STAT bit `b` of page `pg`. -/
def State.count (s : State) (f : Fld) (pg b : Nat) (n : Nat := 1) : State :=
  let t := s.inc f n
  if decide (s.get f < 2 ^ f.w - 1) && decide (t.get f = 2 ^ f.w - 1) then t.setInt pg b else t

/-- Lower a field that does not fall below 0. -/
def State.dec (s : State) (f : Fld) (n : Nat := 1) : State := s.set f (s.get f - n)

/-- Raise a 64-bit saturating counter held in a _LO and a _HI word. -/
def State.inc64 (s : State) (lo hi : Nat) (n : Nat := 1) : State :=
  let v := min ((s.rd lo).toNat + 2 ^ 32 * (s.rd hi).toNat + n) (2 ^ 64 - 1)
  (s.wr lo (BitVec.ofNat 32 v)).wr hi (BitVec.ofNat 32 (v / 2 ^ 32))

/-! ### Free values (log 4) -/

/-- A free value: unconstrained by any rule; the counter makes each use a fresh one. -/
def State.fresh (s : State) : Word × State := (Config.freeWord s.free, { s with free := s.free + 1 })

/-! ### Host memory and the time base -/

/-- A posted write to host memory (17 R373: in the order in which the device forms them). -/
def State.hostWrite (s : State) (a : Nat) (b : List Byte) : State := { s with hostWrites := s.hostWrites ++ [(a, b)] }

/-- The time base as one number of nanoseconds. -/
def State.tbNs (s : State) : Nat := s.tb.sec * 1000000000 + s.tb.ns

/-- The whole microsecond of the time base. -/
def State.tbUs (s : State) : Nat := s.tbNs / 1000

/-- Whether `us` microseconds have passed since the model time `t0`. -/
def State.elapsedUs (s : State) (t0 us : Nat) : Bool := decide (us * 1000 ≤ s.now - t0)

/-! ### Frames -/

/-- A frame of the table. -/
def State.frame (s : State) (i : Nat) : Frame := Tbl.get (fun _ => {}) s.frames i

/-- Replace a frame; a frame equal to the default is no longer listed. -/
def State.setFrame (s : State) (i : Nat) (f : Frame) : State := { s with frames := Tbl.set (fun _ => {}) s.frames i f }

/-- Change a frame. -/
def State.modFrame (s : State) (i : Nat) (g : Frame → Frame) : State := s.setFrame i (g (s.frame i))

/-- Add a frame and give its number. -/
def State.newFrame (s : State) (f : Frame) : Nat × State :=
  (s.nextFrame, { (s.setFrame s.nextFrame f) with nextFrame := s.nextFrame + 1 })

/-! ### Version slots (11 R238–R240) -/

/-- Serial-number order of 32-bit numbers (11 R238). -/
def precedes (a b : Nat) : Bool :=
  let d := (b + 2 ^ 32 - a) % 2 ^ 32
  decide (0 < d) && decide (d < 2 ^ 31)

/-- The states of a version slot (11 Table 11.1). -/
inductive SlotState where
  | free | binding | current | old | drained | retiring | sweeping | prepared
  deriving DecidableEq, Repr

/-- The code of a slot state in LDG_SLOT_STAT.STATE. -/
def SlotState.code : SlotState → Nat
  | .free => 0 | .binding => 1 | .current => 2 | .old => 3 | .drained => 4 | .retiring => 5 | .sweeping => 6 | .prepared => 7

/-- The slot state of a code. -/
def slotStateOf : Nat → SlotState
  | 1 => .binding | 2 => .current | 3 => .old | 4 => .drained | 5 => .retiring | 6 => .sweeping | 7 => .prepared | _ => .free

/-- The state of slot `k`. -/
def State.slotState (s : State) (k : Nat) : SlotState := slotStateOf (s.get (LDG_SLOT_STAT_STATE k))

/-- Set the state of slot `k`. -/
def State.setSlot (s : State) (k : Nat) (st : SlotState) : State := s.set (LDG_SLOT_STAT_STATE k) st.code

/-- A slot is live in every state except FREE (11 R239). -/
def State.live (s : State) (k : Nat) : Bool := s.slotState k != .free

/-- Epoch of slot `k`. -/
def State.epoch (s : State) (k : Nat) : Nat := s.get (LDG_SLOT_EPOCH_EPOCH k)

/-- Slot `a` is before slot `b` (11 R240). -/
def State.slotBefore (s : State) (a b : Nat) : Bool := precedes (s.epoch a) (s.epoch b)

/-- Slot `a` is at or before slot `b` (11 R240). -/
def State.slotAtOrBefore (s : State) (a b : Nat) : Bool := a == b || s.slotBefore a b

/-- The sixteen slot numbers. -/
def slots : List Nat := List.range 16

/-- The oldest live slot: no live slot is before it. -/
def State.oldestLive (s : State) : Nat :=
  (slots.find? fun k => s.live k && slots.all fun j => !(s.live j && s.slotBefore j k)).getD 0

/-- The newest committed slot. -/
def State.newest (s : State) : Nat := (slots.find? fun k => s.slotState k == .current).getD 0

/-- An entry is a base entry (11 R240): PEND 0, SUP 0 and DSLOT equal to BSLOT. -/
def VTag.base (v : VTag) : Bool := !v.pend && !v.sup && v.dslot == v.bslot

/-- Visibility of a copy to a slot (08 R171, 11 R240); `l` marks a learned entry. -/
def State.visible (s : State) (v : VTag) (l : Bool) (k : Nat) : Bool :=
  !v.pend &&
    (if l then !v.sup || s.slotBefore k v.dslot
     else (v.base || (s.live v.bslot && s.slotAtOrBefore v.bslot k)) && (!v.sup || s.slotBefore k v.dslot))

/-- The version fields after the commit of initiator `i` binds to slot `k` (11 R240, R244): a pending copy becomes visible from
`k`, a copy it supersedes becomes SUP 1 with DSLOT `k`, and a base entry's BSLOT becomes the oldest live slot. -/
def VTag.bind (v : VTag) (i k oldest : Nat) : VTag :=
  if v.pend then (if v.bslot = i then { pend := false, sup := false, bslot := k, dslot := k ^^^ 15, delBy := none } else v)
  else if v.delBy = some i then
    { v with sup := true, dslot := k, bslot := if v.base then oldest else v.bslot, delBy := none }
  else v

/-- The version fields after a binding to slot `k` is undone (11 R246); `none` when the copy is invalidated. -/
def VTag.unbind (v : VTag) (k : Nat) : Option VTag :=
  if !v.pend && !v.sup && v.bslot = k && v.dslot != k then none
  else if v.sup && v.dslot = k then some { v with sup := false, dslot := v.bslot ^^^ 15 } else some v

/-- The version fields after a roll-back or doom of initiator `i` (11 R253); `none` when the pending copy is discarded. -/
def VTag.discard (v : VTag) (i : Nat) : Option VTag :=
  if v.pend && v.bslot = i then none
  else if v.delBy = some i then some { v with delBy := none } else some v

/-- The version fields after slot `k` is freed (11 R240, R249): `none` when the copy is invalidated because every slot before
its DSLOT has drained. -/
def State.freeTag (s : State) (v : VTag) (k : Nat) : Option VTag :=
  if v.sup then
    (if slots.all fun j => j == k || !(s.live j && s.slotBefore j v.dslot) then none
     else if v.bslot = k then
       some { v with bslot := (slots.find? fun j => j != k && s.live j &&
         slots.all fun m => m == k || !(s.live m && s.slotBefore m j)).getD 0 }
     else some v)
  else if !v.pend && v.bslot = k then some { v with dslot := k }
  else some v

/-! ### Completion rings (17 R374, R383–R386, R397) -/

/-- HIF page (17). -/
def hifPage : Nat := 0x60000

/-- A failed host read (17 R398): DMA_ERR, INT_STAT bit 2 and source 0 with the address. -/
def State.dmaErr (s : State) (a : Nat) : State :=
  ((s.count HIF_DMA_ERR_DMA_ERR hifPage 7).setInt hifPage 2).raise hifPage 0 (addr := a)

/-- The host address that a pair of registers holds, from the address of its _LO register. -/
def State.hostAddr (s : State) (lo : Nat) : Nat := (s.rd lo).toNat + 2 ^ 32 * (s.rd (lo + 4)).toNat

/-- A completion ring. -/
def State.cring (s : State) (c : Nat) : CRing := Tbl.get (fun _ => {}) s.hif.cr c

/-- Entries of a ring: 2^LOGSZ. -/
def CRing.size (r : CRing) : Nat := 2 ^ r.logsz

/-- Records in the host ring that software has not consumed. -/
def CRing.fill (r : CRing) : Nat := (r.tail + 2 ^ 16 - r.head) % 2 ^ 16

/-- F of R385: free places of the host ring. -/
def CRing.free (r : CRing) : Nat := r.size - r.fill

/-- R of R385: records held or reserved. -/
def CRing.r (r : CRing) : Nat := r.hold.length + r.reserved

/-- The ring can take a record (17 R385): it is enabled and a reservation is possible. -/
def CRing.canTake (r : CRing) : Bool := r.en && decide (r.r < r.free + 32)

/-- The conditions of the ring's interrupt source (17 R397). -/
def CRing.asserts (r : CRing) (now : Nat) : Bool :=
  (r.thresh != 0 && decide (r.thresh ≤ r.fill)) ||
    (r.timer != 0 && r.fill != 0 && (match r.born with | t :: _ => decide (r.timer * 1000 ≤ now - t) | [] => false)) || r.stop

/-- Replace a completion ring: its stop (17 R385) and the messages of its interrupt source (R388, R397) follow. -/
def State.setCring (s : State) (c : Nat) (r : CRing) : State :=
  let stop := r.en && r.free == 0 && decide (32 ≤ r.r)
  let lvl := { r with stop := stop }.asserts s.now
  let t := { s with
    hif := { s.hif with cr := Tbl.set (fun _ => {}) s.hif.cr c { r with
      stop := stop
      asserted := lvl } }
    icuMsgs := if lvl = r.asserted then s.icuMsgs else s.icuMsgs ++ [(0x600 + c, lvl)] }
  let t := t.set ⟨HIF_HOLD_STOP (c / 32 % 64), c % 32, 1⟩ (b2n stop)
  if stop && !r.stop then (t.count HIF_HOLD_STOPS_HOLD_STOPS hifPage 7).setInt hifPage 3 else t

/-- A record formed without a reservation made before enters the hold of ring `c` (17 R384). -/
def State.formRecord (s : State) (c : Nat) (rec : List Byte) : State :=
  let r := s.cring c
  s.setCring c { r with hold := r.hold ++ [rec] }

/-- A record formed on an earlier reservation of ring `c` enters the hold (17 R384, R385). -/
def State.formReserved (s : State) (c : Nat) (rec : List Byte) : State :=
  let r := s.cring c
  s.setCring c { r with
    hold := r.hold ++ [rec]
    reserved := r.reserved - 1 }

/-- A submission ring. -/
def State.sring (s : State) (n : Nat) : SRing := Tbl.get (fun _ => {}) s.hif.sr n

/-- The record of an INJECT entry (17 Table 17.3), on the reservation of its fetch. -/
def State.injectRecord (s : State) (cq ring idx status reason : Nat) (entry : List Byte) : State :=
  s.formReserved cq
    (leBytes 1 4 ++ leBytes 1 status ++ leBytes 2 ring ++ leBytes 2 idx ++ leBytes 1 reason ++ [0] ++ bytesAt entry 4 4 ++ leBytes 4 0)

end Sys2Proof.Machine
end

