-- ==== Sys2Proof/Machine/Txn.lean ====
section
/-! DEFINITION. Transactions as every block meets them: staged words, conflicts, dooming and the discarding of staged table
changes (02 R42–R44, 11 R253, R254). -/

namespace Sys2Proof.Machine

open Reg

/-- States of a transaction (02 Table 2.7). -/
inductive TxnState where
  | idle | opened | committing | doomed
  deriving DecidableEq, Repr

/-- Code of a transaction state in LDG_TXN_STAT.STATE. -/
def TxnState.code : TxnState → Nat
  | .idle => 0 | .opened => 1 | .committing => 2 | .doomed => 3

/-- RESULT codes of LDG_TXN_STAT (02). -/
inductive TxnResult where
  | none | committed | rolledBack | timeout | conflict | full | blockReset | commitTimeout
  deriving DecidableEq, Repr

/-- Code of a RESULT. -/
def TxnResult.code : TxnResult → Nat
  | .none => 0 | .committed => 1 | .rolledBack => 2 | .timeout => 3 | .conflict => 4 | .full => 5 | .blockReset => 6
  | .commitTimeout => 7

/-- The transaction state of initiator `i`. -/
def State.txnState (s : State) (i : Nat) : TxnState :=
  match s.get (LDG_TXN_STAT_STATE i) with
  | 1 => .opened | 2 => .committing | 3 => .doomed | _ => .idle

/-- Set the transaction state of initiator `i`. -/
def State.setTxnState (s : State) (i : Nat) (t : TxnState) : State := s.set (LDG_TXN_STAT_STATE i) t.code

/-- Set the RESULT of initiator `i`. -/
def State.setTxnResult (s : State) (i : Nat) (r : TxnResult) : State := s.set (LDG_TXN_STAT_RESULT i) r.code

/-- What the Ledger holds for initiator `i`. -/
def State.txn (s : State) (i : Nat) : Txn := Tbl.get (fun _ => {}) s.ldg.txns i

/-- Replace what the Ledger holds for initiator `i`. -/
def State.setTxn (s : State) (i : Nat) (t : Txn) : State :=
  { s with ldg := { s.ldg with txns := Tbl.set (fun _ => {}) s.ldg.txns i t } }

/-- The LDG page (02 Table 2.2). -/
def ldgPage : Nat := 0x10000

/-- The five initiators (02 Table 2.6). -/
def initiators : List Nat := List.range 5

/-- Words staged by initiator `i`. -/
def State.stagedWords (s : State) (i : Nat) : Nat := (s.txn i).staged.length

/-- Words staged in all transactions: LDG_STAGE.USED. -/
def State.stagedUsed (s : State) : Nat := (initiators.map s.stagedWords).sum

/-- The initiator that holds the word at an address staged (02 R42). -/
def State.stagedBy (s : State) (a : Nat) : Option Nat :=
  initiators.find? fun i => ((s.txn i).staged.any fun p => p.1 == a)

/-- The block codes of the frame-bound blocks (02 Table 2.8): ACS, OBJ, LPM, XMT, WKS, PRS. -/
def frameBound (b : Nat) : Bool := b == 15 || b == 16 || b == 17 || b == 18 || b == 20 || b == 21

/-- A rule copy after a roll-back or doom of initiator `i`: a pending copy is discarded, a clearing mark is taken back (10 R229). -/
def ACopy.discard (c : ACopy) (i : Nat) : Option ACopy :=
  if c.pend = some i then none else some (if c.clr = some i then { c with clr := none } else c)

/-- Discard the staged words and pending table changes of initiator `i` (02 R42, 11 R253). -/
def State.discardTxn (s : State) (i : Nat) : State :=
  let s := s.setTxn i { s.txn i with
    staged := []
    gmem := [] }
  { s with
    xmt := { s.xmt with entries := s.xmt.entries.filterMap fun e => (e.v.discard i).map fun v => { e with v := v } }
    lpm := { s.lpm with routes := s.lpm.routes.filterMap fun r => (r.v.discard i).map fun v => { r with v := v } }
    obj := { s.obj with copies := s.obj.copies.filterMap fun c => (c.v.discard i).map fun v => { c with v := v } }
    acs := { s.acs with copies := s.acs.copies.filterMap fun c => c.discard i } }

/-- The transaction of initiator `i` becomes DOOMED with a RESULT: what it staged is discarded and its INT_STAT bit is set
(02 R42, R44, R49). -/
def State.doom (s : State) (i : Nat) (r : TxnResult) : State :=
  (((s.discardTxn i).setTxnState i .doomed).setTxnResult i r).setInt ldgPage (8 + i)

/-- A refused staged write with no open transaction sets ORPHAN and captures the first writer and address (02 R42, R49). -/
def State.orphan (s : State) (i a : Nat) : State :=
  if s.get LDG_ORPHAN_STAT_ORPHAN = 1 then s
  else (((s.set LDG_ORPHAN_STAT_INIT i).set LDG_ORPHAN_ADDR_ADDR a).set LDG_ORPHAN_STAT_ORPHAN 1).setInt ldgPage 16

/-- The cascade role (11 R254): 3 acts as 0. -/
def State.role (s : State) : Nat := if s.get LDG_CC_CFG_ROLE = 3 then 0 else s.get LDG_CC_CFG_ROLE

/-- Whether a frame-bound change by initiator `i` is refused because only cascade commits open slots (11 R254). -/
def State.cascadeRefuses (s : State) (i : Nat) : Bool := decide (s.role != 0) && decide (i != 2)

/-- A write to an RWS register (02 R42, 11 R254): staged, replaced or refused by the writer's transaction state. -/
def State.stageWord (s : State) (i a : Nat) (w : Word) : State :=
  match s.txnState i with
  | .idle => s.orphan i a
  | .doomed => s
  | .committing => s
  | .opened =>
    if frameBound (blockOf a) && s.cascadeRefuses i then (s.set (LDG_TXN_CONFLICT_ADDR_ADDR i) a).doom i .conflict
    else match s.stagedBy a with
      | some j =>
        if j = i then s.setTxn i { s.txn i with staged := Tbl.set (fun _ => none) (s.txn i).staged a (some w) }
        else (s.set (LDG_TXN_CONFLICT_ADDR_ADDR i) a).doom i .conflict
      | none =>
        if 16384 ≤ s.stagedUsed then s.doom i .full
        else s.setTxn i { s.txn i with staged := Tbl.set (fun _ => none) (s.txn i).staged a (some w) }

/-- The initiator to which a table job belongs (08 R184, 16 R362): the host's 0, or 2. -/
def jobWho (j : Option Job) : Nat := (j.map Job.init).getD 0

/-- How a staged table change of initiator `i` is met (08 R185, 02 R42): allowed, or refused for want of an open transaction. -/
def State.mayStage (s : State) (i : Nat) : Bool := s.txnState i == .opened

/-! ### The end of a graph load (21 R475) -/

/-- A SEC command ends with a RESULT (21 R512, R483). -/
def State.secEnd (s : State) (r : Nat) : State :=
  let s := { s with sec := { s.sec with cmd := 0 } }
  ((s.set SEC_RESULT_RESULT r).set SEC_STAT_BUSY 0).setInt 0x20000 2

/-- The transaction of initiator `i` has ended, committed or not: initiator 4's ends a graph load that waits for it (21 R475). -/
def State.graphEnd (s : State) (i : Nat) (ok : Bool) : State :=
  match s.sec.graphPend with
  | some d =>
    if i ≠ 4 then s
    else
      let s := { s with sec := { s.sec with
        graph := if ok then d else s.sec.graph
        graphPend := none } }
      s.secEnd (if ok then 1 else 4)
  | none => s

end Sys2Proof.Machine
end

