-- ==== Sys2Proof/Machine/Exact.lean ====
section
/-! DEFINITION. Exact-match tables (08): hashing, placement, lookups, learning, table jobs, the HBM extension and the Assayer. -/

namespace Sys2Proof.Machine

open Reg

/-- XMT page 0 (08). -/
def xmtPage : Nat := 0x430000

/-! ### Lookup results (07 R152) -/

/-- A result register: STATUS in word 0 bits [1:0], `w0` in bits [31:8] where placed, then words 1–3. -/
def mkRes (status w0 w1 w2 w3 : Nat) : BitVec 128 :=
  BitVec.ofNat 128 ((status ||| w0 % 2 ^ 32) + 2 ^ 32 * (w1 % 2 ^ 32) + 2 ^ 64 * (w2 % 2 ^ 32) + 2 ^ 96 * (w3 % 2 ^ 32))

/-- An ERROR result with its ECODE in word 0 bits [15:8]. -/
def errRes (ecode : Nat) : BitVec 128 := mkRes 3 (ecode * 256) 0 0 0

/-- The MISS result. -/
def missRes : BitVec 128 := mkRes 2 0 0 0 0

/-- Lookup `k` of the list, when it is outstanding and of the kind asked for. -/
def State.lookup (s : State) (k : Nat) (kind : LKind) : Option Lookup :=
  match s.lkp[k]? with
  | some l => if l.kind = kind && l.res.isNone then some l else none
  | none => none

/-- Lookup `k` has its result, which LOOKUP_RESULT returns to the thread (06 R133). -/
def State.answer (s : State) (k : Nat) (r : BitVec 128) : State :=
  { s with lkp := upd s.lkp k fun l => { l with res := some r } }

/-- The quarter of workshop `w` (01 R15). -/
def quarterOf (w : Nat) : Nat := w / 16

/-! ### Geometry and hashing (08 R164–R168) -/

/-- Page and set index of table `t` (08: page 1 + t div 32, set t mod 32). -/
def tp (t : Nat) : Nat := t / 32

/-- Index of table `t`'s register set on its page. -/
def ti (t : Nat) : Nat := t % 32

/-- One step of the bitwise CRC of R167. -/
def crcBit (poly r : Word) : Word := if r.getLsbD 31 then (r <<< 1) ^^^ poly else r <<< 1

/-- One byte of the CRC of R167, most significant bit first. -/
def crcByte (poly r : Word) (x : Byte) : Word :=
  (List.range 8).foldl (fun r _ => crcBit poly r) (r ^^^ (x.zeroExtend 32 <<< 24))

/-- The CRC of R167: no reflection and no final inversion. -/
def crc (poly seed : Word) (msg : List Byte) : Word := msg.foldl (crcByte poly) seed

/-- The geometry of a table by which its keys are placed (08 R167, R168). -/
structure XGeo where
  tid : Nat
  seed0 : Word
  seed1 : Word
  s : Nat
  b : Nat
  large : Bool
  deriving DecidableEq, Repr

/-- Buckets per way (08 R168) of a table of CAPK `capk` and `s` slots per bucket. -/
def bucketsPerWay (capk s : Nat) (large : Bool) : Nat :=
  if large then
    let m := (capk * 1024 * 105 + 100 * (2 * s) - 1) / (100 * (2 * s))
    1024 * ((m + 1023) / 1024)
  else 128

/-- The geometry of table `t` in the values of slot `k`. -/
def State.xgeoV (s : State) (k t : Nat) : XGeo :=
  let wide := s.cfgV k (XMT_TBL_CFG_FMT (tp t) (ti t)) = 1
  let large := s.cfgV k (XMT_TBL_CFG_CLASS (tp t) (ti t)) = 0
  let n := if wide then 1 else 4
  ⟨t, s.wordV k (XMT_TBL_SEED0 (tp t) (ti t)), s.wordV k (XMT_TBL_SEED1 (tp t) (ti t)), n,
    bucketsPerWay (s.cfgV k (XMT_TBL_CFG_CAPK (tp t) (ti t))) n large, large⟩

/-- The geometry of table `t` in its newest values. -/
def State.xgeo (s : State) (t : Nat) : XGeo := s.xgeoV s.newest t

/-- The bucket of a key in a way (08 R167). -/
def XGeo.bucket (g : XGeo) (way : Nat) (key : List Byte) : Nat :=
  let msg := BitVec.ofNat 8 g.tid :: key
  let h := if way = 0 then crc 0x1EDC6F41 g.seed0 msg else crc 0x04C11DB7 g.seed1 msg
  h.toNat * g.b / 2 ^ 32

/-- Whether the key length of a configuration fits its format (08 R164). -/
def klenFits (fmt klen : Nat) : Bool :=
  if fmt = 0 then decide (1 ≤ klen) && decide (klen ≤ 8) else decide (9 ≤ klen) && decide (klen ≤ 40)

/-- Whether table `t` is enabled for slot `k` (08 R163, R164): EN 1 and not held disabled. -/
def State.xEnabled (s : State) (k t : Nat) : Bool :=
  s.cfgV k (ctlEn xmtPage) == 1 && s.cfgV k (XMT_TBL_CFG_EN (tp t) (ti t)) == 1 &&
    klenFits (s.cfgV k (XMT_TBL_CFG_FMT (tp t) (ti t))) (s.cfgV k (XMT_TBL_CFG_KLEN (tp t) (ti t))) &&
    !s.xmt.held.contains (k, t)

/-! ### Placement (08 R173, R174) -/

/-- Whether an entry of the table lies in a slot. -/
def slotTaken (es : List XEntry) (t way b i : Nat) : Bool := es.any fun e => e.tid == t && e.place == .bucket way b i

/-- The lowest free slot of a bucket. -/
def freeSlot (es : List XEntry) (g : XGeo) (way b : Nat) : Option Nat :=
  if b < g.b then (List.range g.s).find? fun i => !slotTaken es g.tid way b i else none

/-- A node of the search for room (08 R173): bucket, slot, way, depth and the parent's index. -/
structure PNode where
  b : Nat
  s : Nat
  w : Nat
  p : Nat
  up : Option Nat
  deriving DecidableEq, Repr

/-- The slots of a bucket as nodes, at most until 128 nodes exist. -/
def addNodes (nodes : List PNode) (g : XGeo) (b w p : Nat) (up : Option Nat) : List PNode :=
  (List.range g.s).foldl (fun ns i => if ns.length < 128 then ns ++ [⟨b, i, w, p, up⟩] else ns) nodes

/-- The entry in a node's slot. -/
def nodeKey (es : List XEntry) (g : XGeo) (n : PNode) : List Byte :=
  ((es.find? fun e => e.tid == g.tid && e.place == .bucket n.w n.b n.s).map XEntry.key).getD []

/-- The breadth-first search for a node whose entry can move to its other bucket: the nodes, that node's index and the free
slot there. -/
def findRoom (es : List XEntry) (g : XGeo) : Nat → List PNode → Nat → Option (List PNode × Nat × Nat × Nat)
  | 0, _, _ => none
  | fuel + 1, nodes, i =>
    match nodes[i]? with
    | none => none
    | some n =>
      let c := g.bucket (1 - n.w) (nodeKey es g n)
      match freeSlot es g (1 - n.w) c with
      | some f => some (nodes, i, c, f)
      | none => findRoom es g fuel (if n.p < 4 then addNodes nodes g c (1 - n.w) (n.p + 1) (some i) else nodes) (i + 1)

/-- Move the entry of a slot to another slot of the table (08 R174). -/
def moveEntry (es : List XEntry) (t : Nat) (src dst : XPlace) : List XEntry :=
  es.map fun e => if e.tid = t && e.place = src then { e with place := dst } else e

/-- Move a node's entry and its ancestors' entries, deepest first; the root's slot is then free. -/
def movePath (es : List XEntry) (t : Nat) (nodes : List PNode) : Nat → Nat → XPlace → List XEntry × XPlace
  | 0, _, dst => (es, dst)
  | fuel + 1, i, dst =>
    match nodes[i]? with
    | none => (es, dst)
    | some n =>
      let es' := moveEntry es t (.bucket n.w n.b n.s) dst
      match n.up with
      | some u => movePath es' t nodes fuel u (.bucket n.w n.b n.s)
      | none => (es', .bucket n.w n.b n.s)

/-- Room for a key in the table's buckets: the entries after the moves and the slot found (08 R173). -/
def bucketRoom (es : List XEntry) (g : XGeo) (key : List Byte) : Option (List XEntry × XPlace) :=
  match freeSlot es g 0 (g.bucket 0 key) with
  | some i => some (es, .bucket 0 (g.bucket 0 key) i)
  | none =>
    match freeSlot es g 1 (g.bucket 1 key) with
    | some i => some (es, .bucket 1 (g.bucket 1 key) i)
    | none =>
      if g.b = 0 then none else
      let n0 := addNodes (addNodes [] g (g.bucket 0 key) 0 1 none) g (g.bucket 1 key) 1 1 none
      (findRoom es g 128 n0 0).map fun (nodes, i, c, f) =>
        let w := ((nodes[i]?).map PNode.w).getD 0
        movePath es g.tid nodes 5 i (.bucket (1 - w) c f)

/-- Entries in the stash (08 R176). -/
def stashed (es : List XEntry) : List XEntry := es.filter fun e => match e.place with | .stash _ => true | _ => false

/-- The lowest free stash index. -/
def freeStash (es : List XEntry) : Option Nat := (List.range 1024).find? fun i => !es.any fun e => e.place == .stash i

/-- The outcome of the placement engine (08 R173): the entries with the new one, and whether it went to the stash. -/
inductive Placed where
  | placed (es : List XEntry)
  | stashed (es : List XEntry)
  | full
  deriving DecidableEq, Repr

/-- Place a new entry (08 R173). -/
def place (es : List XEntry) (g : XGeo) (e : XEntry) : Placed :=
  match bucketRoom es g e.key with
  | some (es', p) => .placed (es' ++ [{ e with place := p }])
  | none =>
    match (if g.large then freeStash es else none) with
    | some i => .stashed (es ++ [{ e with place := .stash i }])
    | none => .full

/-- Set the table's RHREQ and XMT INT_STAT bit 1 (08 R176). -/
def State.rhreq (s : State) (t : Nat) : State := (s.set (XMT_TBL_STAT_RHREQ (tp t) (ti t)) 1).setInt xmtPage 1

/-- Place an entry in the device: `none` when placement returns FULL; the stash threshold and FULL set RHREQ (08 R176). A write
to a bucket makes it readable again (R194). -/
def State.placeEntry (s : State) (e : XEntry) : Bool × State :=
  match place s.xmt.entries (s.xgeo e.tid) e with
  | .placed es =>
    let bad := s.xmt.badBuckets.filter fun (t, w, b) => !es.any fun x => x.tid == t && x.key == e.key &&
      (match x.place with | .bucket w' b' _ => w == w' && b == b' | _ => false)
    (true, { s with xmt := { s.xmt with
      entries := es
      badBuckets := bad } })
  | .stashed es =>
    let s := { s with xmt := { s.xmt with entries := es } }
    (true, if ((stashed es).filter fun x => x.tid == e.tid).length = 32 then s.rhreq e.tid else s)
  | .full => (false, s.rhreq e.tid)

/-! ### Lookups (08 R165, R171, R194, R195) -/

/-- The result of a hit (08 R165): DATA with byte 0 most significant. -/
def hitRes (e : XEntry) : BitVec 128 :=
  let d := beNat e.data
  mkRes 1 (if e.place = .ext then 256 else 0) (d % 2 ^ 32) (d / 2 ^ 32 % 2 ^ 32) (d / 2 ^ 64 % 2 ^ 32)

/-- The entry of a key in table `t` visible to slot `k`: SRAM and stash before the extension (08 R171). -/
def State.xfind (s : State) (t : Nat) (key : List Byte) (k : Nat) (ok : XEntry → Bool := fun _ => true) : Option XEntry :=
  let m := s.xmt.entries.filter fun e => e.tid == t && e.key == key && ok e && s.visible e.v e.l k
  match m.find? fun e => e.place != .ext with
  | some e => some e
  | none => m.head?

/-- Set H of the entry of a key at its place (08 R171). -/
def State.markHit (s : State) (e : XEntry) : State :=
  { s with xmt := { s.xmt with entries := s.xmt.entries.map fun x =>
                      if x.tid = e.tid && x.place = e.place && x.key = e.key && x.v = e.v then { x with h := true } else x } }

/-- Whether a lookup of the key reads a bucket that holds an uncorrectable error (08 R194). -/
def State.readsBad (s : State) (g : XGeo) (key : List Byte) : Bool :=
  s.xmt.badBuckets.any fun (t, w, b) => t == g.tid && b == g.bucket w key

/-- An uncorrectable bucket error (08 R194): the bucket's entries are invalidated, source 0 is raised with bank (way) and row. -/
def State.bucketError (s : State) (g : XGeo) (way : Nat) (key : List Byte) : State :=
  let b := g.bucket way key
  let es := s.xmt.entries.filter fun e => !(e.tid == g.tid &&
    (match e.place with | .bucket w' b' _ => w' == way && b' == b | _ => false))
  (({ s with xmt := { s.xmt with
        entries := es
        badBuckets := (g.tid, way, b) :: s.xmt.badBuckets } }).count XMT_ECC_CNT_UNCOR xmtPage 5).raise xmtPage 0 (addr := b) (detail := way)

/-- An uncorrectable stash error (08 R194): the stash entries of the key read are invalidated, source 2 is raised. -/
def State.stashError (s : State) (t : Nat) (key : List Byte) : State :=
  let es := s.xmt.entries.filter fun e => !(e.tid == t && e.key == key && (match e.place with | .stash _ => true | _ => false))
  (({ s with xmt := { s.xmt with entries := es } }).count XMT_ECC_CNT_UNCOR xmtPage 5).raise xmtPage 2

/-- The copy in quarter `q` of the entry of a key has bad parity (08 R195). -/
def State.markParity (s : State) (t : Nat) (key : List Byte) (q : Nat) : State :=
  { s with xmt := { s.xmt with entries := s.xmt.entries.map fun e =>
                      if e.tid = t && e.key = key && !e.badPar.contains q then { e with badPar := q :: e.badPar } else e } }

/-- The lookup proper, once the table is enabled and the length accepted (08 R165, R171, R195): the answer, whether it hit, and
the state with H set and parity errors counted. -/
def State.xread (s : State) (l : Lookup) (key : List Byte) : Option XEntry × BitVec 128 × State :=
  let q := quarterOf l.wks
  match s.xfind l.tid key l.vslot (fun e => !e.badPar.contains q) with
  | some e => (some e, hitRes e, s.markHit e)
  | none =>
    match s.xfind l.tid key l.vslot with
    | some _ =>
      let s := (s.count XMT_PERR_CNT_PERR_CNT xmtPage 5).raise xmtPage 1
      let s := if s.cfgV l.vslot (XMT_TBL_CFG_PERR_ACT (tp l.tid) (ti l.tid)) = 1 then
        s.modFrame l.frame fun f => { f with parDrop := true } else s
      (none, mkRes 2 512 0 0 0, s)
    | none => (none, missRes, s)

/-- EXACT_LOOKUP (08 R165, R171, R194, R195): reads both buckets and the stash and answers lookup `k`. -/
def execExactLookup (k : Nat) (err : XErr) (s : State) : Host.Outcome State Fault Refusal :=
  match s.lookup k .exact with
  | none => .next s
  | some l =>
    if !s.xEnabled l.vslot l.tid then .next (s.answer k (errRes 2))
    else if l.key.length ≠ s.cfgV l.vslot (XMT_TBL_CFG_KLEN (tp l.tid) (ti l.tid)) then .next (s.answer k (errRes 1))
    else
      let g := s.xgeoV l.vslot l.tid
      match err with
      | .bucket w => .next ((s.bucketError g (b2n w) l.key).answer k (errRes 3))
      | .stash => .next ((s.stashError l.tid l.key).answer k (errRes 3))
      | _ =>
        let s := if err = .corrected then s.count XMT_ECC_CNT_COR xmtPage 5 else s
        let s := if err = .parity && !g.large then s.markParity l.tid l.key (quarterOf l.wks) else s
        if s.readsBad g l.key then .next (s.answer k (errRes 3))
        else
          let (e, r, s') := s.xread l l.key
          if err = .extRead && (match e with | some e => e.place == .ext | none => true) then .next (s.answer k (errRes 3))
          else .next (s'.answer k r)

/-- A refused learn (08 R182). -/
def State.learnRefused (s : State) (t : Nat) : State :=
  (s.count (XMT_TBL_LFAIL_LFAIL (tp t) (ti t)) xmtPage 5).setInt xmtPage 4

/-- A learn request joins the queue (08 R180). -/
def State.learnEnqueue (s : State) (l : Lookup) (key data : List Byte) : State :=
  { s with xmt := { s.xmt with learnQ := s.xmt.learnQ ++ [LearnReq.mk l.tid key data l.t l.iport s.now] } }

/-- LEARN_LOOKUP (08 R165, R180, R182): HIT on equal data; otherwise MISS and a learn request, or ECODE 4 when the queue is full. -/
def execLearnLookup (k : Nat) (s : State) : Host.Outcome State Fault Refusal :=
  match s.lookup k .learn with
  | none => .next s
  | some l =>
    let klen := s.cfgV l.vslot (XMT_TBL_CFG_KLEN (tp l.tid) (ti l.tid))
    if !s.xEnabled l.vslot l.tid then .next (s.answer k (errRes 2))
    else if s.cfgV l.vslot (XMT_TBL_CFG_FMT (tp l.tid) (ti l.tid)) ≠ 0 || s.cfgV l.vslot (XMT_TBL_CFG_LRN_EN (tp l.tid) (ti l.tid)) ≠ 1 ||
        l.key.length ≠ klen + 6 then .next (s.answer k (errRes 1))
    else
      let key := l.key.take klen
      let data := l.key.drop klen
      if s.readsBad (s.xgeoV l.vslot l.tid) key then .next (s.answer k (errRes 3))
      else match s.xfind l.tid key l.vslot (fun e => !e.badPar.contains (quarterOf l.wks)) with
        | some e =>
          if e.data = data then .next ((s.markHit e).answer k (hitRes e))
          else if s.xmt.learnQ.length < 4096 then
            .next ((s.learnEnqueue l key data).answer k missRes)
          else .next ((s.learnRefused l.tid).answer k (errRes 4))
        | none =>
          if s.xmt.learnQ.length < 4096 then
            .next ((s.learnEnqueue l key data).answer k missRes)
          else .next ((s.learnRefused l.tid).answer k (errRes 4))

/-! ### Learning (08 R180–R182) -/

/-- WIN_US, where 0 acts as 1. -/
def State.winUs (s : State) : Nat := max 1 (s.get XMT_LRN_CFG_WIN_US)

/-- A job holds the table's LOCK (08 R186). -/
def State.xLocked (s : State) (t : Nat) : Bool := match s.xmt.job with | some j => j.tid == t | none => false

/-- A learn notice (08 Table 8.2). -/
def noticeBytes (type : Nat) (r : LearnReq) : List Byte :=
  [BitVec.ofNat 8 type, BitVec.ofNat 8 r.tid] ++ r.data ++ bytesAt r.key 0 8

/-- Write a learn notice when NOTIFY is 1 (08 R181). -/
def State.notify (s : State) (type : Nat) (r : LearnReq) : State :=
  if s.get XMT_LRN_CFG_NOTIFY = 1 then s.formRecord (s.get XMT_LRN_CFG_CRING) (noticeBytes type r) else s

/-- The request that the arbiter decides next (08 R180): among those that have waited WIN_US and whose table is not locked, the
lowest T, then the lowest IPORT. -/
def State.nextLearn (s : State) : Option LearnReq :=
  let c := s.xmt.learnQ.filter fun r => s.elapsedUs r.arrived s.winUs && !s.xLocked r.tid
  c.find? fun r => c.all fun x => decide (r.t < x.t) || (decide (r.t = x.t) && decide (r.iport ≤ x.iport))

/-- Remove the first equal request from the queue. -/
def State.takeLearn (s : State) (r : LearnReq) : State := { s with xmt := { s.xmt with learnQ := s.xmt.learnQ.erase r } }

/-- The decision on a request (08 R180). -/
def State.decideLearn (s : State) (r : LearnReq) : State :=
  let mine := s.xmt.entries.filter fun e => e.tid == r.tid && e.key == r.key
  let hold := min 1000 (s.get (XMT_TBL_LRN_MOVE_HOLD (tp r.tid) (ti r.tid))) * 1000000
  if mine.any fun e => e.v.pend || e.v.delBy.isSome then s.learnRefused r.tid
  else match s.xfind r.tid r.key s.newest with
    | none =>
      if mine.any fun e => e.v.sup && slots.any fun j => s.live j && s.visible e.v e.l j then s.learnRefused r.tid
      else
        let (ok, s) := s.placeEntry { tid := r.tid, key := r.key, data := r.data, l := true, last := some r.t, idle := s.now,
                                      epoch := s.epoch s.newest }
        if ok then (s.count (XMT_TBL_LEARNS_LEARNS (tp r.tid) (ti r.tid)) xmtPage 5).notify 1 r else s.learnRefused r.tid
    | some e =>
      if e.s then s
      else if e.data = r.data then s.markHit e
      else if (match e.last with | some t0 => decide (r.t < t0 + hold) | none => false) then
        ((s.count (XMT_TBL_FLAPS_FLAPS (tp r.tid) (ti r.tid)) xmtPage 5).setInt xmtPage 2).notify 3 r
      else if mine.any fun x => x.v.sup && slots.any fun j => s.live j && s.visible x.v x.l j then s.learnRefused r.tid
      else
        let es := s.xmt.entries.map fun x =>
          if x.tid = e.tid && x.key = e.key && x.place = e.place then { x with
            data := r.data
            l := true
            last := some r.t } else x
        (({ s with xmt := { s.xmt with entries := es } }).count (XMT_TBL_MOVES_MOVES (tp r.tid) (ti r.tid)) xmtPage 5).notify 2 r

/-- LEARN_DECISION (08 R180–R182): decides the next request, unless a notice is to be written and the ring cannot take it. -/
def execLearnDecision (s : State) : Host.Outcome State Fault Refusal :=
  match s.nextLearn with
  | none => .next s
  | some r =>
    if s.get XMT_LRN_CFG_NOTIFY = 1 && !(s.cring (s.get XMT_LRN_CFG_CRING)).canTake then .next s
    else .next ((s.takeLearn r).decideLearn r)

/-- STASH_REPLACE (08 R176): the table's stashed entries are tried again in index order. -/
def execStashReplace (tid : Fin 256) (s : State) : Host.Outcome State Fault Refusal :=
  let g := s.xgeo tid
  let try1 (es : List XEntry) (i : Nat) : List XEntry :=
    match es.find? fun e => e.tid == tid.val && e.place == .stash i with
    | none => es
    | some e =>
      match bucketRoom es g e.key with
      | none => es
      | some (es', p) => es'.map fun x => if x.place = .stash i then { x with place := p } else x
  .next { s with xmt := { s.xmt with entries := (List.range 1024).foldl try1 s.xmt.entries } }

/-! ### Table jobs (08 R183–R187) -/

/-- End the running XMT job with a RESULT (08 R186). -/
def State.endXmtJob (s : State) (result : Nat) : State :=
  let t := ((s.xmt.job).map Job.tid).getD 0
  let s := { s with xmt := { s.xmt with
    job := none
    rehash := none } }
  (((s.set XMT_JOB_STAT_RUNNING 0).set XMT_JOB_STAT_RESULT result).set (XMT_TBL_STAT_LOCK (tp t) (ti t)) 0).setInt xmtPage 0

/-- START of an exact-table job by initiator `i` (08 R186): refused while a job runs, else the job starts and locks its table; COUNT 0 ends it at once. -/
def State.xmtJobStart (s : State) (i tid count : Nat) : State :=
  match s.xmt.job with
  | some j => s.set XMT_JOB_STAT_REJ (if j.tid = tid then 3 else 7)
  | none =>
    let addr := (s.get XMT_JOB_ADDR_LO_ADDR) / 64 * 64 + 2 ^ 32 * s.get XMT_JOB_ADDR_HI_ADDR
    let s := { s with xmt := { s.xmt with job := some { tid := tid, addr := addr, count := count, open0 := s.mayStage i, init := i } } }
    let s := (((s.set XMT_JOB_STAT_REJ 0).set XMT_JOB_STAT_RUNNING 1).set XMT_JOB_STAT_RESULT 0).set XMT_JOB_STAT_DONE 0
    let s := s.set (XMT_TBL_STAT_LOCK (tp tid) (ti tid)) 1
    if count = 0 then s.endXmtJob 1 else s

/-- ABORT of an exact-table job (08 R186): the job ends after its current record. -/
def State.xmtJobAbort (s : State) : State :=
  match s.xmt.job with
  | none => s
  | some j =>
    if s.xmt.rehash.isSome then { s with xmt := { s.xmt with job := some { j with abort := true } } }
    else s.endXmtJob 4

/-- The record is done (08 R185): its RESULT goes to host memory and the job goes on, or ends DONE or ABORTED. -/
def State.xmtRecordDone (s : State) (result : Nat) : State :=
  match s.xmt.job with
  | none => s
  | some j =>
    let s := s.hostWrite (j.addr + 64 * j.next + 2) [BitVec.ofNat 8 result]
    let s := s.set XMT_JOB_STAT_DONE (j.next + 1)
    let s := { s with xmt := { s.xmt with job := some { j with next := j.next + 1 } } }
    if j.abort then s.endXmtJob 4 else if j.count ≤ j.next + 1 then s.endXmtJob 1 else s

/-- All listed bytes of a record are zero. -/
def zeros (r : List Byte) (i n : Nat) : Bool := (bytesAt r i n).all fun b => b == 0

/-- Whether a job record breaks a rule of its layout (08 Table 8.3, R185). -/
def xmtBadRec (r : List Byte) (klen dlen : Nat) : Bool :=
  let op := byteAt r 0
  decide (op = 0) || decide (6 < op) || decide (8 ≤ byteAt r 1) || !zeros r 3 1 || !zeros r 4 4 || !zeros r 60 4 ||
    (if op = 5 then !zeros r 24 24 else if op = 6 then !zeros r 16 32 else !zeros r (8 + klen) (40 - klen)) ||
    !zeros r (48 + dlen) (12 - dlen)

/-- Whether the transaction of `i` stages a copy or a mark of the key in the table. -/
def State.xStagedBy (s : State) (t : Nat) (key : List Byte) (p : Nat → Bool) : Bool :=
  s.xmt.entries.any fun e => e.tid == t && e.key == key && ((e.v.pend && p e.v.bslot) || (match e.v.delBy with | some i => p i | none => false))

/-- Mark the copy of a key visible to the newest slot to be superseded by initiator `i` at its commit (08 R178). -/
def State.xMark (s : State) (t : Nat) (key : List Byte) (i : Nat) : State :=
  { s with xmt := { s.xmt with entries := s.xmt.entries.map fun e =>
                      if e.tid = t && e.key = key && s.visible e.v e.l s.newest then { e with v := { e.v with delBy := some i } } else e } }

/-- The pending copy of a key staged by initiator `i`. -/
def State.xPending (s : State) (t : Nat) (key : List Byte) (i : Nat) : Option XEntry :=
  s.xmt.entries.find? fun e => e.tid == t && e.key == key && e.v.pend && e.v.bslot == i

/-- INSERT and UPDATE of a key (08 R178, R185): the record's result and the state. -/
def State.xWrite (s : State) (t : Nat) (key data : List Byte) (static : Option Bool) : Nat × State :=
  let vis := s.xfind t key s.newest
  let st := static.getD ((vis.map XEntry.s).getD false)
  match s.xPending t key (jobWho s.xmt.job) with
  | some e =>
    (2, { s with xmt := { s.xmt with entries := s.xmt.entries.map fun x =>
                            if x = e then { x with
                              data := data
                              s := st } else x } })
  | none =>
    let (ok, s') := s.placeEntry { tid := t, key := key, data := data, s := st, v := { pend := true, bslot := (jobWho s.xmt.job) }, idle := s.now }
    if ok then (if vis.isSome then 2 else 1, if vis.isSome then s'.xMark t key (jobWho s.xmt.job) else s') else (4, s')

/-- The output record of SCAN_HITS for an entry (08 R183). -/
def scanRecord (e : XEntry) : List Byte :=
  [4, BitVec.ofNat 8 (1 + 4 * b2n e.s), 1, BitVec.ofNat 8 (b2n e.h)] ++ leBytes 4 0 ++ bytesAt e.key 0 40 ++ bytesAt e.data 0 12 ++ leBytes 4 0

/-- SCAN_HITS (08 R183): reports idle (or all) visible entries up to the limit and clears H of every visible entry. -/
def State.scanHits (s : State) (t : Nat) (all : Bool) (out limit recAddr : Nat) : State :=
  let vis := s.xmt.entries.filter fun e => e.tid == t && s.visible e.v e.l s.newest
  let rep := (vis.filter fun e => all || !e.h).take limit
  let s := rep.zipIdx.foldl (fun s (e, i) => s.hostWrite (out + 64 * i) (scanRecord e)) s
  let es := s.xmt.entries.map fun e =>
    if e.tid = t && s.visible e.v e.l s.newest then { e with
      h := false
      idle := if e.h then s.now else e.idle } else e
  ({ s with xmt := { s.xmt with entries := es } }).hostWrite (recAddr + 20) (leBytes 4 rep.length)

/-- Extents of both ways of a geometry (08 R168, R188). -/
def XGeo.extents (g : XGeo) : Nat := if g.large then 2 * (g.b / 1024) else 0

/-- One fetched record of an exact-table job (08 R183–R185). -/
def State.xmtRecord (s : State) (j : Job) (r : List Byte) : State :=
  let t := j.tid
  let klen := s.get (XMT_TBL_CFG_KLEN (tp t) (ti t))
  let dlen := if s.get (XMT_TBL_CFG_FMT (tp t) (ti t)) = 1 then 12 else 6
  let key := bytesAt r 8 klen
  let data := bytesAt r 48 dlen
  let op := byteAt r 0
  if xmtBadRec r klen dlen then s.xmtRecordDone 6
  else if op ≤ 3 then
    if !j.open0 then s.endXmtJob 2
    else match s.txnState (jobWho s.xmt.job) with
      | .doomed => s.endXmtJob 6
      | .idle => s.endXmtJob 2
      | .committing => s.endXmtJob 2
      | .opened =>
        if s.xStagedBy t key (fun i => i != (jobWho s.xmt.job)) || s.cascadeRefuses (jobWho s.xmt.job) then (s.doom (jobWho s.xmt.job) .conflict).xmtRecordDone 5
        else if op = 1 then
          let (res, s) := s.xWrite t key data (some (bit (byteAt r 1) 2))
          s.xmtRecordDone res
        else if (s.xfind t key s.newest).isNone && !s.xStagedBy t key (fun i => i == (jobWho s.xmt.job)) then s.xmtRecordDone 3
        else if op = 2 then
          let (res, s) := s.xWrite t key data none
          s.xmtRecordDone (if res = 4 then 4 else 1)
        else
          let es := s.xmt.entries.filter fun e => !(e.tid == t && e.key == key && e.v.pend && e.v.bslot == (jobWho s.xmt.job))
          (({ s with xmt := { s.xmt with entries := es } }).xMark t key (jobWho s.xmt.job)).xmtRecordDone 1
  else if op = 4 then
    let own := if s.get (LDG_TXN_CTL_READ_STAGED (jobWho s.xmt.job)) = 1 then s.xPending t key (jobWho s.xmt.job) else none
    match (match own with | some e => some e | none => s.xfind t key s.newest) with
    | some e => (s.hostWrite (j.addr + 64 * j.next + 48) (bytesAt e.data 0 12)).xmtRecordDone 1
    | none => (s.hostWrite (j.addr + 64 * j.next + 48) (leBytes 12 0)).xmtRecordDone 3
  else if op = 5 then
    (s.scanHits t (bit (byteAt r 1) 1) (leNat (bytesAt r 8 8)) (leNat (bytesAt r 16 4)) (j.addr + 64 * j.next)).xmtRecordDone 1
  else if s.get XMT_PLACE_STAT_FREE_EXT < (s.xgeo t).extents then
    ((s.hostWrite (j.addr + 64 * j.next + 2) [4]).set XMT_JOB_STAT_DONE (j.next + 1)).endXmtJob 1
  else
    let s := s.set XMT_PLACE_STAT_FREE_EXT (s.get XMT_PLACE_STAT_FREE_EXT - (s.xgeo t).extents)
    { s with xmt := { s.xmt with rehash := some ⟨t, leNat (bytesAt r 8 4), leNat (bytesAt r 12 4), j.addr + 64 * j.next⟩ } }

/-- XMT_JOB_RECORD (08 R185): the fetched record of the running job is processed; a failed access ends the job FETCH_ERR. -/
def execXmtJobRecord (rec : Fetched) (s : State) : Host.Outcome State Fault Refusal :=
  match s.xmt.job with
  | none => .next s
  | some j =>
    if s.xmt.rehash.isSome then .next s
    else match rec with
      | .failed => .next ((s.dmaErr (j.addr + 64 * j.next)).endXmtJob 5)
      | .bytes r => .next (s.xmtRecord j r)

/-- Place every SRAM entry of a table anew under another geometry (08 R177): `none` when one does not fit; entries that were
stashed may stay stashed. -/
def rehashPlace (all : List XEntry) (g : XGeo) : List XEntry → List XEntry → Option (List XEntry)
  | [], acc => some acc
  | e :: r, acc =>
    match bucketRoom acc g e.key with
    | some (acc', p) => rehashPlace all g r (acc' ++ [{ e with place := p }])
    | none => match e.place with
      | .stash _ => rehashPlace all g r (acc ++ [e])
      | _ => none

/-- The word of a frame-bound register becomes the same in every live slot. -/
def State.wrAllSlots (s : State) (a : Nat) (w : Word) : State :=
  { (s.wr a w) with slotVals := s.slotVals.filter fun p => p.1 % 2 ^ 28 != a }

/-- REHASH_COMPLETE (08 R177): the copy ends with the old ways freed and the new seeds live, or with FULL and nothing changed. -/
def execRehashComplete (s : State) : Host.Outcome State Fault Refusal :=
  match s.xmt.rehash with
  | none => .next s
  | some h =>
    let g := { s.xgeo h.tid with
      seed0 := BitVec.ofNat 32 h.seed0
      seed1 := BitVec.ofNat 32 h.seed1 }
    let mine := s.xmt.entries.filter fun e => e.tid == h.tid && e.place != .ext
    let rest := s.xmt.entries.filter fun e => !(e.tid == h.tid && e.place != .ext)
    let s := s.set XMT_PLACE_STAT_FREE_EXT (s.get XMT_PLACE_STAT_FREE_EXT + g.extents)
    match rehashPlace [] g mine [] with
    | some es =>
      let s := { s with xmt := { s.xmt with
        entries := rest ++ es
        badBuckets := s.xmt.badBuckets.filter fun p => p.1 != h.tid
        rehash := none } }
      let s := (s.wrAllSlots (XMT_TBL_SEED0 (tp h.tid) (ti h.tid)) g.seed0).wrAllSlots (XMT_TBL_SEED1 (tp h.tid) (ti h.tid)) g.seed1
      .next (s.xmtRecordDone 1)
    | none =>
      let n := ((s.xmt.job).map Job.next).getD 0
      .next (((s.hostWrite (h.recAddr + 2) [4]).set XMT_JOB_STAT_DONE (n + 1)).endXmtJob 1)

/-! ### Replicas and the extension (08 R189, R190) -/

/-- Cycles of a bank in a 100 µs window at 2.4 GHz (01 Table 1.6). -/
def bankWindow : Nat := 240000

/-- Utilisation of a bank in the window, in percent. -/
def State.bankPct (s : State) (b : Nat) : Nat := Tbl.get (fun _ => 0) s.xmt.bankAcc b * 100 / bankWindow

/-- The bank that takes a replica: the least used one that is not the hot bank (08 R189). -/
def State.coolBank (s : State) (hot : Nat) : Nat :=
  let c := (List.range 256).filter fun b => b != hot
  (c.find? fun b => c.all fun x => decide (s.bankPct b ≤ s.bankPct x)).getD 0

/-- Replicate the extent of one hot bank, if an extent is free and it has fewer than three replicas (08 R189); a needed replica
not made counts in REPL_FAIL (15 R339). -/
def State.replicate (s : State) (b : Nat) : State :=
  if s.bankPct b ≤ s.get XMT_PLACE_CFG_HOT_PCT then s
  else if s.get XMT_PLACE_STAT_FREE_EXT = 0 || decide (3 ≤ (s.xmt.replicas.filter fun r => r.hot == b).length) then
    s.count SYS_OVL_REPL_FAIL_REPL_FAIL 0x1000 5
  else
    let s := (s.set XMT_PLACE_STAT_FREE_EXT (s.get XMT_PLACE_STAT_FREE_EXT - 1)).inc XMT_PLACE_STAT_REPL_EXT
    { s with xmt := { s.xmt with replicas := s.xmt.replicas ++ [⟨b, s.coolBank b, s.now⟩] } }

/-- BANK_UTIL_WINDOW (08 R189, 15 R339): hot banks get a replica and the measurement starts again; a replica whose banks are at
or above COLD_PCT is warm. -/
def execBankUtilWindow (s : State) : Host.Outcome State Fault Refusal :=
  let s := forEach (List.range 256) (fun b s => s.replicate b) s
  let cold := s.get XMT_PLACE_CFG_COLD_PCT
  let reps := s.xmt.replicas.map fun r =>
    if s.bankPct r.bank < cold && s.bankPct r.hot < cold then r else { r with coldSince := s.now }
  .next { s with xmt := { s.xmt with
    replicas := reps
    bankAcc := [] } }

/-- REPLICA_FREE (08 R189): a replica on the bank that has been cold for 100 ms is freed. -/
def execReplicaFree (bank : Fin 256) (s : State) : Host.Outcome State Fault Refusal :=
  match s.xmt.replicas.find? fun r => r.bank == bank.val && s.elapsedUs r.coldSince 100000 with
  | none => .next s
  | some r =>
    let s := (s.inc XMT_PLACE_STAT_FREE_EXT).dec XMT_PLACE_STAT_REPL_EXT
    .next { s with xmt := { s.xmt with replicas := s.xmt.replicas.erase r } }

/-- SRAM slots of a table and the entries in them. -/
def State.sramUse (s : State) (t : Nat) : Nat :=
  (s.xmt.entries.filter fun e => e.tid == t && (match e.place with | .bucket _ _ _ => true | _ => false)).length

/-- Use of the HBM extension (09 R198): 4 × routes + exact entries. -/
def State.extUse (s : State) : Nat :=
  4 * (s.lpm.routes.filter fun r => r.ext).length + (s.xmt.entries.filter fun e => e.place == .ext).length

/-- The limit of the extension's use (09 R198, 13 R287): 1,048,576 for each unit of 64 MiB that it has. -/
def State.extLimit (s : State) : Nat := s.get HBC_REGION_STAT_EXT_U * 1048576

/-- ENTRY_DEMOTE (08 R190): an SRAM entry idle for DEMOTE_MS in a table above 90 % of its slots moves to the extension. -/
def execEntryDemote (tid : Fin 256) (s : State) : Host.Outcome State Fault Refusal :=
  let t := tid.val
  let g := s.xgeo t
  let ms := s.get XMT_PLACE_CFG_DEMOTE_MS
  if s.get (XMT_TBL_CFG_EXT_EN (tp t) (ti t)) ≠ 1 || ms = 0 || !g.large || s.sramUse t * 10 ≤ 9 * (2 * g.b * g.s) ||
      s.extLimit ≤ s.extUse then .next s
  else match s.xmt.entries.find? fun e => e.tid == t && !e.h && s.elapsedUs e.idle (ms * 1000) &&
      (match e.place with | .bucket _ _ _ => true | _ => false) with
    | none => .next s
    | some e => .next { s with xmt := { s.xmt with entries := s.xmt.entries.map fun x => if x = e then { x with place := .ext } else x } }

/-- ENTRY_PROMOTE (08 R190): an extension entry that has hit and whose buckets have room returns to SRAM. -/
def execEntryPromote (tid : Fin 256) (s : State) : Host.Outcome State Fault Refusal :=
  let g := s.xgeo tid
  let slotFor (e : XEntry) : Option XPlace :=
    match freeSlot s.xmt.entries g 0 (g.bucket 0 e.key) with
    | some i => some (.bucket 0 (g.bucket 0 e.key) i)
    | none => (freeSlot s.xmt.entries g 1 (g.bucket 1 e.key)).map fun i => .bucket 1 (g.bucket 1 e.key) i
  match s.xmt.entries.find? fun e => e.tid == tid.val && e.place == .ext && e.h && (slotFor e).isSome with
  | none => .next s
  | some e =>
    let p := (slotFor e).getD .ext
    .next { s with xmt := { s.xmt with entries := s.xmt.entries.map fun x => if x = e then { x with place := p } else x } }

/-! ### The Assayer (08 R191–R193) -/

/-- A table that the Assayer passes over: enabled, LARGE, not excluded and not locked (08 R192). -/
def State.assayable (s : State) (t : Nat) : Bool :=
  s.xEnabled s.newest t && s.get (XMT_TBL_CFG_CLASS (tp t) (ti t)) == 0 && s.get (XMT_TBL_SHADOW_CNT_COUNT (tp t) (ti t)) != 0 && !s.xLocked t

/-- The next table after `t` in ascending order, around to the start. -/
def State.nextAssay (s : State) (t : Nat) : Option Nat :=
  (((List.range 256).map fun i => (t + i) % 256).find? fun x => s.assayable x)

/-- Begin a pass over a table: A is cleared in every entry and E0 noted (08 R192). -/
def State.assayStart (s : State) (t : Nat) : State :=
  let es := s.xmt.entries.map fun e => if e.tid = t then { e with a := false } else e
  ({ s with xmt := { s.xmt with
      entries := es
      asy := { active := true, tid := t, idx := 0, e0 := s.get LDG_EPOCH_EPOCH, diff := false } } }.set XMT_ASY_STAT_TID t).set XMT_ASY_STAT_ACTIVE 1

/-- A difference was found in the pass. -/
def State.assayDiff (s : State) : State := { s with xmt := { s.xmt with asy := { s.xmt.asy with diff := true } } }

/-- Whether a key has a staged change (08 R193). -/
def State.xHasStaged (s : State) (t : Nat) (key : List Byte) : Bool := s.xStagedBy t key fun _ => true

/-- Compare one shadow record with the table (08 R192, R193). -/
def State.assayCompare (s : State) (t : Nat) (r : List Byte) : State :=
  let klen := s.get (XMT_TBL_CFG_KLEN (tp t) (ti t))
  let dlen := if s.get (XMT_TBL_CFG_FMT (tp t) (ti t)) = 1 then 12 else 6
  let key := bytesAt r 8 klen
  let data := bytesAt r 48 dlen
  let repair := s.get XMT_ASY_CFG_REPAIR = 1 && !s.xHasStaged t key
  if !bit (byteAt r 1) 0 || precedes (s.get LDG_EPOCH_EPOCH) (leNat (bytesAt r 4 4)) then s
  else match s.xfind t key s.newest with
    | none =>
      let s := (s.count XMT_MISSING_MISSING xmtPage 5).assayDiff
      if repair then
        let (ok, s) := s.placeEntry { tid := t, key := key, data := data, s := bit (byteAt r 1) 2, a := true, idle := s.now,
                                      v := { bslot := s.newest, dslot := s.newest }, epoch := s.epoch s.newest }
        if ok then s.count XMT_REPAIRED_REPAIRED xmtPage 5 else s
      else s
    | some e =>
      let same := e.data = data || e.l
      let s := if same then s else (s.count XMT_DIFFERENT_DIFFERENT xmtPage 5).assayDiff
      let fix := repair && !same
      let s := if fix then s.count XMT_REPAIRED_REPAIRED xmtPage 5 else s
      { s with xmt := { s.xmt with entries := s.xmt.entries.map fun x =>
                          if x = e then { x with
                            a := true
                            data := if fix then data else x.data } else x } }

/-- The end of a table pass (08 R192, R193): EXTRA entries are counted, and invalidated under REPAIR. -/
def State.assayEnd (s : State) : State :=
  let t := s.xmt.asy.tid
  let extra (e : XEntry) : Bool := e.tid == t && !e.a && !e.l && !e.v.pend && !e.v.sup && !precedes s.xmt.asy.e0 e.epoch && s.visible e.v e.l s.newest
  let n := (s.xmt.entries.filter extra).length
  let s' := if n = 0 then s else (s.count XMT_EXTRA_EXTRA xmtPage 5 n).assayDiff
  let rep (e : XEntry) : Bool := extra e && s.get XMT_ASY_CFG_REPAIR == 1 && !s.xHasStaged t e.key
  let m := (s.xmt.entries.filter rep).length
  let s' := if m = 0 then s' else
    ({ s' with xmt := { s'.xmt with entries := s'.xmt.entries.filter fun e => !rep e } }).count XMT_REPAIRED_REPAIRED xmtPage 5 m
  let s' := if s'.xmt.asy.diff then s'.setInt xmtPage 3 else s'
  let s' := (s'.inc XMT_ASY_STAT_PASSES).set XMT_ASY_STAT_ACTIVE 0
  { s' with xmt := { s'.xmt with asy := { s'.xmt.asy with
    active := false
    tid := (t + 1) % 256 } } }

/-- ASSAYER_RECORD (08 R191–R193): with EN 1, the next shadow record of the pass is compared; the last record ends the pass. -/
def execAssayerRecord (rec : Fetched) (s : State) : Host.Outcome State Fault Refusal :=
  if s.get XMT_ASY_CFG_EN ≠ 1 then .next s
  else
    let s := if s.xmt.asy.active then s else
      match s.nextAssay s.xmt.asy.tid with | some t => s.assayStart t | none => s
    if !s.xmt.asy.active then .next s
    else
      let t := s.xmt.asy.tid
      if !s.assayable t then .next s.assayEnd
      else
        let s := match rec with
          | .bytes r => s.assayCompare t r
          | .failed => s.dmaErr (s.hostAddr (XMT_TBL_SHADOW_LO (tp t) (ti t)) + 64 * s.xmt.asy.idx)
        let i := s.xmt.asy.idx + 1
        let s := { s with xmt := { s.xmt with asy := { s.xmt.asy with idx := i } } }
        .next (if s.get (XMT_TBL_SHADOW_CNT_COUNT (tp t) (ti t)) ≤ i then s.assayEnd else s)

/-- PARITY_REWRITE (08 R195): an entry of the table with bad parity is rewritten from the lowest-numbered good quarter, or
invalidated in every quarter when none is good. -/
def execParityRewrite (tid : Fin 256) (s : State) : Host.Outcome State Fault Refusal :=
  match s.xmt.entries.find? fun e => e.tid == tid.val && !e.badPar.isEmpty with
  | none => .next s
  | some e =>
    let es := if (List.range 4).all fun q => e.badPar.contains q then s.xmt.entries.erase e
      else s.xmt.entries.map fun x => if x = e then { x with badPar := [] } else x
    .next { s with xmt := { s.xmt with entries := es } }

/-! ### What a commit does to table declarations (08 R163, R164, R168–R170) -/

/-- Whether a table holds any entry (08 R169): visible to any slot, pending, superseded, stashed or in the extension. -/
def State.xHolds (s : State) (t : Nat) : Bool := s.xmt.entries.any fun e => e.tid == t

/-- The words that table `t` takes at a commit (08 R169, R170): seed and format changes need an empty table, and an enable, a
disable or a size change may be refused. -/
def State.xCommitTable (s : State) (t : Nat) (cfg seed0 seed1 : Word) : Word × Word × Word × State :=
  let a := XMT_TBL_CFG (tp t) (ti t)
  let old := s.rd a
  let f (x : Fld) (w : Word) : Nat := x.of w
  let en := XMT_TBL_CFG_EN (tp t) (ti t)
  let cls := XMT_TBL_CFG_CLASS (tp t) (ti t)
  let fmt := XMT_TBL_CFG_FMT (tp t) (ti t)
  let kl := XMT_TBL_CFG_KLEN (tp t) (ti t)
  let cap := XMT_TBL_CFG_CAPK (tp t) (ti t)
  let o0 := s.rd (XMT_TBL_SEED0 (tp t) (ti t))
  let o1 := s.rd (XMT_TBL_SEED1 (tp t) (ti t))
  let shape := f cls cfg ≠ f cls old || f fmt cfg ≠ f fmt old || f kl cfg ≠ f kl old || f cap cfg ≠ f cap old || seed0 ≠ o0 || seed1 ≠ o1
  -- R169: a populated table keeps its shape
  let keep := shape && s.xHolds t
  let s := if keep then s.set (XMT_TBL_STAT_SEED_ERR (tp t) (ti t)) 1 else s
  let cfg := if keep then cap.put (kl.put (fmt.put (cls.put cfg (f cls old)) (f fmt old)) (f kl old)) (f cap old) else cfg
  let seed0 := if keep then o0 else seed0
  let seed1 := if keep then o1 else seed1
  -- R170: a populated table is not disabled
  let refuseDis := f en cfg = 0 && f en old = 1 && s.xHolds t
  let s := if refuseDis then s.set (XMT_TBL_STAT_CAP_ERR (tp t) (ti t)) 1 else s
  let cfg := if refuseDis then en.put cfg 1 else cfg
  let n := if f fmt cfg = 1 then 1 else 4
  let need := if f en cfg = 1 && f cls cfg = 0 then 2 * (bucketsPerWay (f cap cfg) n true / 1024) else 0
  let have' := Tbl.get (fun _ => 0) s.xmt.extents t
  let free := s.get XMT_PLACE_STAT_FREE_EXT
  if need = have' || (f en cfg = 0 && f cls cfg = 0) then (cfg, seed0, seed1, s)
  else if need ≤ free + have' then
    (cfg, seed0, seed1, ({ s with xmt := { s.xmt with extents := Tbl.set (fun _ => 0) s.xmt.extents t need } }).set XMT_PLACE_STAT_FREE_EXT (free + have' - need))
  else
    (cap.put (cls.put (en.put cfg (f en old)) (f cls old)) (f cap old), seed0, seed1, s.set (XMT_TBL_STAT_CAP_ERR (tp t) (ti t)) 1)

/-- Hold tables disabled in the new slot `k` (08 R163, R164): a key length outside its format, or a SMALL table beyond sixteen;
a SMALL table enabled in an older live slot stays enabled. -/
def State.xHoldTables (s : State) (k : Nat) : State :=
  let small (j t : Nat) : Bool := s.cfgV j (XMT_TBL_CFG_EN (tp t) (ti t)) == 1 && s.cfgV j (XMT_TBL_CFG_CLASS (tp t) (ti t)) == 1 && !s.xmt.held.contains (j, t)
  let older := (List.range 256).filter fun t => slots.any fun j => j != k && s.live j && small j t
  let fresh := (List.range 256).filter fun t => small k t && !older.contains t
  let excess := fresh.drop (16 - older.length)
  let badLen := (List.range 256).filter fun t => s.cfgV k (XMT_TBL_CFG_EN (tp t) (ti t)) == 1 &&
    !klenFits (s.cfgV k (XMT_TBL_CFG_FMT (tp t) (ti t))) (s.cfgV k (XMT_TBL_CFG_KLEN (tp t) (ti t)))
  let s := { s with xmt := { s.xmt with held := s.xmt.held ++ excess.map fun t => (k, t) } }
  forEach (excess ++ badLen) (fun t s => s.set (XMT_TBL_STAT_CFG_ERR (tp t) (ti t)) 1) s

/-- Release the extents of tables that no live slot enables any more (08 R170). -/
def State.xReleaseExtents (s : State) : State :=
  forEach (List.range 256) (fun t s =>
    let n := Tbl.get (fun _ => 0) s.xmt.extents t
    if n ≠ 0 && slots.all fun j => !s.live j || s.cfgV j (XMT_TBL_CFG_EN (tp t) (ti t)) == 0 then
      ({ s with xmt := { s.xmt with extents := Tbl.set (fun _ => 0) s.xmt.extents t 0 } }).set XMT_PLACE_STAT_FREE_EXT (s.get XMT_PLACE_STAT_FREE_EXT + n)
    else s) s

end Sys2Proof.Machine
end

