-- ==== Sys2Proof/Machine/Routes.lean ====
section
/-! DEFINITION. Routes, next-hop and encapsulation objects, ECMP groups and replication groups (09): lookups, cones, table jobs
and the capacity rules. -/

namespace Sys2Proof.Machine

open Reg

/-- The LPM page (09). -/
def lpmPage : Nat := 0x420000

/-- The OBJ page (09). -/
def objPage : Nat := 0x410000

/-! ### Routes (09 R199–R203) -/

/-- Address width of a family. -/
def famBits (v6 : Bool) : Nat := if v6 then 128 else 32

/-- The leading `n` bits of a family's address. -/
def lead (v6 : Bool) (a n : Nat) : Nat := a / 2 ^ (famBits v6 - n)

/-- A prefix with the bits beyond PLEN zero (R199). -/
def trimPfx (v6 : Bool) (a plen : Nat) : Nat := lead v6 a plen * 2 ^ (famBits v6 - plen)

/-- Whether a route's prefix contains an address. -/
def Route.contains (r : Route) (a : Nat) : Bool := lead r.v6 a r.plen == lead r.v6 r.pfx r.plen

/-- Whether two routes, or a route and an identity, are one (R199). -/
def Route.isId (r : Route) (v6 : Bool) (vrf plen pfx : Nat) : Bool :=
  r.v6 == v6 && r.vrf == vrf && r.plen == plen && r.pfx == trimPfx v6 pfx plen

/-- Bits of address that name a cone (R203): 16 of IPv4, 32 of IPv6. -/
def coneBits (v6 : Bool) : Nat := if v6 then 32 else 16

/-- Whether a route belongs to a cone at all (R203). -/
def inCone (v6 : Bool) (plen : Nat) : Bool := decide (coneBits v6 ≤ plen)

/-- Whether a route lies in the cone of an address. -/
def Route.ofCone (r : Route) (v6 : Bool) (vrf top : Nat) : Bool :=
  r.v6 == v6 && r.vrf == vrf && inCone r.v6 r.plen && lead r.v6 r.pfx (coneBits r.v6) == top

/-- The cone's record; a cone without one is in SRAM and was never hit. -/
def State.cone (s : State) (v6 : Bool) (vrf top : Nat) : Cone :=
  (s.lpm.cones.find? fun c => c.v6 == v6 && c.vrf == vrf && c.top == top).getD ⟨v6, vrf, top, false, 0, 0, 0⟩

/-- Replace a cone's record. -/
def State.setCone (s : State) (c : Cone) : State :=
  { s with lpm := { s.lpm with cones := c :: s.lpm.cones.filter fun d => !(d.v6 == c.v6 && d.vrf == c.vrf && d.top == c.top) } }

/-- Capacity of a family in routes (R197). -/
def State.lpmCap (s : State) (v6 : Bool) : Nat := 1024 * s.get (if v6 then LPM_CAP_V6_K else LPM_CAP_V4_K)

/-- SRAM use of a family: its routes and copies that are not in the extension. -/
def State.lpmUse (s : State) (v6 : Bool) : Nat := (s.lpm.routes.filter fun r => r.v6 == v6 && !r.ext).length

/-- Whether the extension has room for `n` more routes (R198). -/
def State.extRoom (s : State) (n : Nat) : Bool := decide (s.extUse + 4 * n ≤ s.extLimit)

/-- The longest visible match of an address for a slot (R201). -/
def State.lpmFind (s : State) (k : Nat) (v6 : Bool) (vrf a : Nat) : Option Route :=
  (s.lpm.routes.filter fun r => r.v6 == v6 && r.vrf == vrf && r.contains a && s.visible r.v false k).foldl
    (fun b r => match b with | none => some r | some x => if x.plen < r.plen then some r else some x) none

/-- An uncorrectable LPM error: UNCOR and local fault source 0 (R204, R217). -/
def State.lpmUncor (s : State) (addr detail : Nat) : State :=
  (s.count LPM_ECC_CNT_UNCOR lpmPage 3).raise lpmPage 0 (addr := addr) (detail := detail)

/-- Detail captured with a route error: family, VRF and PLEN (R204; the packing is the model's, log 20). -/
def routeDetail (v6 : Bool) (vrf plen : Nat) : Nat := b2n v6 + 2 * vrf + 2 ^ 16 * plen

/-- Note a hit on the cone of an address (R203): the time of the last hit, and the extension hits of the current 1 ms. -/
def State.coneHit (s : State) (r : Route) : State :=
  if inCone r.v6 r.plen then
    let c := s.cone r.v6 r.vrf (lead r.v6 r.pfx (coneBits r.v6))
    let fresh := s.elapsedUs c.hitsFrom 1000
    let c := { c with lastHit := s.now }
    s.setCone (if !r.ext then c else if fresh then { c with hits := 1, hitsFrom := s.now } else { c with hits := c.hits + 1 })
  else s

/-- The result of a route hit (R200). -/
def routeRes (r : Route) : BitVec 128 := mkRes 1 (r.plen * 256 + b2n r.ext * 65536) r.data.toNat 0 0

/-- The lookup proper (R200, R201, R204). -/
def State.lpmRead (s : State) (k : Nat) (v6 : Bool) (vrf a : Nat) (err : LErr) : BitVec 128 × State :=
  let s := if err = .corrected then s.count LPM_ECC_CNT_COR lpmPage 3 else s
  match err with
  | .node d =>
    let s := { s with lpm := { s.lpm with badNodes := (v6, vrf, d, lead v6 a d) :: s.lpm.badNodes } }
    (errRes 3, s.lpmUncor (lead v6 a d % 2 ^ 32) (routeDetail v6 vrf d))
  | _ =>
    if s.lpm.badNodes.any fun n => n.1 == v6 && n.2.1 == vrf && n.2.2.2 == lead v6 a n.2.2.1 then (errRes 3, s)
    else match s.lpmFind k v6 vrf a with
      | none => (missRes, s)
      | some r =>
        if err = .route then
          (errRes 3, { s with lpm := { s.lpm with routes := s.lpm.routes.erase r } }.lpmUncor (lead v6 r.pfx 32) (routeDetail v6 vrf r.plen))
        else if err = .extRead && r.ext then (errRes 4, s.raise lpmPage 0 (addr := lead v6 r.pfx 32) (detail := routeDetail v6 vrf r.plen))
        else (routeRes r, s.coneHit r)

/-- LPM_LOOKUP (09 R200, R201, R204). -/
def execLpmLookup (k : Nat) (err : LErr) (s : State) : Host.Outcome State Fault Refusal :=
  match s.lookup k .lpm with
  | none => .next s
  | some l =>
    let vrf := beNat (l.key.take 2)
    if s.cfgV l.vslot (ctlEn lpmPage) ≠ 1 then .next (s.answer k (errRes 2))
    else if (l.key.length ≠ 6 && l.key.length ≠ 18) || 16384 ≤ vrf then .next (s.answer k (errRes 1))
    else
      let r := s.lpmRead l.vslot (l.key.length == 18) vrf (beNat (l.key.drop 2)) err
      .next (r.2.answer k r.1)

/-! ### Cones (09 R203) and node rebuild (R204) -/

/-- Move a cone to the extension or back: its routes, pending and superseded ones among them, change place together. -/
def State.moveCone (s : State) (c : Cone) (out : Bool) : State :=
  let s := s.setCone { c with demoted := out }
  let rs := s.lpm.routes.map fun (r : Route) => if r.ofCone c.v6 c.vrf c.top then { r with ext := out } else r
  let s := { s with lpm := { s.lpm with routes := rs } }
  s.count (if out then LPM_EXT_MOVES_DEMOTED else LPM_EXT_MOVES_PROMOTED) lpmPage 3

/-- The cones of a family that hold routes in SRAM. -/
def State.sramCones (s : State) (v6 : Bool) : List Cone :=
  (s.lpm.routes.filter fun r => r.v6 == v6 && !r.ext && inCone v6 r.plen).map fun r => s.cone v6 r.vrf (lead v6 r.pfx (coneBits v6))

/-- Routes of a cone, in every state. -/
def State.coneSize (s : State) (c : Cone) : Nat := (s.lpm.routes.filter fun r => r.ofCone c.v6 c.vrf c.top).length

/-- CONE_DEMOTE (09 R203, R198): above DEMOTE_PCT the cone whose last hit is oldest moves to the extension. -/
def execConeDemote (v6 : Bool) (s : State) : Host.Outcome State Fault Refusal :=
  if s.get LPM_EXT_CFG_EXT_EN = 1 && decide (s.get LPM_EXT_CFG_DEMOTE_PCT * s.lpmCap v6 < 100 * s.lpmUse v6) then
    let cs := s.sramCones v6
    match cs.find? fun c => cs.all fun d => decide (c.lastHit ≤ d.lastHit) with
    | none => .next s
    | some c => .next (if s.extRoom (s.coneSize c) then s.moveCone c true else s)
  else .next s

/-- Extension hits of a cone in the last 1 ms. -/
def State.coneHits (s : State) (c : Cone) : Nat := if s.elapsedUs c.hitsFrom 1000 then 0 else c.hits

/-- CONE_PROMOTE (09 R203): the cone with the most extension hits returns while the use afterwards is at most PROMOTE_PCT. -/
def execConePromote (v6 : Bool) (s : State) : Host.Outcome State Fault Refusal :=
  let cs := s.lpm.cones.filter fun c => c.v6 == v6 && c.demoted
  match cs.find? fun c => cs.all fun d => decide (s.coneHits d ≤ s.coneHits c) with
  | none => .next s
  | some c =>
    .next (if s.get LPM_EXT_CFG_EXT_EN = 1 &&
        decide (100 * (s.lpmUse v6 + s.coneSize c) ≤ s.get LPM_EXT_CFG_PROMOTE_PCT * s.lpmCap v6) then s.moveCone c false else s)

/-- LPM_NODE_REBUILD (09 R204): a bad internal node is rebuilt from the routes beneath it. -/
def execLpmNodeRebuild (s : State) : Host.Outcome State Fault Refusal :=
  .next { s with lpm := { s.lpm with badNodes := s.lpm.badNodes.drop 1 } }

/-! ### Jobs of LPM and OBJ (09 R215) -/

/-- The registers of a job engine that is started by address and count. -/
structure JobRegs where
  page : Nat
  addrLo : Nat
  addrHi : Nat
  stat : Nat
  align : Nat

/-- Register set of the LPM job engine. -/
def lpmJobRegs : JobRegs := ⟨lpmPage, LPM_JOB_ADDR_LO, LPM_JOB_ADDR_HI, LPM_JOB_STAT, 64⟩

/-- Register set of the OBJ job engine. -/
def objJobRegs : JobRegs := ⟨objPage, OBJ_JOB_ADDR_LO, OBJ_JOB_ADDR_HI, OBJ_JOB_STAT, 64⟩

/-- JOB_STAT.RUNNING. -/
def JobRegs.running (r : JobRegs) : Fld := ⟨r.stat, 0, 1⟩
/-- JOB_STAT.REJ. -/
def JobRegs.rej (r : JobRegs) : Fld := ⟨r.stat, 1, 3⟩
/-- JOB_STAT.RESULT. -/
def JobRegs.result (r : JobRegs) : Fld := ⟨r.stat, 4, 4⟩
/-- JOB_STAT.DONE. -/
def JobRegs.done (r : JobRegs) : Fld := ⟨r.stat, 16, 16⟩

/-- JOB_STAT after an accepted START (R215, 08 R186). -/
def State.jobStarted (s : State) (r : JobRegs) : State :=
  (((s.set r.rej 0).set r.running 1).set r.result 0).set r.done 0

/-- JOB_STAT and INT_STAT bit 0 after the end of a job with a RESULT. -/
def State.jobEnded (s : State) (r : JobRegs) (result : Nat) : State :=
  ((s.set r.running 0).set r.result result).setInt r.page 0

/-- The record list of a job that starts now. -/
def State.newJob (s : State) (r : JobRegs) (i count : Nat) : Job :=
  { addr := ((s.rd r.addrLo).toNat + 2 ^ 32 * (s.rd r.addrHi).toNat) / r.align * r.align
    count := count
    open0 := s.mayStage i
    init := i }

/-- How a table change by a job is met (08 R185): the job's end code, or `none` to go on. -/
def State.jobGate (s : State) (j : Job) : Option Nat :=
  if !j.open0 then some 2
  else match s.txnState j.init with
    | .doomed => some 6
    | .opened => none
    | _ => some 2

/-- End the LPM job. -/
def State.endLpmJob (s : State) (result : Nat) : State := { s with lpm := { s.lpm with job := none } }.jobEnded lpmJobRegs result

/-- The LPM record is done: its RESULT is written and the job goes on or ends. -/
def State.lpmRecordDone (s : State) (result : Nat) : State :=
  match s.lpm.job with
  | none => s
  | some j =>
    let s := (s.hostWrite (j.addr + 64 * j.next + 2) [BitVec.ofNat 8 result]).set lpmJobRegs.done (j.next + 1)
    let s := if result = 4 then s.setInt lpmPage 2 else s
    if j.count ≤ j.next + 1 then s.endLpmJob 1
    else { s with lpm := { s.lpm with job := some { j with next := j.next + 1 } } }

/-- START of an LPM job by initiator `i` (09 R215). -/
def State.lpmJobStart (s : State) (i count : Nat) : State :=
  if s.lpm.job.isSome then s.set lpmJobRegs.rej 7
  else
    let t := { s with lpm := { s.lpm with job := some (s.newJob lpmJobRegs i count) } }.jobStarted lpmJobRegs
    if count = 0 then t.endLpmJob 1 else t

/-- ABORT of an LPM job. -/
def State.lpmJobAbort (s : State) : State := if s.lpm.job.isSome then s.endLpmJob 4 else s

/-- Whether an LPM record breaks a rule of its layout (Table 9.3). -/
def lpmBadRec (r : List Byte) : Bool :=
  let op := byteAt r 0
  let v6 := bit (byteAt r 1) 0
  decide (op = 0) || decide (5 < op) || decide (2 ≤ byteAt r 1) || decide (16384 ≤ leNat (bytesAt r 4 2)) || !zeros r 6 2 || !zeros r 28 36 ||
    (!v6 && !zeros r 12 12) || (decide (op ≠ 5) && decide (famBits v6 < byteAt r 3))

/-- Whether a change to a route identity is staged by an initiator that satisfies `p`. -/
def State.lStaged (s : State) (v6 : Bool) (vrf plen a : Nat) (p : Nat → Bool) : Bool :=
  s.lpm.routes.any fun r => r.isId v6 vrf plen a && ((r.v.pend && p r.v.bslot) || (match r.v.delBy with | some i => p i | none => false))

/-- The route of an identity visible to the newest committed slot. -/
def State.lVisible (s : State) (v6 : Bool) (vrf plen a : Nat) : Option Route :=
  s.lpm.routes.find? fun r => r.isId v6 vrf plen a && s.visible r.v false s.newest

/-- The pending copy of an identity staged by initiator 0. -/
def State.lPending (s : State) (v6 : Bool) (vrf plen a : Nat) : Option Route :=
  s.lpm.routes.find? fun r => r.isId v6 vrf plen a && r.v.pend && r.v.bslot == (jobWho s.lpm.job)

/-- Mark the visible route of an identity to be superseded by initiator 0's commit. -/
def State.lMark (s : State) (v6 : Bool) (vrf plen a : Nat) : State :=
  { s with lpm := { s.lpm with routes := s.lpm.routes.map fun r =>
                      if r.isId v6 vrf plen a && s.visible r.v false s.newest then { r with v := { r.v with delBy := some (jobWho s.lpm.job) } } else r } }

/-- Where a new route goes (R202, R203): SRAM, the extension, or nowhere (FULL). A route beyond the reservation takes its cone
to the extension. -/
def State.lPlace (s : State) (r : Route) : Option State :=
  let c := s.cone r.v6 r.vrf (lead r.v6 r.pfx (coneBits r.v6))
  let add (s : State) (e : Bool) : State := { s with lpm := { s.lpm with routes := s.lpm.routes ++ [{ r with ext := e }] } }
  if inCone r.v6 r.plen && c.demoted then (if s.extRoom 1 then some (add s true) else none)
  else if s.lpmUse r.v6 < s.lpmCap r.v6 then some (add s false)
  else if s.get LPM_EXT_CFG_EXT_EN = 1 && inCone r.v6 r.plen && s.extRoom (s.coneSize c + 1) then some (add (s.moveCone c true) true)
  else none

/-- INSERT and UPDATE of a route (R199, R215): result and state. -/
def State.lWrite (s : State) (v6 : Bool) (vrf plen a : Nat) (data : Word) (upd : Bool) : Nat × State :=
  let vis := (s.lVisible v6 vrf plen a).isSome
  match s.lPending v6 vrf plen a with
  | some p =>
    (if upd then 1 else 2, { s with lpm := { s.lpm with routes := s.lpm.routes.map fun r => if r = p then { r with data := data } else r } })
  | none =>
    match s.lPlace ⟨v6, vrf, plen, trimPfx v6 a plen, data, { pend := true, bslot := (jobWho s.lpm.job) }, false⟩ with
    | none => (4, s)
    | some t => (if vis && !upd then 2 else 1, if vis then t.lMark v6 vrf plen a else t)

/-- The longest match for READ and MATCH: with READ_STAGED the initiator's own pending copies take part (R215). -/
def State.lMatch (s : State) (v6 : Bool) (vrf a : Nat) : Option Route :=
  let own := s.get (LDG_TXN_CTL_READ_STAGED (jobWho s.lpm.job)) == 1
  (s.lpm.routes.filter fun r => r.v6 == v6 && r.vrf == vrf && r.contains a && own && r.v.pend && r.v.bslot == (jobWho s.lpm.job)).foldl
    (fun b r => match b with | none => some r | some x => if x.plen ≤ r.plen then some r else some x) (s.lpmFind s.newest v6 vrf a)

/-- One fetched LPM record (09 R215, Table 9.3). -/
def State.lpmRecord (s : State) (j : Job) (r : List Byte) : State :=
  let op := byteAt r 0
  let v6 := bit (byteAt r 1) 0
  let plen := byteAt r 3
  let vrf := leNat (bytesAt r 4 2)
  let a := if v6 then beNat (bytesAt r 8 16) else beNat (bytesAt r 8 4)
  let at' := j.addr + 64 * j.next
  if lpmBadRec r then s.lpmRecordDone 6
  else if op ≤ 3 then
    match s.jobGate j with
    | some e => s.endLpmJob e
    | none =>
      if s.lStaged v6 vrf plen a (fun i => i != (jobWho s.lpm.job)) || s.cascadeRefuses (jobWho s.lpm.job) then (s.doom (jobWho s.lpm.job) .conflict).lpmRecordDone 5
      else if op = 1 then
        let p := s.lWrite v6 vrf plen a (BitVec.ofNat 32 (leNat (bytesAt r 24 4))) false
        p.2.lpmRecordDone p.1
      else if (s.lVisible v6 vrf plen a).isNone && !s.lStaged v6 vrf plen a (fun i => i == (jobWho s.lpm.job)) then s.lpmRecordDone 3
      else if op = 2 then
        let p := s.lWrite v6 vrf plen a (BitVec.ofNat 32 (leNat (bytesAt r 24 4))) true
        p.2.lpmRecordDone p.1
      else
        let rs := s.lpm.routes.filter fun x => !(x.isId v6 vrf plen a && x.v.pend && x.v.bslot == (jobWho s.lpm.job))
        ({ s with lpm := { s.lpm with routes := rs } }.lMark v6 vrf plen a).lpmRecordDone 1
  else if op = 4 then
    let own := if s.get (LDG_TXN_CTL_READ_STAGED (jobWho s.lpm.job)) = 1 then s.lPending v6 vrf plen a else none
    match own.or (s.lVisible v6 vrf plen a) with
    | some x => (s.hostWrite (at' + 24) (leBytes 4 x.data.toNat)).lpmRecordDone 1
    | none => (s.hostWrite (at' + 24) (leBytes 4 0)).lpmRecordDone 3
  else
    match s.lMatch v6 vrf a with
    | some x => ((s.hostWrite (at' + 3) [BitVec.ofNat 8 x.plen]).hostWrite (at' + 24) (leBytes 4 x.data.toNat)).lpmRecordDone 1
    | none => ((s.hostWrite (at' + 3) [0]).hostWrite (at' + 24) (leBytes 4 0)).lpmRecordDone 3

/-- LPM_JOB_RECORD (09 R215). -/
def execLpmJobRecord (rec : Fetched) (s : State) : Host.Outcome State Fault Refusal :=
  match s.lpm.job with
  | none => .next s
  | some j =>
    match rec with
    | .failed => .next ((s.dmaErr (j.addr + 64 * j.next)).endLpmJob 5)
    | .bytes r => .next (s.lpmRecord j r)

/-! ### Objects (09 R205, R206) -/

/-- Capacity of an object table in objects (R197, R210). -/
def State.objCapV (s : State) (k tid : Nat) : Nat :=
  if tid = 0 then 1024 * s.cfgV k OBJ_CAP_NH_K else if tid = 1 then 1024 * s.cfgV k OBJ_CAP_ENC_K else 65536

/-- The copy of an object or group visible to slot `k`. -/
def State.objFind (s : State) (k tid index : Nat) : Option OCopy :=
  s.obj.copies.find? fun c => c.tid == tid && c.index == index && s.visible c.v false k

/-- An uncorrectable word of a copy (R217): the copy stays bad until software writes it again. -/
def State.objUncor (s : State) (c : OCopy) : State :=
  let s := { s with obj := { s.obj with copies := s.obj.copies.map fun x => if x = c then { x with bad := true } else x } }
  (s.count OBJ_ECC_CNT_UNCOR objPage 3).raise objPage 0 (addr := c.index) (detail := c.tid)

/-- Read a visible copy under an ECC outcome (R217): the copy, or `none` with ECODE 3. -/
def State.objRead (s : State) (c : OCopy) (ecc : Ecc) : Bool × State :=
  if c.bad then (false, s)
  else match ecc with
    | .good => (true, s)
    | .corrected => (true, s.count OBJ_ECC_CNT_COR objPage 3)
    | .uncorrectable => (false, s.objUncor c)

/-- The result of an object hit (R205): 12 data bytes of the part, the first byte most significant. -/
def objRes (c : OCopy) (part : Nat) : BitVec 128 :=
  let w (i : Nat) : Nat := beNat (bytesAt c.data (12 * part + 4 * i) 4)
  mkRes 1 0 (w 0) (w 1) (w 2)

/-- OBJ_LOOKUP (09 R205, R206). -/
def execObjLookup (k : Nat) (ecc : Ecc) (s : State) : Host.Outcome State Fault Refusal :=
  match s.lookup k .obj with
  | none => .next s
  | some l =>
    let n := beNat l.key
    let part := bits n 22 1
    let index := bits n 0 22
    if s.cfgV l.vslot (ctlEn objPage) ≠ 1 then .next (s.answer k (errRes 2))
    else if l.key.length ≠ 4 || 1 < l.tid || 2 ^ 23 ≤ n || (part = 1 && l.tid = 0) || s.objCapV l.vslot l.tid ≤ index then
      .next (s.answer k (errRes 1))
    else match s.objFind l.vslot l.tid index with
      | none => .next (s.answer k missRes)
      | some c =>
        let r := s.objRead c ecc
        .next (r.2.answer k (if r.1 then objRes c part else errRes 3))

/-! ### ECMP groups (09 R208, R209) -/

/-- The bucket of a hash in a group of 2^LOGNB buckets (R208). -/
def ecmpBucket (h : Word) (logn : Nat) : Nat := h.toNat / 2 ^ (32 - logn)

/-- The ECMP hash of the flow bytes (R208). -/
def State.ecmpHash (s : State) (k : Nat) (flow : List Byte) : Word := crc 0x04C11DB7 (s.wordV k OBJ_ECMP_SEED) flow

/-- ECMP_LOOKUP (09 R208). -/
def execEcmpLookup (k : Nat) (ecc : Ecc) (s : State) : Host.Outcome State Fault Refusal :=
  match s.lookup k .ecmp with
  | none => .next s
  | some l =>
    if s.cfgV l.vslot (ctlEn objPage) ≠ 1 then .next (s.answer k (errRes 2))
    else if l.key.length < 3 || 42 < l.key.length then .next (s.answer k (errRes 1))
    else match s.objFind l.vslot 2 (beNat (l.key.take 2)) with
      | none => .next (s.answer k missRes)
      | some c =>
        let r := s.objRead c ecc
        let h := s.ecmpHash l.vslot (l.key.drop 2)
        let b := ecmpBucket h c.logn
        if !r.1 then .next (r.2.answer k (errRes 3))
        else match c.buckets.getD b none with
          | none => .next (r.2.answer k missRes)
          | some m => .next (r.2.answer k (mkRes 1 0 m.toNat (b % 4096) h.toNat))

/-- The share of member `i` (R209). -/
def ecmpShare (nb m i : Nat) : Nat := if i < nb % m then nb / m + 1 else nb / m

/-- The keep pass (R209): buckets in order keep a member of the new list while its count is below its share. -/
def ecmpKeep (nb : Nat) (mem : List Word) : List (Option Word) → List Nat → List (Option Word) × List Nat
  | [], cnt => ([], cnt)
  | b :: r, cnt =>
    let i := match b with | some x => mem.idxOf x | none => mem.length
    if i < mem.length && decide (cnt.getD i 0 < ecmpShare nb mem.length i) then
      let p := ecmpKeep nb mem r (upd cnt i (· + 1))
      (b :: p.1, p.2)
    else
      let p := ecmpKeep nb mem r cnt
      (none :: p.1, p.2)

/-- The fill pass (R209): buckets left none take the lowest member below its share. -/
def ecmpFill (nb : Nat) (mem : List Word) : List (Option Word) → List Nat → List (Option Word)
  | [], _ => []
  | some b :: r, cnt => some b :: ecmpFill nb mem r cnt
  | none :: r, cnt =>
    match (List.range mem.length).find? fun i => decide (cnt.getD i 0 < ecmpShare nb mem.length i) with
    | some i => some (mem.getD i 0) :: ecmpFill nb mem r (upd cnt i (· + 1))
    | none => none :: ecmpFill nb mem r cnt

/-- The bucket array of a new member list (R209), from the array it replaces. -/
def ecmpAssign (nb : Nat) (mem : List Word) (old : List (Option Word)) : List (Option Word) :=
  if mem.isEmpty then List.replicate nb none
  else
    let p := ecmpKeep nb mem old (List.replicate mem.length 0)
    ecmpFill nb mem p.1 p.2

/-! ### Object jobs (09 R215) -/

/-- End the OBJ job. -/
def State.endObjJob (s : State) (result : Nat) : State := { s with obj := { s.obj with job := none } }.jobEnded objJobRegs result

/-- The OBJ record is done. -/
def State.objRecordDone (s : State) (result : Nat) : State :=
  match s.obj.job with
  | none => s
  | some j =>
    let s := (s.hostWrite (j.addr + 64 * j.next + 2) [BitVec.ofNat 8 result]).set objJobRegs.done (j.next + 1)
    let s := if result = 4 then s.setInt objPage 2 else s
    if j.count ≤ j.next + 1 then s.endObjJob 1
    else { s with obj := { s.obj with job := some { j with next := j.next + 1 } } }

/-- START of an OBJ job by initiator `i` (09 R215). -/
def State.objJobStart (s : State) (i count : Nat) : State :=
  if s.obj.job.isSome then s.set objJobRegs.rej 7
  else
    let t := { s with obj := { s.obj with job := some (s.newJob objJobRegs i count) } }.jobStarted objJobRegs
    if count = 0 then t.endObjJob 1 else t

/-- ABORT of an OBJ job. -/
def State.objJobAbort (s : State) : State := if s.obj.job.isSome then s.endObjJob 4 else s

/-- Free copy slots of an object table (R206, OBJ_COPY_FREE): each copy of an object beyond one takes a slot. -/
def State.copyFree (s : State) (tid : Nat) : Nat :=
  let cs := s.obj.copies.filter fun c => c.tid == tid
  32768 - (cs.length - (cs.map OCopy.index).eraseDups.length)

/-- Free ECMP member entries, bucket entries and replication entries (Table 9.1). -/
def State.memberFree (s : State) : Nat := 262144 - (s.obj.copies.map fun c => c.members.length).sum

/-- Free ECMP bucket entries (OBJ_POOL_FREE). -/
def State.bucketFree (s : State) : Nat := 2097152 - (s.obj.copies.map fun c => c.buckets.length).sum

/-- Free replication entries (OBJ_REPL_FREE). -/
def State.replFree (s : State) : Nat := 262144 - (s.obj.copies.map fun c => c.devs.length + c.ports.length).sum

/-- The replication entry of a written 64-bit value (R210): bits [63:32] and the zero bits are ignored. -/
def devEntry (w : Nat) : RepEntry := ⟨bits w 0 10, 0⟩

/-- A port entry of a replication list. -/
def portEntry (w : Nat) : RepEntry := ⟨bits w 0 25, 0⟩

/-- A list has no two equal elements. -/
def distinct {α : Type} [DecidableEq α] (l : List α) : Bool := l.eraseDups.length == l.length

/-- Whether an OBJ record breaks a rule of its layout (Table 9.4, R208–R210, R215). -/
def State.objBadRec (s : State) (r l : List Byte) : Bool :=
  let op := byteAt r 0
  let tid := byteAt r 3
  let n := leNat (bytesAt r 10 2)
  let m := leNat (bytesAt r 12 2)
  let nb := byteAt r 8
  (op != 1 && op != 3 && op != 4) || byteAt r 1 != 0 || decide (3 < tid) || !zeros r 32 32 ||
    decide (s.objCapV s.newest tid ≤ leNat (bytesAt r 4 4)) ||
    (op == 1 && tid == 2 && (decide (nb < 6) || decide (12 < nb) || decide (512 < n) || decide (2 ^ nb < n) ||
      !distinct ((List.range n).map fun i => leNat (bytesAt l (4 * i) 4)))) ||
    (op == 1 && tid == 3 && (decide (1024 < n) || decide (512 < m) ||
      !distinct ((List.range n).map fun i => bits (leNat (bytesAt l (8 * i) 8)) 0 10) ||
      (List.range m).any fun i => decide (256 < bits (leNat (bytesAt l (8 * (n + i)) 8)) 0 9)))

/-- Whether a change to an object is staged by an initiator that satisfies `p`. -/
def State.oStaged (s : State) (tid index : Nat) (p : Nat → Bool) : Bool :=
  s.obj.copies.any fun c => c.tid == tid && c.index == index &&
    ((c.v.pend && p c.v.bslot) || (match c.v.delBy with | some i => p i | none => false))

/-- The pending copy of an object staged by initiator 0. -/
def State.oPending (s : State) (tid index : Nat) : Option OCopy :=
  s.obj.copies.find? fun c => c.tid == tid && c.index == index && c.v.pend && c.v.bslot == (jobWho s.obj.job)

/-- Mark the visible copy of an object to be superseded by initiator 0's commit (R206). -/
def State.oMark (s : State) (tid index : Nat) : State :=
  { s with obj := { s.obj with copies := s.obj.copies.map fun c =>
                      if c.tid = tid && c.index = index && s.visible c.v false s.newest then { c with v := { c.v with delBy := some (jobWho s.obj.job) } } else c } }

/-- The pending copy that a WRITE record makes. -/
def State.oMake (s : State) (r l : List Byte) : OCopy :=
  let tid := byteAt r 3
  let index := leNat (bytesAt r 4 4)
  let n := leNat (bytesAt r 10 2)
  let m := leNat (bytesAt r 12 2)
  let v : VTag := { pend := true, bslot := (jobWho s.obj.job) }
  if tid = 0 then { tid := 0, index := index, data := bytesAt r 8 12, v := v }
  else if tid = 1 then { tid := 1, index := index, data := bytesAt r 8 24, v := v }
  else if tid = 2 then
    let logn := byteAt r 8
    let mem := (List.range n).map fun i => BitVec.ofNat 32 (leNat (bytesAt l (4 * i) 4))
    let none' := List.replicate (2 ^ logn) none
    let old := match s.objFind s.newest 2 index with | some c => if c.logn = logn then c.buckets else none' | none => none'
    { tid := 2, index := index, logn := logn, members := mem, buckets := ecmpAssign (2 ^ logn) mem old, v := v }
  else
    { tid := 3, index := index, v := v
      devs := (List.range n).map fun i => devEntry (leNat (bytesAt l (8 * i) 8))
      ports := (List.range m).map fun i => portEntry (leNat (bytesAt l (8 * (n + i)) 8)) }

/-- Whether the pools and copy slots have room for a copy (R206, R208, R210); `own` is the pending copy it replaces. -/
def State.oRoom (s : State) (c : OCopy) (own : Option OCopy) : Bool :=
  let s : State := match own with | some o => { s with obj := { s.obj with copies := s.obj.copies.erase o } } | none => s
  let n := (s.obj.copies.filter fun x => x.tid == c.tid && x.index == c.index).length
  decide (n < 16) &&
    (if c.tid < 2 then decide (n = 0 ∨ 0 < s.copyFree c.tid)
     else if c.tid = 2 then decide (c.members.length ≤ s.memberFree) && decide (c.buckets.length ≤ s.bucketFree)
     else decide (c.devs.length + c.ports.length ≤ s.replFree))

/-- The list that a READ of a group writes (R215): ECMP members then buckets, or replication entries with their DROPS. -/
def readList (c : OCopy) : List Byte :=
  if c.tid = 2 then c.members.flatMap (fun m => leBytes 4 m.toNat) ++ c.buckets.flatMap fun b => leBytes 4 ((b.getD 0).toNat)
  else (c.devs ++ c.ports).flatMap fun e => leBytes 4 e.w ++ leBytes 4 e.drops

/-- The DATA bytes 8–15 that a READ of a group writes into its record: LOGNB and the list counts. -/
def readHead (c : OCopy) : List Byte :=
  [BitVec.ofNat 8 c.logn, 0] ++ leBytes 2 (if c.tid = 2 then c.members.length else c.devs.length) ++ leBytes 2 c.ports.length ++ [0, 0]

/-- One fetched OBJ record with the list it names (09 R215, Table 9.4). -/
def State.objRecord (s : State) (j : Job) (r : List Byte) (list : Fetched) : State :=
  let op := byteAt r 0
  let tid := byteAt r 3
  let index := leNat (bytesAt r 4 4)
  let at' := j.addr + 64 * j.next
  let needs := op == 1 && (tid == 2 || tid == 3)
  let l := match list with | .bytes b => b | .failed => []
  if needs && list == .failed then (s.dmaErr (leNat (bytesAt r 16 8))).endObjJob 5
  else if s.objBadRec r l then s.objRecordDone 6
  else if op = 4 then
    let own := if s.get (LDG_TXN_CTL_READ_STAGED (jobWho s.obj.job)) = 1 then s.oPending tid index else none
    match own.or (s.objFind s.newest tid index) with
    | none => s.objRecordDone 3
    | some c =>
      if tid < 2 then (s.hostWrite (at' + 8) c.data).objRecordDone 1
      else ((s.hostWrite (leNat (bytesAt r 16 8)) (readList c)).hostWrite (at' + 8) (readHead c)).objRecordDone 1
  else
    match s.jobGate j with
    | some e => s.endObjJob e
    | none =>
      if s.oStaged tid index (fun i => i != (jobWho s.obj.job)) || s.cascadeRefuses (jobWho s.obj.job) then (s.doom (jobWho s.obj.job) .conflict).objRecordDone 5
      else if op = 1 then
        let c := s.oMake r l
        let own := s.oPending tid index
        if !s.oRoom c own then s.objRecordDone 4
        else match own with
          | some o => { s with obj := { s.obj with copies := s.obj.copies.map fun x => if x = o then c else x } }.objRecordDone 2
          | none => ({ s with obj := { s.obj with copies := s.obj.copies ++ [c] } }.oMark tid index).objRecordDone 2
      else if (s.objFind s.newest tid index).isNone && !s.oStaged tid index (fun i => i == (jobWho s.obj.job)) then s.objRecordDone 3
      else
        let cs := s.obj.copies.filter fun x => !(x.tid == tid && x.index == index && x.v.pend && x.v.bslot == (jobWho s.obj.job))
        ({ s with obj := { s.obj with copies := cs } }.oMark tid index).objRecordDone 1

/-- OBJ_JOB_RECORD (09 R209, R210, R215): `list` is what the fetch of the record's member or entry list brought. -/
def execObjJobRecord (rec : Fetched) (list : Fetched) (s : State) : Host.Outcome State Fault Refusal :=
  match s.obj.job with
  | none => .next s
  | some j =>
    match rec with
    | .failed => .next ((s.dmaErr (j.addr + 64 * j.next)).endObjJob 5)
    | .bytes r => .next (s.objRecord j r list)

/-! ### Capacity (09 R197) -/

/-- Extents of a number of bytes. -/
def extentsOf (n : Nat) : Nat := (n + 65535) / 65536

/-- Extents of a route family's capacity word: IPv4 6 bytes, IPv6 14 bytes a route (R197). -/
def lpmExtents (v6 : Bool) (k : Nat) : Nat := extentsOf (k * 1024 * (if v6 then 14 else 6))

/-- Extents of an object table's capacity (R197). -/
def objExtents (enc : Bool) (k : Nat) : Nat := extentsOf ((k * 1024 + 32768) * (if enc then 32 else 16))

/-- Extents of the fixed ECMP and replication structures (Table 9.1), taken with OBJ's first reservation. -/
def objFixedExtents : Nat := 208

/-- Take or give back extents. -/
def State.setFreeExt (s : State) (n : Nat) : State := s.set XMT_PLACE_STAT_FREE_EXT n

/-- The words of CTL.EN and LPM_CAP that a commit makes live (R197). -/
def State.lpmCommit (s : State) (ctl cap : Word) : Word × Word × State :=
  let en := ctlEn lpmPage
  let free := s.get XMT_PLACE_STAT_FREE_EXT
  let v4 := LPM_CAP_V4_K.of cap
  let v6 := LPM_CAP_V6_K.of cap
  let old := s.rd LPM_CAP
  let err (s : State) : State := (s.set LPM_STAT_CAP_ERR 1).setInt lpmPage 1
  let put (s : State) (a b : Nat) : State := { s with lpm := { s.lpm with reserved := some (a, b) } }
  match s.lpm.reserved with
  | none =>
    if en.of ctl = 0 then (ctl, cap, s)
    else
      let need := lpmExtents false v4 + lpmExtents true v6
      if need ≤ free then (ctl, cap, put (s.setFreeExt (free - need)) (lpmExtents false v4) (lpmExtents true v6))
      else (en.put ctl 0, cap, err s)
  | some (r4, r6) =>
    let held (f : Bool) : Bool := s.lpm.routes.any fun r => r.v6 == f
    let ok4 := v4 = LPM_CAP_V4_K.of old || (!held false && decide (lpmExtents false v4 ≤ free + r4))
    let n4 := if ok4 then v4 else LPM_CAP_V4_K.of old
    let free := free + r4 - (if ok4 then lpmExtents false v4 else r4)
    let r4 := if ok4 then lpmExtents false v4 else r4
    let ok6 := v6 = LPM_CAP_V6_K.of old || (!held true && decide (lpmExtents true v6 ≤ free + r6))
    let n6 := if ok6 then v6 else LPM_CAP_V6_K.of old
    let free := free + r6 - (if ok6 then lpmExtents true v6 else r6)
    let r6 := if ok6 then lpmExtents true v6 else r6
    let s := put (s.setFreeExt free) r4 r6
    (ctl, LPM_CAP_V6_K.put (LPM_CAP_V4_K.put cap n4) n6, if ok4 && ok6 then s else err s)

/-- The words of CTL.EN and OBJ_CAP that a commit makes live (R197). -/
def State.objCommit (s : State) (ctl cap : Word) : Word × Word × State :=
  let en := ctlEn objPage
  let free := s.get XMT_PLACE_STAT_FREE_EXT
  let nh := OBJ_CAP_NH_K.of cap
  let enc := OBJ_CAP_ENC_K.of cap
  let old := s.rd OBJ_CAP
  let err (s : State) : State := (s.set OBJ_STAT_CAP_ERR 1).setInt objPage 1
  let put (s : State) (a b : Nat) : State := { s with obj := { s.obj with reserved := some (a, b) } }
  let held (t : Nat) : Bool := s.obj.copies.any fun c => c.tid == t
  match s.obj.reserved with
  | none =>
    let okN := nh = OBJ_CAP_NH_K.of old || decide (nh ≤ 4096)
    let okE := enc = OBJ_CAP_ENC_K.of old || decide (enc ≤ 4096)
    let nh := if okN then nh else OBJ_CAP_NH_K.of old
    let enc := if okE then enc else OBJ_CAP_ENC_K.of old
    let cap := OBJ_CAP_ENC_K.put (OBJ_CAP_NH_K.put cap nh) enc
    let s := if okN && okE then s else err s
    if en.of ctl = 0 then (ctl, cap, s)
    else
      let need := objExtents false nh + objExtents true enc + objFixedExtents
      if need ≤ free then (ctl, cap, put (s.setFreeExt (free - need)) (objExtents false nh) (objExtents true enc))
      else (en.put ctl 0, cap, err s)
  | some (rn, re) =>
    let okN := nh = OBJ_CAP_NH_K.of old || (decide (nh ≤ 4096) && !held 0 && decide (objExtents false nh ≤ free + rn))
    let nN := if okN then nh else OBJ_CAP_NH_K.of old
    let free := free + rn - (if okN then objExtents false nh else rn)
    let rn := if okN then objExtents false nh else rn
    let okE := enc = OBJ_CAP_ENC_K.of old || (decide (enc ≤ 4096) && !held 1 && decide (objExtents true enc ≤ free + re))
    let nE := if okE then enc else OBJ_CAP_ENC_K.of old
    let free := free + re - (if okE then objExtents true enc else re)
    let re := if okE then objExtents true enc else re
    let s := put (s.setFreeExt free) rn re
    (ctl, OBJ_CAP_ENC_K.put (OBJ_CAP_NH_K.put cap nN) nE, if okN && okE then s else err s)

/-- The entries of a freed replication list add their DROPS to the equal entry of the newest list (R214). -/
def carryDrops (old new : List RepEntry) : List RepEntry :=
  old.foldl (fun l e =>
    match l.findIdx? fun x => x.w == e.w with
    | some i => upd l i fun x => { x with drops := min (x.drops + e.drops) (2 ^ 32 - 1) }
    | none => l) new

/-- Copies of objects and groups after a sweep keeps those that `keep` keeps (R206, R214). -/
def State.objSweep (s : State) (keep : OCopy → Option OCopy) : State :=
  let gone := s.obj.copies.filter fun c => c.tid == 3 && (keep c).isNone
  let cs := s.obj.copies.filterMap keep
  let newest (c : OCopy) : Bool := c.tid == 3 && s.visible c.v false s.newest
  let cs := gone.foldl (fun cs g => cs.map fun c =>
    if newest c && c.index == g.index then { c with
      devs := carryDrops g.devs c.devs
      ports := carryDrops g.ports c.ports } else c) cs
  { s with obj := { s.obj with copies := cs } }

end Sys2Proof.Machine
end

