-- ==== Sys2Proof/Machine/Search.lean ====
section
/-! DEFINITION. Associative search (10): lists, profiles, searches with verification, the scrubber, class summaries, rule jobs
and the slot masks. -/

namespace Sys2Proof.Machine

open Reg

/-- ACS page of instance `q` (10). -/
def acsPage (q : Nat) : Nat := 0x400000 + 0x1000 * q

/-! ### Lists and profiles (10 R219, R221) -/

/-- Rows per rule of a WIDTH code. -/
def acsG (width : Nat) : Nat := if width = 0 then 1 else if width = 1 then 2 else 4

/-- A list's configuration word for slot `k`. -/
def State.listWord (s : State) (k l : Nat) : Word := s.wordV k (ACS_LIST_CFG l)

/-- A list is enabled for slot `k`: EN 1 and WIDTH not 3. -/
def State.listOn (s : State) (k l : Nat) : Bool :=
  (ACS_LIST_CFG_EN l).of (s.listWord k l) == 1 && (ACS_LIST_CFG_WIDTH l).of (s.listWord k l) != 3

/-- First list row of a position's copy (R219). -/
def rowIndex (g dual p c : Nat) : Nat := (1 + dual) * g * p + c * g

/-- Positions of a list word (R219). -/
def listPositions (w : Word) : Nat :=
  (ACS_LIST_CFG_BLOCKS 0).of w * 512 / (acsG ((ACS_LIST_CFG_WIDTH 0).of w) * (1 + (ACS_LIST_CFG_DUAL 0).of w))

/-- The list's block that holds a position's copy, under a list word. -/
def listBlock (w : Word) (p c : Nat) : Nat := rowIndex (acsG ((ACS_LIST_CFG_WIDTH 0).of w)) ((ACS_LIST_CFG_DUAL 0).of w) p c / 512

/-- The lists that profile `p` searches for slot `k`, ascending (R221). -/
def State.profLists (s : State) (k p : Nat) : List Nat :=
  let w := s.wordV k (ACS_PROF p)
  let l (f e : Fld) : List Nat := if e.of w = 1 then [f.of w] else []
  let ls := l (ACS_PROF_LIST0 p) (ACS_PROF_L0_EN p) ++ l (ACS_PROF_LIST1 p) (ACS_PROF_L1_EN p) ++ l (ACS_PROF_LIST2 p) (ACS_PROF_L2_EN p)
  (List.range 64).flatMap fun i => ls.filter fun x => x == i

/-- Whether profile `p` is held disabled or not enabled for slot `k` (R221). -/
def State.profOn (s : State) (k p : Nat) : Bool :=
  let w := s.wordV k (ACS_PROF p)
  let width := (ACS_PROF_WIDTH p).of w
  (ACS_PROF_EN p).of w == 1 && width != 3 &&
    (s.profLists k p).all fun l => s.listOn k l && (ACS_LIST_CFG_WIDTH l).of (s.listWord k l) == width

/-! ### Matching (10 R222, R226) -/

/-- Whether a key satisfies a rule copy on its first `20g` bytes (R218, R226). -/
def ACopy.matches (c : ACopy) (key : List Byte) : Bool :=
  (List.range key.length).all fun i => (key.getD i 0 &&& c.mask.getD i 0) == (c.value.getD i 0 &&& c.mask.getD i 0)

/-- Verification of a winner (R226): the rule matches and its SMASK holds the slot. -/
def ACopy.verified (c : ACopy) (key : List Byte) (k : Nat) : Bool := c.matches key && bit c.smask k

/-- The class summary of a list's block. -/
def State.summaryOf (s : State) (l b : Nat) : BitVec 256 := Tbl.get (fun _ => 0) s.acs.summary (l * 128 + b)

/-- The blocks of a list that a search enables (R222, R223). -/
def State.enabledBlocks (s : State) (k l : Nat) (key : List Byte) : List Nat :=
  let w := s.listWord k l
  (List.range ((ACS_LIST_CFG_BLOCKS l).of w)).filter fun b =>
    (ACS_LIST_CFG_CLASS_EN l).of w == 0 || (s.summaryOf l b).getLsbD (byteAt key 0)

/-- The groups of a list that the array reports as matching, in row order after row `from'`: what the rule store says, less the
rows that wrongly miss, with the rows that wrongly hit (R222, R226, R227). -/
def State.arrayMatches (s : State) (k l : Nat) (key : List Byte) (hits misses : List (Nat × Nat × Nat)) (from' : Nat) : List (Nat × Nat) :=
  let w := s.listWord k l
  let good := (s.acs.copies.filter fun c => c.list == l && c.verified key k && !misses.contains (l, c.pos, c.copy)).map fun c => (c.pos, c.copy)
  let bad := (hits.filter fun h => h.1 == l && decide (h.2.1 < listPositions w)).map fun h => h.2
  (good ++ bad).filter fun g =>
    let r := rowIndex (acsG ((ACS_LIST_CFG_WIDTH l).of w)) ((ACS_LIST_CFG_DUAL l).of w) g.1 g.2
    decide (from' ≤ r) && (s.enabledBlocks k l key).contains (listBlock w g.1 g.2)

/-- The group with the lowest row index (R222). -/
def lowestGroup (gs : List (Nat × Nat)) : Option (Nat × Nat) :=
  gs.find? fun g => gs.all fun x => decide (g.1 < x.1) || (decide (g.1 = x.1) && decide (g.2 ≤ x.2))

/-- The rule copy of a group. -/
def State.ruleAt (s : State) (l p c : Nat) : Option ACopy := s.acs.copies.find? fun x => x.list == l && x.pos == p && x.copy == c

/-- The outcome of a search in progress. -/
structure Search where
  repeats : Nat := 0
  ended : Bool := false
  found : List (Nat × Option ACopy) := []

/-- Count a false hit (R226): FALSE_HIT, INT_STAT bit 2, and a rewrite of the group is queued. -/
def State.falseHit (s : State) (q l : Nat) (g : Nat × Nat) : State :=
  let s := ((s.count (ACS_FALSE_HIT_FALSE_HIT q) (acsPage 0) 4).setInt (acsPage 0) 2)
  { s with acs := { s.acs with rewrites := s.acs.rewrites ++ [(⟨q, l, g.1, g.2⟩, false)] } }

/-- Enabled block-cycles of one port occupation (R234). -/
def State.blockCycles (s : State) (q k l : Nat) (key : List Byte) : State :=
  s.inc64 (ACS_BLK_LO q) (ACS_BLK_HI q) (acsG ((ACS_LIST_CFG_WIDTH l).of (s.listWord k l)) * (s.enabledBlocks k l key).length)

/-- Search one list, repeating after each false hit (R226); a third false hit of the search ends it and raises source 1. -/
def State.searchList (s : State) (q k l : Nat) (key : List Byte) (hits misses : List (Nat × Nat × Nat)) :
    Nat → Nat → Search → Search × State
  | 0, _, r => (r, s)
  | fuel + 1, from', r =>
    let s := s.blockCycles q k l key
    match lowestGroup (s.arrayMatches k l key hits misses from') with
    | none => ({ r with found := r.found ++ [(l, none)] }, s)
    | some g =>
      match (s.ruleAt l g.1 g.2).filter fun c => c.verified key k with
      | some c => ({ r with found := r.found ++ [(l, some c)] }, s)
      | none =>
        let s := s.falseHit q l g
        if 2 ≤ r.repeats then ({ r with ended := true }, s.raise (acsPage q) 1)
        else
          let w := s.listWord k l
          let next := rowIndex (acsG ((ACS_LIST_CFG_WIDTH l).of w)) ((ACS_LIST_CFG_DUAL l).of w) g.1 g.2 + 1
          s.searchList q k l key hits misses fuel next { r with repeats := r.repeats + 1 }

/-- Search the lists of a profile; an ended search goes no further. -/
def State.searchAll (s : State) (q k : Nat) (key : List Byte) (hits misses : List (Nat × Nat × Nat)) : List Nat → Search → Search × State
  | [], r => (r, s)
  | l :: ls, r =>
    let p := s.searchList q k l key hits misses 4 0 r
    if p.1.ended then p else p.2.searchAll q k key hits misses ls p.1

/-- The result register of a completed search (R224). -/
def searchRes (r : Search) : BitVec 128 :=
  let act (i : Nat) : Nat := match r.found.getD i (0, none) with | (_, some c) => c.action.toNat | _ => 0
  let hit (i : Nat) : Bool := (r.found.getD i (0, none)).2.isSome
  let any := hit 0 || hit 1 || hit 2
  let pos := (((r.found.filterMap fun x => x.2).head?).map ACopy.pos).getD 0
  let w0 := 256 * (b2n (hit 0) + 2 * b2n (hit 1) + 4 * b2n (hit 2)) + 4096 * r.repeats + 65536 * pos
  mkRes (if any then 1 else 2) w0 (act 0) (act 1) (act 2)

/-- Whether the search denies (R225): the lowest hit among lists with DENY_EN has action bit 31. -/
def State.searchDenies (s : State) (k : Nat) (r : Search) : Bool :=
  match (r.found.filter fun x => x.2.isSome && (ACS_LIST_CFG_DENY_EN x.1).of (s.listWord k x.1) == 1).head? with
  | some (_, some c) => bit c.action.toNat 31
  | _ => false

/-- The rule-store word of a winner is uncorrectable in instance `q` (R228): UNCOR, source 0 with list and position. -/
def State.ruleUncor (s : State) (q : Nat) (c : ACopy) : State :=
  let cs := s.acs.copies.map fun (x : ACopy) => if x = c then { x with bad := q :: x.bad } else x
  let s := { s with acs := { s.acs with copies := cs } }
  (s.count (ACS_ECC_CNT_UNCOR q) (acsPage 0) 4).raise (acsPage q) 0 (addr := c.pos) (detail := c.list)

/-- The end of a search (R224–R226, R228). -/
def State.searchEnd (s : State) (k q : Nat) (l : Lookup) (ecc : Ecc) (r : Search) : State :=
  let wins := r.found.filterMap fun x => x.2
  if r.ended then s.answer k (errRes 3)
  else if wins.any fun c => c.bad.contains q then s.answer k (errRes 3)
  else match ecc, wins.head? with
    | .uncorrectable, some c => (s.ruleUncor q c).answer k (errRes 3)
    | e, _ =>
      let s := if e = .corrected then s.count (ACS_ECC_CNT_COR q) (acsPage 0) 4 else s
      let s := if s.searchDenies l.vslot r && decide ((s.frame l.frame).stage = .pass) then
        s.modFrame l.frame fun f => { f with acsDeny := true } else s
      s.answer k (searchRes r)

/-- ACS_SEARCH (10 R222, R224–R226): `hits` and `misses` are the groups (list, position, copy) whose array rows wrongly match or
wrongly fail to match, `ecc` what the rule store delivered. -/
def execAcsSearch (k : Nat) (hits misses : List (Nat × Nat × Nat)) (ecc : Ecc) (s : State) : Host.Outcome State Fault Refusal :=
  match s.lookup k .acs with
  | none => .next s
  | some l =>
    let q := quarterOf l.wks
    if s.cfgV l.vslot (ctlEn (acsPage 0)) ≠ 1 then .next (s.answer k (errRes 2))
    else if 64 ≤ l.tid then .next (s.answer k (errRes 1))
    else if !s.profOn l.vslot l.tid then .next (s.answer k (errRes 2))
    else if l.key.length ≠ 20 * acsG (s.cfgV l.vslot (ACS_PROF_WIDTH l.tid)) then .next (s.answer k (errRes 1))
    else
      let s := s.inc64 (ACS_SRCH_LO q) (ACS_SRCH_HI q)
      let r := s.searchAll q l.vslot l.key hits misses (s.profLists l.vslot l.tid) {}
      .next (r.2.searchEnd k q l ecc r.1)

/-! ### Rewrites, the scrubber and class summaries (10 R223, R227, R228, R231) -/

/-- ACS_ROW_REWRITE (10 R231): the update port of instance `q` rewrites its next queued group from the rule store. -/
def execAcsRowRewrite (q : Fin 4) (s : State) : Host.Outcome State Fault Refusal :=
  match s.acs.rewrites.find? fun r => r.1.inst == q.val with
  | none => .next s
  | some r => .next { s with acs := { s.acs with rewrites := s.acs.rewrites.erase r } }

/-- ACS_SCRUB (10 R227): with EN 1 the next row of instance `q` is compared; a differing group (`found`) is queued for a rewrite
and SCRUB_FIX rises. -/
def execAcsScrub (q : Fin 4) (found : Option (Nat × Nat × Nat)) (s : State) : Host.Outcome State Fault Refusal :=
  if s.get ACS_SCRUB_CFG_EN ≠ 1 then .next s
  else
    let n := (Tbl.get (fun _ => 0) s.acs.scrubAt q.val + 1) % 65536
    let s := { s with acs := { s.acs with scrubAt := Tbl.set (fun _ => 0) s.acs.scrubAt q.val n } }
    let s := s.set (ACS_STAT_SCRUB_ACT q) (b2n (n != 0))
    match found with
    | none => .next s
    | some g =>
      let s := { s with acs := { s.acs with rewrites := s.acs.rewrites ++ [((⟨q, g.1, g.2.1, g.2.2⟩ : AGroup), true)] } }
      .next ((s.count (ACS_SCRUB_FIX_SCRUB_FIX q) (acsPage 0) 4).setInt (acsPage 0) 3)

/-- The class bits that a rule needs (R223). -/
def classBits (c : ACopy) : BitVec 256 :=
  BitVec.ofNat 256 (((List.range 256).filter fun x =>
    (BitVec.ofNat 8 x &&& c.mask.getD 0 0) == (c.value.getD 0 0 &&& c.mask.getD 0 0)).foldl (fun a x => a + 2 ^ x) 0)

/-- The summary that a block of a list needs. -/
def State.neededSummary (s : State) (l b : Nat) : BitVec 256 :=
  (s.acs.copies.filter fun c => c.list == l && listBlock (s.rd (ACS_LIST_CFG l)) c.pos c.copy == b).foldl (fun a c => a ||| classBits c) 0

/-- Set a block's summary. -/
def State.setSummary (s : State) (i : Nat) (v : BitVec 256) : State :=
  { s with acs := { s.acs with summary := Tbl.set (fun _ => 0) s.acs.summary i v } }

/-- ACS_SUMMARY_RECOMPUTE (10 R223): the next block with an invalidate gets its summary anew. -/
def execAcsSummaryRecompute (s : State) : Host.Outcome State Fault Refusal :=
  match s.acs.stale with
  | [] => .next s
  | i :: r => .next ({ s with acs := { s.acs with stale := r } }.setSummary i (s.neededSummary (i / 128) (i % 128)))

/-- The block of a copy is noted for recomputation. -/
def State.staleOf (s : State) (c : ACopy) : Nat := c.list * 128 + listBlock (s.rd (ACS_LIST_CFG c.list)) c.pos c.copy

/-- Keep the rule copies that are not free; the blocks of the freed ones have stale summaries. -/
def State.setRules (s : State) (cs : List ACopy) : State :=
  let live := cs.filter fun c => c.smask != 0 || c.pend.isSome
  let gone := cs.filter fun c => !(c.smask != 0 || c.pend.isSome)
  { s with acs := { s.acs with
    copies := live
    stale := (s.acs.stale ++ gone.map s.staleOf).eraseDups } }

/-- ACS_RULESTORE_REWRITE (10 R228): a bad entry is rewritten from a good instance, or its copy is invalidated in all. -/
def execAcsRulestoreRewrite (s : State) : Host.Outcome State Fault Refusal :=
  match s.acs.copies.find? fun c => !c.bad.isEmpty with
  | none => .next s
  | some c =>
    if (List.range 4).all fun q => c.bad.contains q then
      .next { s with acs := { s.acs with
        copies := s.acs.copies.erase c
        stale := (s.acs.stale ++ [s.staleOf c]).eraseDups } }
    else .next { s with acs := { s.acs with copies := s.acs.copies.map fun (x : ACopy) => if x = c then { x with bad := [] } else x } }

/-! ### Slot masks (10 R229) -/

/-- Set or clear a bit of a number. -/
def putBit (x i : Nat) (v : Bool) : Nat := x % 2 ^ i + (b2n v) * 2 ^ i + x / 2 ^ (i + 1) * 2 ^ (i + 1)

/-- The commit of initiator `i` opens slot `n` after slot `prev` (R229). -/
def State.acsOpenSlot (s : State) (i n prev : Nat) : State :=
  s.setRules (s.acs.copies.map fun (c : ACopy) =>
    if c.pend = some i then { c with
      pend := none
      smask := putBit c.smask n true }
    else if c.clr = some i then { c with
      clr := none
      smask := putBit c.smask n false }
    else { c with smask := putBit c.smask n (bit c.smask prev) })

/-- Bit `k` is cleared in every copy at the drain or retirement of slot `k` (R229). -/
def State.acsClearSlot (s : State) (k : Nat) : State :=
  s.setRules (s.acs.copies.map fun (c : ACopy) => { c with smask := putBit c.smask k false })

/-! ### Rule jobs (10 R230, R235) -/

/-- Register set of the ACS job engine. -/
def acsJobRegs : JobRegs := ⟨acsPage 0, ACS_JOB_ADDR_LO, ACS_JOB_ADDR_HI, ACS_JOB_STAT, 256⟩

/-- End the ACS job. -/
def State.endAcsJob (s : State) (result : Nat) : State := { s with acs := { s.acs with job := none } }.jobEnded acsJobRegs result

/-- The ACS record is done. -/
def State.acsRecordDone (s : State) (result : Nat) : State :=
  match s.acs.job with
  | none => s
  | some j =>
    let s := (s.hostWrite (j.addr + 256 * j.next + 2) [BitVec.ofNat 8 result]).set acsJobRegs.done (j.next + 1)
    if j.count ≤ j.next + 1 then s.endAcsJob 1
    else { s with acs := { s.acs with job := some { j with next := j.next + 1 } } }

/-- START of an ACS job by initiator `i` (10 R235). -/
def State.acsJobStart (s : State) (i count : Nat) : State :=
  if s.acs.job.isSome then s.set acsJobRegs.rej 7
  else
    let t := { s with acs := { s.acs with job := some (s.newJob acsJobRegs i count) } }.jobStarted acsJobRegs
    if count = 0 then t.endAcsJob 1 else t

/-- ABORT of an ACS job. -/
def State.acsJobAbort (s : State) : State := if s.acs.job.isSome then s.endAcsJob 4 else s

/-- Whether an ACS record breaks a rule of its layout (Table 10.2, R235). -/
def State.acsBadRec (s : State) (r : List Byte) : Bool :=
  let l := byteAt r 3
  let w := s.rd (ACS_LIST_CFG l)
  let n := 20 * acsG ((ACS_LIST_CFG_WIDTH l).of w)
  decide (byteAt r 0 = 0) || decide (4 < byteAt r 0) || !zeros r 1 1 || decide (64 ≤ l) || !zeros r 8 8 || !zeros r 180 76 ||
    !s.listOn s.newest l || decide (listPositions w ≤ leNat (bytesAt r 4 4)) || !zeros r (16 + n) (80 - n) || !zeros r (96 + n) (80 - n)

/-- Whether a change of a position is staged by an initiator that satisfies `p`. -/
def State.aStaged (s : State) (l p : Nat) (f : Nat → Bool) : Bool :=
  s.acs.copies.any fun c => c.list == l && c.pos == p &&
    ((match c.pend with | some i => f i | none => false) || (match c.clr with | some i => f i | none => false))

/-- The copy of a position visible to the newest committed slot. -/
def State.aVisible (s : State) (l p : Nat) : Option ACopy :=
  s.acs.copies.find? fun c => c.list == l && c.pos == p && bit c.smask s.newest

/-- The pending copy of a position staged by initiator 0. -/
def State.aPending (s : State) (l p : Nat) : Option ACopy :=
  s.acs.copies.find? fun c => c.list == l && c.pos == p && c.pend == some (jobWho s.acs.job)

/-- Write a pending copy into array and rule store of all instances; the summary's bits are set before it is valid (R223). -/
def State.aWrite (s : State) (c : ACopy) : State :=
  let i := s.staleOf c
  { (s.setSummary i (Tbl.get (fun _ => 0) s.acs.summary i ||| classBits c)) with
    acs := { (s.setSummary i (Tbl.get (fun _ => 0) s.acs.summary i ||| classBits c)).acs with
      copies := (s.acs.copies.filter fun x => !(x.list == c.list && x.pos == c.pos && x.copy == c.copy)) ++ [c] } }

/-- The copy visible to the newest committed slot is marked for clearing at initiator 0's commit (R230). -/
def State.aMark (s : State) (l p : Nat) : State :=
  { s with acs := { s.acs with copies := s.acs.copies.map fun (c : ACopy) =>
      (if c.list = l && c.pos = p && bit c.smask s.newest then { c with clr := some (jobWho s.acs.job) } else c) } }

/-- The copy of a position that a new rule takes (R230): the pending copy again, the other copy of an occupied position, or a
free one; `none` is BUSY. -/
def State.aCopyFor (s : State) (l p : Nat) : Option Nat :=
  let dual := (ACS_LIST_CFG_DUAL l).of (s.rd (ACS_LIST_CFG l))
  let free (c : Nat) : Bool := (s.ruleAt l p c).isNone
  match s.aPending l p with
  | some c => some c.copy
  | none => (List.range (1 + dual)).find? free

/-- One fetched ACS record (10 R230, R235). -/
def State.acsRecord (s : State) (j : Job) (r : List Byte) : State :=
  let op := byteAt r 0
  let l := byteAt r 3
  let p := leNat (bytesAt r 4 4)
  let at' := j.addr + 256 * j.next
  let vis := s.aVisible l p
  if s.acsBadRec r then s.acsRecordDone 6
  else if op = 4 then
    let own := if s.get (LDG_TXN_CTL_READ_STAGED (jobWho s.acs.job)) = 1 then s.aPending l p else none
    match own.or vis with
    | none => s.acsRecordDone 3
    | some c => ((s.hostWrite (at' + 16) (c.value ++ c.mask)).hostWrite (at' + 176) (leBytes 4 c.action.toNat)).acsRecordDone 1
  else
    match s.jobGate j with
    | some e => s.endAcsJob e
    | none =>
      if s.aStaged l p (fun i => i != (jobWho s.acs.job)) || s.cascadeRefuses (jobWho s.acs.job) then (s.doom (jobWho s.acs.job) .conflict).acsRecordDone 5
      else if op ≠ 1 && vis.isNone && !s.aStaged l p (fun i => i == (jobWho s.acs.job)) then s.acsRecordDone 3
      else if op = 3 then
        let cs := s.acs.copies.filter fun c => !(c.list == l && c.pos == p && c.pend == some (jobWho s.acs.job))
        let s := match s.aPending l p with
          | some c => { s with acs := { s.acs with
              copies := cs
              stale := (s.acs.stale ++ [s.staleOf c]).eraseDups } }
          | none => s
        (s.aMark l p).acsRecordDone 1
      else
        match s.aCopyFor l p with
        | none => s.acsRecordDone 7
        | some c =>
          let res := if op = 1 && (vis.isSome || (s.aPending l p).isSome) then 2 else 1
          let rule : ACopy := { list := l, pos := p, copy := c, value := bytesAt r 16 80, mask := bytesAt r 96 80,
                                action := BitVec.ofNat 32 (leNat (bytesAt r 176 4)), pend := some (jobWho s.acs.job) }
          ((s.aMark l p).aWrite rule).acsRecordDone res

/-- ACS_JOB_RECORD (10 R230, R235). -/
def execAcsJobRecord (rec : Fetched) (s : State) : Host.Outcome State Fault Refusal :=
  match s.acs.job with
  | none => .next s
  | some j =>
    match rec with
    | .failed => .next ((s.dmaErr (j.addr + 256 * j.next)).endAcsJob 5)
    | .bytes r => .next (s.acsRecord j r)

/-! ### What a commit does to lists and profiles (10 R220, R221) -/

/-- Blocks owned under a set of list words. -/
def ownedBlocks (w : Nat → Word) : Nat :=
  ((List.range 64).map fun l => if (ACS_LIST_CFG_EN l).of (w l) = 1 then (ACS_LIST_CFG_BLOCKS l).of (w l) else 0).sum

/-- The shape of a list: WIDTH, DUAL and BLOCKS. -/
def listShape (w : Word) : Nat × Nat × Nat := ((ACS_LIST_CFG_WIDTH 0).of w, (ACS_LIST_CFG_DUAL 0).of w, (ACS_LIST_CFG_BLOCKS 0).of w)

/-- A list word with the shape of an older word. -/
def keepShape (w old : Word) : Word :=
  (ACS_LIST_CFG_BLOCKS 0).put ((ACS_LIST_CFG_DUAL 0).put ((ACS_LIST_CFG_WIDTH 0).put w (listShape old).1) (listShape old).2.1) (listShape old).2.2

/-- The list words that a commit makes live (R220): a list with copies keeps its shape, as does one with BLOCKS above 128; if the
enabled lists would own more than 128 blocks, the lists that the commit changes keep shape and EN. The flag is CAP_ERR. -/
def State.acsCommitLists (s : State) (w : Nat → Word) : List Word × Bool :=
  let old (l : Nat) : Word := s.rd (ACS_LIST_CFG l)
  let held (l : Nat) : Bool := listShape (w l) != listShape (old l) &&
    ((s.acs.copies.any fun c => c.list == l) || decide (128 < (ACS_LIST_CFG_BLOCKS l).of (w l)))
  let w1 (l : Nat) : Word := if held l then keepShape (w l) (old l) else w l
  let excess := decide (128 < ownedBlocks w1)
  let w2 (l : Nat) : Word := if excess then (ACS_LIST_CFG_EN l).put (keepShape (w1 l) (old l)) ((ACS_LIST_CFG_EN l).of (old l)) else w1 l
  ((List.range 64).map w2, excess || (List.range 64).any held)

/-- After a commit: FREE_BLK follows the newest lists, and PROF_ERR tells of a profile held disabled (R221, R236). -/
def State.acsAfterCommit (s : State) (capErr : Bool) : State :=
  let free := 128 - ownedBlocks fun l => s.rd (ACS_LIST_CFG l)
  let s := forEach (List.range 4) (fun q s => s.set (ACS_STAT_FREE_BLK q) free) s
  let k := s.newest
  let bad := (List.range 64).any fun p => (ACS_PROF_EN p).of (s.wordV k (ACS_PROF p)) == 1 && !s.profOn k p
  let s := if capErr then (s.set ACS_CFG_STAT_CAP_ERR 1).setInt (acsPage 0) 1 else s
  if bad then (s.set ACS_CFG_STAT_PROF_ERR 1).setInt (acsPage 0) 1 else s

end Sys2Proof.Machine
end

