-- ==== Sys2Proof/Machine/Ledger.lean ====
section
/-! DEFINITION. The Ledger (02 R40–R49, 11 R237–R253): transactions, the order of commits, binding, the commit cycle, and the
release of drained slots. -/

namespace Sys2Proof.Machine

open Reg

/-! ### Staged registers (02 R36, R40) -/

/-- Whether CTL.EN of a block is RW rather than RWS (R36): SYS, LDG, SEC, FLT, AON, ICU and HIF. -/
def ctlActsAtOnce (b : Nat) : Bool := decide (b ≤ 6)

/-- The staged bits of the word at an address (R36, R40). -/
def rwsMask (a : Nat) : Word :=
  if a % 0x1000 < 0x80 then (if a % 0x1000 = 8 && assigned a && !ctlActsAtOnce (blockOf a) then 1 else 0)
  else match findRow a with
    | some r => BitVec.ofNat 32 r.rws
    | none => 0

/-- A word whose staged bits take new values. -/
def mergeRws (m old new : Word) : Word := (old &&& ~~~m) ||| (new &&& m)

/-- A page is in reset (R37). -/
def State.inReset (s : State) (a : Nat) : Bool := s.get (statResetting (pageOf a)) == 1

/-! ### Transactions (02 R44, R45, R49) -/

/-- CMD_ERR of initiator `i`. -/
def State.cmdErr (s : State) (i v : Nat) : State := s.set (LDG_TXN_STAT_CMD_ERR i) v

/-- The transaction of initiator `i` ends in IDLE with a RESULT and an INT_STAT bit; what it staged is discarded (R44, R49). -/
def State.endTxn (s : State) (i : Nat) (r : TxnResult) (intBit : Nat) : State :=
  let s := { s with ldg := { s.ldg with order := s.ldg.order.filter fun j => j != i } }
  let s := (s.discardTxn i).setTxn i {}
  ((((s.setTxnState i .idle).setTxnResult i r).setInt ldgPage intBit)).graphEnd i false

/-- BEGIN (R44). -/
def State.txnBegin (s : State) (i : Nat) : State :=
  match s.txnState i with
  | .idle => (((s.setTxn i { opened := s.now }).setTxnState i .opened).cmdErr i 0).set (LDG_TXN_CONFLICT_ADDR_ADDR i) 0
  | _ => s.cmdErr i 1

/-- Whether initiator `i` has a staged table record (R241). -/
def State.stagedRecords (s : State) (i : Nat) : Bool :=
  (s.xmt.entries.any fun e => (e.v.pend && e.v.bslot == i) || e.v.delBy == some i) ||
  (s.lpm.routes.any fun r => (r.v.pend && r.v.bslot == i) || r.v.delBy == some i) ||
  (s.obj.copies.any fun c => (c.v.pend && c.v.bslot == i) || c.v.delBy == some i) ||
  (s.acs.copies.any fun c => c.pend == some i || c.clr == some i)

/-- Whether the commit of initiator `i` opens a slot (R241). -/
def State.opensSlot (s : State) (i : Nat) : Bool :=
  ((s.txn i).staged.any fun p => frameBound (blockOf p.1)) || !(s.txn i).gmem.isEmpty || s.stagedRecords i

/-- COMMIT (R44): OPEN becomes COMMITTING and joins the order of commits; a DOOMED transaction ends. Initiator 2's slot-opening
changes commit only by a cascade commit while ROLE is 1 or 2 (R254). -/
def State.txnCommit (s : State) (i : Nat) : State :=
  match s.txnState i with
  | .opened =>
    if s.role ≠ 0 && s.opensSlot i then s.cmdErr i 1
    else
      let s := s.setTxn i { s.txn i with
        arrived := s.now
        phase := .waiting }
      let s := { s with ldg := { s.ldg with order := s.ldg.order ++ [i] } }
      (s.setTxnState i .committing).cmdErr i 0
  | .doomed => ((s.setTxn i {}).setTxnState i .idle).cmdErr i 0
  | _ => s.cmdErr i 1

/-- ROLLBACK (R44, R253). -/
def State.txnRollback (s : State) (i : Nat) : State :=
  match s.txnState i with
  | .opened => (s.endTxn i .rolledBack i).cmdErr i 0
  | .doomed => (s.endTxn i .rolledBack i).cmdErr i 0
  | _ => s.cmdErr i 1

/-- TXN_TIMEOUT (02 R45): an OPEN transaction older than its timeout is doomed. -/
def execTxnTimeout (i : Fin 5) (s : State) : Host.Outcome State Fault Refusal :=
  let us := s.get (LDG_TXN_TIMEOUT_TIMEOUT_US i)
  .next (if s.txnState i = .opened && us ≠ 0 && us * 1000 < s.now - (s.txn i).opened then s.doom i .timeout else s)

/-! ### Grant and binding (11 R242–R244) -/

/-- A table job of initiator `i` is running (R242). -/
def State.jobRuns (s : State) (i : Nat) : Bool :=
  [s.xmt.job, s.lpm.job, s.obj.job, s.acs.job].any fun j => j.isSome && jobWho j == i

/-- A commit has been granted and has not ended; the PREPARED slot of a cascade commit holds no other commit (R254, R255). -/
def State.committing (s : State) : Option Nat :=
  initiators.find? fun i => match (s.txn i).phase with
    | .bound none => true
    | .bound (some k) => s.slotState k == .binding
    | .switching => true
    | _ => false

/-- The lowest-numbered FREE slot. -/
def State.freeSlot (s : State) : Option Nat := slots.find? fun k => s.slotState k == .free

/-- Table changes and staged words of initiator `i` are bound to slot `k` (R244). -/
def State.bindSlot (s : State) (i k : Nat) : State :=
  let old := s.oldestLive
  let ep := s.epoch k
  let es := s.xmt.entries.map fun (e : XEntry) => { e with
    v := e.v.bind i k old
    epoch := if e.v.pend && e.v.bslot == i then ep else e.epoch }
  let rs := s.lpm.routes.map fun (r : Route) => { r with v := r.v.bind i k old }
  let cs := s.obj.copies.map fun (c : OCopy) => { c with v := c.v.bind i k old }
  let ws := (s.txn i).staged.filterMap fun p => if frameBound (blockOf p.1) then p.2.map fun w => (p.1, w) else none
  let sv := ws.foldl (fun t p => Tbl.set (fun _ => none) t (slotKey k p.1) (some (mergeRws (rwsMask p.1) (s.rd p.1) p.2))) s.slotVals
  let gv := (s.txn i).gmem.foldl (fun t p => Tbl.set (fun _ => none) t (slotKey k p.1) p.2) s.gmemSlot
  { s with
    xmt := { s.xmt with entries := es }
    lpm := { s.lpm with routes := rs }
    obj := { s.obj with copies := cs }
    slotVals := sv
    gmemSlot := gv }

/-- Slot `k` takes an epoch and state, and initiator `i` is bound to it (R242, R244, R255). -/
def State.openSlot (s : State) (i k : Nat) (ep : Nat) (st : SlotState) : State :=
  let s := (s.set (LDG_SLOT_EPOCH_EPOCH k) ep).setSlot k st
  let s := s.setTxn i { s.txn i with phase := .bound (some k) }
  s.bindSlot i k

/-- The head commit is granted (R242). -/
def State.grant (s : State) (i : Nat) : State :=
  let s := { s with ldg := { s.ldg with order := s.ldg.order.drop 1 } }
  if s.opensSlot i then
    match s.freeSlot with
    | some k => s.openSlot i k ((s.get LDG_EPOCH_EPOCH + 1) % 2 ^ 32) .binding
    | none => s
  else s.setTxn i { s.txn i with phase := .bound none }

/-- The head commit waits for a slot: SLOT_WAITS counts it once (R243). -/
def State.waitSlot (s : State) (i : Nat) : State :=
  if (s.txn i).waited then s
  else (s.setTxn i { s.txn i with waited := true }).inc LDG_SLOT_WAITS_SLOT_WAITS

/-- COMMIT_GRANT (11 R242–R244). -/
def execCommitGrant (s : State) : Host.Outcome State Fault Refusal :=
  match s.ldg.order with
  | [] => .next s
  | i :: _ =>
    if s.committing.isSome || s.jobRuns i then .next s
    else if s.opensSlot i && s.freeSlot.isNone then .next (s.waitSlot i)
    else .next (s.grant i)

/-- COMMIT_TIMEOUT (11 R243): a commit that has waited too long before its grant ends. -/
def execCommitTimeout (i : Fin 5) (s : State) : Host.Outcome State Fault Refusal :=
  let us := s.get LDG_COMMIT_TIMEOUT_TIMEOUT_US
  if (s.txn i).phase = .waiting && us ≠ 0 && us * 1000 < s.now - (s.txn i).arrived then
    .next ((s.endTxn i .commitTimeout (8 + i)).inc LDG_RETIRE_CNT_TIMEOUTS)
  else .next s

/-! ### The commit cycle (02 R46, R47, 11 R245) -/

/-- A frame-bound word becomes the newest value, of slot `k`; older live slots keep the value they had (02 R47). -/
def State.liveFrameBound (s : State) (k a : Nat) (w : Word) : State :=
  let old := s.rd a
  let sv := slots.foldl (fun t j =>
    if j ≠ k && s.live j && (Tbl.get (fun _ => none) t (slotKey j a)).isNone then Tbl.set (fun _ => none) t (slotKey j a) (some old) else t) s.slotVals
  { s with slotVals := Tbl.set (fun _ => none) sv (slotKey k a) none }.wr a w

/-- An immediate word becomes live; its block acts on the old word until it switches (02 R46). -/
def State.liveImmediate (s : State) (a : Nat) (w : Word) : State :=
  let u := match Tbl.get (fun _ => none) s.unsw a with
    | some _ => s.unsw
    | none => Tbl.set (fun _ => none) s.unsw a (some (s.rd a))
  { s with unsw := u }.wr a w

/-- A graph-memory entry becomes the newest value, of slot `k`. -/
def State.liveGmem (s : State) (k g : Nat) (v : BitVec 288) : State :=
  let old := Tbl.get (fun _ => 0) s.gmem g
  let sv := slots.foldl (fun t j =>
    if j ≠ k && s.live j && (Tbl.get (fun _ => none) t (slotKey j g)).isNone then Tbl.set (fun _ => none) t (slotKey j g) (some old) else t) s.gmemSlot
  { s with
    gmemSlot := Tbl.set (fun _ => none) sv (slotKey k g) none
    gmem := Tbl.set (fun _ => 0) s.gmem g v }

/-- The word that a commit of initiator `i` proposes for an address: the staged bits, else the live word. -/
def State.proposed (s : State) (i a : Nat) : Word :=
  match Tbl.get (fun _ => none) (s.txn i).staged a with
  | some w => mergeRws (rwsMask a) (s.rd a) w
  | none => s.rd a

/-- The tables of the XMT block that a transaction touches. -/
def State.stagedTables (s : State) (i : Nat) : List Nat :=
  (List.range 256).filter fun t => (s.txn i).staged.any fun p =>
    p.1 == XMT_TBL_CFG (tp t) (ti t) || p.1 == XMT_TBL_SEED0 (tp t) (ti t) || p.1 == XMT_TBL_SEED1 (tp t) (ti t)

/-- The words of the frame-bound tables after the rules of their blocks (08 R169, R170, 09 R197, 10 R220): address and word. -/
def State.checkedWords (s : State) (i : Nat) : List (Nat × Word) × State :=
  let x := (s.stagedTables i).foldl (fun (p : List (Nat × Word) × State) t =>
    let r := p.2.xCommitTable t (s.proposed i (XMT_TBL_CFG (tp t) (ti t))) (s.proposed i (XMT_TBL_SEED0 (tp t) (ti t)))
      (s.proposed i (XMT_TBL_SEED1 (tp t) (ti t)))
    (p.1 ++ [(XMT_TBL_CFG (tp t) (ti t), r.1), (XMT_TBL_SEED0 (tp t) (ti t), r.2.1), (XMT_TBL_SEED1 (tp t) (ti t), r.2.2.1)], r.2.2.2)) ([], s)
  let l := x.2.lpmCommit (s.proposed i (lpmPage + 8)) (s.proposed i LPM_CAP)
  let o := l.2.2.objCommit (s.proposed i (objPage + 8)) (s.proposed i OBJ_CAP)
  let a := o.2.2.acsCommitLists fun n => s.proposed i (ACS_LIST_CFG n)
  (x.1 ++ [(lpmPage + 8, l.1), (LPM_CAP, l.2.1), (objPage + 8, o.1), (OBJ_CAP, o.2.1)] ++
    (List.range 64).map (fun n => (ACS_LIST_CFG n, a.1.getD n 0)),
   if a.2 then (o.2.2.set ACS_CFG_STAT_CAP_ERR 1).setInt (acsPage 0) 1 else o.2.2)

/-- The staged words of initiator `i` become live (02 R46, R47); `k` is the slot it opened. -/
def State.liveWords (s : State) (i : Nat) (k : Option Nat) : State :=
  let c := if k.isSome then s.checkedWords i else ([], s)
  (s.txn i).staged.foldl (fun t p =>
    let w := match c.1.find? fun q => q.1 == p.1 with | some q => q.2 | none => s.proposed i p.1
    match k with
    | some k => if frameBound (blockOf p.1) then t.liveFrameBound k p.1 w else t.liveImmediate p.1 w
    | none => t.liveImmediate p.1 w) c.2

/-- The slot of a commit becomes CURRENT, the current slot OLD, and LDG_EPOCH takes its epoch (R245). -/
def State.advance (s : State) (k : Nat) : State :=
  let prev := s.newest
  ((s.setSlot prev .old).setSlot k .current).set LDG_EPOCH_EPOCH (s.epoch k)

/-- The blocks that a commit switches: those of its staged words, and the six frame-bound ones when it opens a slot. -/
def State.switchBlocks (s : State) (i : Nat) (k : Option Nat) : List Nat :=
  (List.range 24).filter fun b => ((s.txn i).staged.any fun p => blockOf p.1 == b) || (k.isSome && frameBound b)

/-- The transaction ends COMMITTED, once every block has switched (R46, R49). -/
def State.finishCommit (s : State) (i : Nat) : State :=
  let s := { s with ldg := { s.ldg with switchInit := none } }
  ((((s.setTxn i {}).setTxnState i .idle).setTxnResult i .committed).setInt ldgPage i).graphEnd i true

/-- The commit cycle of initiator `i` with slot `k` (02 R46, 11 R245). -/
def State.commitCycle (s : State) (i : Nat) (k : Option Nat) : State :=
  let prev := s.newest
  let t := s.liveWords i k
  let t := match k with
    | none => t
    | some k =>
      let t := (s.txn i).gmem.foldl (fun (t : State) (p : Nat × Option (BitVec 288)) => match p.2 with | some v => t.liveGmem k p.1 v | none => t) t
      ((t.advance k).acsOpenSlot i k prev |>.xHoldTables k).acsAfterCommit false
  let t := t.set (LDG_TXN_EPOCH_EPOCH i) (t.get LDG_EPOCH_EPOCH)
  let bs := s.switchBlocks i k
  let t := { t with ldg := { t.ldg with
    switchWait := bs
    switchInit := some i } }
  let t := t.setTxn i { t.txn i with phase := .switching }
  if bs.isEmpty then t.finishCommit i else t

/-- COMMIT_CYCLE (11 R245): every block has bound, so the granted commit becomes live; a PREPARED slot waits for its GO (R256). -/
def execCommitCycle (s : State) : Host.Outcome State Fault Refusal :=
  match s.committing with
  | none => .next s
  | some i =>
    match (s.txn i).phase with
    | .bound none => .next (s.commitCycle i none)
    | .bound (some k) => .next (if s.slotState k = .binding then s.commitCycle i (some k) else s)
    | _ => .next s

/-! ### Undoing a binding, and dooming by a reset (02 R48, 11 R246) -/

/-- The binding to slot `k` is undone and the slot takes state `st` (R246, R257). -/
def State.unbindSlot (s : State) (k : Nat) (st : SlotState) : State :=
  let es := s.xmt.entries.filterMap fun (e : XEntry) => (e.v.unbind k).map fun v => { e with v := v }
  let rs := s.lpm.routes.filterMap fun (r : Route) => (r.v.unbind k).map fun v => { r with v := v }
  let cs := s.obj.copies.filterMap fun (c : OCopy) => (c.v.unbind k).map fun v => { c with v := v }
  ({ s with
    xmt := { s.xmt with entries := es }
    lpm := { s.lpm with routes := rs }
    obj := { s.obj with copies := cs }
    slotVals := s.slotVals.filter fun p => p.1 / 2 ^ 28 != k
    gmemSlot := s.gmemSlot.filter fun p => p.1 / 2 ^ 28 != k }).setSlot k st

/-- The COMMITTING transaction of initiator `i` loses to a block reset (02 R48). -/
def State.loseToReset (s : State) (i : Nat) : State :=
  let s := match (s.txn i).phase with
    | .bound (some k) => s.unbindSlot k .free
    | _ => s
  s.endTxn i .blockReset (8 + i)

/-- A block reset meets the transaction of initiator `i`, if it holds a word of the block (02 R48). -/
def State.resetTxn (s : State) (holds : Nat → Bool) (i : Nat) : State :=
  if (s.txn i).staged.any fun p => holds p.1 then
    match s.txnState i with
    | .opened => s.doom i .blockReset
    | .committing =>
      (match (s.txn i).phase with
       | .switching => s.setTxn i { s.txn i with staged := (s.txn i).staged.filter fun p => !holds p.1 }
       | _ => s.loseToReset i)
    | _ => s
  else s

/-- A block reset discards the staged words of its pages in every transaction (02 R48). -/
def State.discardFor (s : State) (holds : Nat → Bool) : State := forEach initiators (fun i s => s.resetTxn holds i) s

/-- A reset of the LDG block meets every transaction (02 R48). -/
def State.ldgReset (s : State) : State :=
  forEach initiators (fun i s =>
    match s.txnState i with
    | .opened => s.doom i .blockReset
    | .committing => (match (s.txn i).phase with | .switching => s | _ => s.loseToReset i)
    | _ => s) s

/-! ### The release of a slot (11 R240, R249) -/

/-- The frame-bound blocks release slot `k` (R249). -/
def State.releaseSlot (s : State) (k : Nat) : State :=
  let es := s.xmt.entries.filterMap fun (e : XEntry) => (s.freeTag e.v k).map fun v => { e with v := v }
  let rs := s.lpm.routes.filterMap fun (r : Route) => (s.freeTag r.v k).map fun v => { r with v := v }
  let t := s.objSweep fun (c : OCopy) => (s.freeTag c.v k).map fun v => { c with v := v }
  { t with
    xmt := { t.xmt with
      entries := es
      held := t.xmt.held.filter fun p => p.1 != k }
    lpm := { t.lpm with routes := rs }
    slotVals := t.slotVals.filter fun p => p.1 / 2 ^ 28 != k
    gmemSlot := t.gmemSlot.filter fun p => p.1 / 2 ^ 28 != k }

/-- SLOT_FREED (11 R249): every block has finished its sweep of a SWEEPING slot. -/
def execSlotFreed (k : Fin 16) (s : State) : Host.Outcome State Fault Refusal :=
  if s.slotState k = .sweeping then .next ((s.releaseSlot k).setSlot k .free).xReleaseExtents else .next s

/-- No live slot is before slot `k`. -/
def State.isOldest (s : State) (k : Nat) : Bool := slots.all fun j => !(s.live j && s.slotBefore j k)

/-- Whether slot `k` may drain: it is OLD, DRAINED or RETIRING and PRE and POST are 0 (R249, Table 11.1). -/
def State.empty (s : State) (k : Nat) : Bool :=
  (s.slotState k == .old || s.slotState k == .retiring || s.slotState k == .drained) &&
    s.get (LDG_SLOT_PRE_COUNT k) == 0 && s.get (LDG_SLOT_POST_COUNT k) == 0

/-- A drained slot becomes DRAINED, or SWEEPING once it is the oldest; the report clears its SMASK bits (R249, 10 R229). -/
def State.drainSlot (s : State) (k : Nat) : State :=
  let t := s.setSlot k (if s.isOldest k then .sweeping else .drained)
  t.acsClearSlot k

/-! ### Drain counts (11 R247, R248) -/

/-- PRE of a slot rises. -/
def State.preUp (s : State) (k n : Nat) : State := s.inc (LDG_SLOT_PRE_COUNT (k % 16)) n

/-- POST of a slot rises. -/
def State.postUp (s : State) (k n : Nat) : State := s.inc (LDG_SLOT_POST_COUNT (k % 16)) n

/-- A count of a slot falls by 1; at 0 it stays and LDG source 0 is raised with the slot and the count (R248, R259). -/
def State.countDown (s : State) (f : Fld) (k which : Nat) : State :=
  if s.get f = 0 then s.raise ldgPage 0 (addr := k) (detail := which) else s.set f (s.get f - 1)

/-- The count that holds a frame before dequeue: PRE of its slot, or RPRE when its generation was retired (R248, R251). -/
def State.preDown (s : State) (k gen : Nat) : State :=
  if s.get (LDG_SLOT_STAT_GEN (k % 16)) = gen then s.countDown (LDG_SLOT_PRE_COUNT (k % 16)) k 0
  else s.countDown (LDG_SLOT_RPRE_RPRE (k % 16)) k 2

/-- POST falls by 1. -/
def State.postDown (s : State) (k : Nat) : State := s.countDown (LDG_SLOT_POST_COUNT (k % 16)) k 1

end Sys2Proof.Machine
end

