-- ==== Sys2Proof/Machine/Passage.lean ====
section
/-! DEFINITION. The passage of a frame (00 R11–R13, 01 R19–R25) as every stage meets it: counters, drops, buffers, drain counts
and the end of a passage. -/

namespace Sys2Proof.Machine

open Reg

/-- BUF page (12). -/
def bufPage : Nat := 0x200000
/-- VOQ page (12). -/
def voqPage : Nat := 0x300000
/-- SCH page 0 (14). -/
def schPage : Nat := 0x100000
/-- PRT page of a slice (03). -/
def prtPage (s : Nat) : Nat := 0x900000 + 0x1000 * s
/-- PRS page of a slice (05). -/
def prsPage (s : Nat) : Nat := 0x700000 + 0x1000 * s
/-- WKS page of a workshop (06). -/
def wksPage (w : Nat) : Nat := 0x600000 + 0x1000 * w

/-! ### Fixed counters (18 R407) -/

/-- The largest value of a fixed counter. -/
def cntMax : Nat := 2 ^ 64 - 1

/-- Raise a value of a counter table. -/
def bump (t : Tbl Nat) (k n : Nat) : Tbl Nat := Tbl.set (fun _ => 0) t k (min (Tbl.get (fun _ => 0) t k + n) cntMax)

/-- Port counter `k` of port `p` (18 Table 18.2). -/
def State.portCnt (s : State) (p k : Nat) (n : Nat := 1) : State := { s with cnt := { s.cnt with port := bump s.cnt.port (16 * p + k) n } }

/-- Queue counters of egress queue `e` (16 × P + q): one frame of `n` bytes. -/
def State.queueCnt (s : State) (e n : Nat) : State :=
  { s with cnt := { s.cnt with queue := bump (bump s.cnt.queue (2 * e) 1) (2 * e + 1) n } }

/-- DROP[r] and its event (18 R401, R407): the event carries IPORT, or the egress port for codes 0x10, 0x12 and 0x17. -/
def State.dropCnt (s : State) (r : Nat) (f : Frame) : State :=
  let port := if r = 0x10 || r = 0x12 || r = 0x17 then f.eport else f.iport
  { s with
    cnt := { s.cnt with drop := bump s.cnt.drop r 1 }
    reports := s.reports ++ [.drop r port] }

/-- The stages at which a frame's bytes are those after the egress edits (18 R417). -/
def Stage.edited : Stage → Bool
  | .egDispatch | .egPass | .egOrdered | .egQ | .transmit => true
  | _ => false

/-- A frame is dropped with REASON `r`: DROP[r], its event, and what may trigger a capture (18 R407, R415). -/
def State.noteDrop (s : State) (r : Nat) (f : Frame) : State :=
  let t := s.dropCnt r f
  { t with capEv := t.capEv ++ [{
    reason := r
    egress := f.stage.edited
    frame := f
    t := s.tbNs }] }

/-! ### Buffers (12 R262, R265, R282) -/

/-- A buffer handle (12 R262). -/
def handle (pool idx : Nat) : Nat := pool * 2 ^ 22 + idx

/-- What a buffer carries, if it is allocated. -/
def State.unit (s : State) (h : Nat) : Option BufUnit := Tbl.get (fun _ => none) s.buf.units h

/-- Replace what a buffer carries; `none` frees it. -/
def State.setUnit (s : State) (h : Nat) (u : Option BufUnit) : State :=
  { s with buf := { s.buf with units := Tbl.set (fun _ => none) s.buf.units h u } }

/-- One copy lets go of a buffer; the last one frees it. A free of a free buffer is a double free (R282). -/
def State.freeHandle (s : State) (h : Nat) : State :=
  match s.unit h with
  | none => ((s.count BUF_DFREE_DFREE bufPage 4).setInt bufPage 1).raise bufPage 3 (addr := h)
  | some u =>
    if 1 < u.copies then s.setUnit h (some { u with copies := u.copies - 1 })
    else (s.setUnit h none).inc (BUF_POOL_FREE_FREE (h / 2 ^ 22 % 8))

/-- The spill blocks after the bytes of frame `id` are gone; a block with no frame left is freed (R275). -/
def State.freeSpill (s : State) (id : Nat) : State :=
  let bs := s.buf.blks.map fun (b : SpillBlk) => { b with
    frames := b.frames.filter fun x => x != id
    starts := b.starts.filter fun (x : Nat × Nat × Nat) => x.1 != id }
  let keep := bs.filter fun b => !b.frames.isEmpty
  let n := bs.length - keep.length
  { s with buf := { s.buf with blks := keep } }.inc BUF_SPILL_STAT_FREE_BLK n

/-- A frame's storage is freed: its buffer and its bytes in spill blocks. -/
def State.freeStore (s : State) (id : Nat) : State :=
  let f := s.frame id
  let s := match f.buf with
    | some h => s.freeHandle (handle h.1 h.2)
    | none => s
  let s := if f.spill = .none then s else s.freeSpill id
  s.modFrame id fun f => { f with
    buf := none
    spill := .none }

/-! ### PFC byte counts (03 R59) -/

/-- Rates of the slice modes (03 Table 3.1, 14 Table 14.1): lanes per port and Mb/s. -/
def modeInfo (m : Nat) : Nat × Nat :=
  if m = 1 then (1, 200000) else if m = 2 then (2, 400000) else if m = 3 then (4, 800000) else if m = 4 then (8, 1600000)
  else if m = 5 then (1, 100000) else if m = 6 then (2, 200000) else if m = 7 then (4, 400000) else if m = 8 then (8, 800000) else (0, 0)

/-- The mode of a port's slice, as the block acts. -/
def State.portMode (s : State) (p : Nat) : Nat := s.cfg (PRT_SLICE_MODE_MODE (p / 16))

/-- The slice's mode produces port `p` (R51). -/
def State.produced (s : State) (p : Nat) : Bool :=
  let l := (modeInfo (s.portMode p)).1
  decide (p < 256) && l != 0 && p % 16 % l == 0

/-- EN of a port. -/
def State.portEn (s : State) (p : Nat) : Bool := s.cfg (PRT_PORT_CFG_EN (p / 16) (p % 16)) == 1

/-- FUNC 1: the port is a FlexE PHY (R62). -/
def State.portFunc (s : State) (p : Nat) : Bool := s.cfg (PRT_PORT_CFG_FUNC (p / 16) (p % 16)) == 1

/-- An Ethernet port: produced, enabled, FUNC 0. -/
def State.ethPort (s : State) (p : Nat) : Bool := s.produced p && s.portEn p && !s.portFunc p

/-- Nanoseconds of `q` pause quanta of 512 bit times at the port's rate (R60). -/
def State.quantaNs (s : State) (p q : Nat) : Nat :=
  let r := (modeInfo (s.portMode p)).2
  if r = 0 then 0 else q * 512 * 1000 / r

/-- Send a PFC frame for priority `pri` (R59); none is sent in safe state (R68). -/
def State.sendPfc (s : State) (p pri quanta : Nat) : State :=
  if s.safe then s
  else
    let s := (s.portCnt p 11).set ⟨PRT_PORT_STAT (p / 16) (p % 16), 8 + pri, 1⟩ (b2n (quanta != 0))
    { s with prt := { s.prt with
      pfcAt := Tbl.set (fun _ => 0) s.prt.pfcAt (8 * p + pri) s.now
      pfcOut := s.prt.pfcOut ++ [(p, pri, quanta)] } }

/-- Whether the port sends PFC for a priority at all (R59). -/
def State.pfcOn (s : State) (p pri : Nat) : Bool :=
  let i := p / 16
  let k := p % 16
  s.ethPort p && bit (s.cfg (PRT_PFC_CFG_PRI_EN i k)) pri && decide (s.cfg (PRT_PFC_THR_XON_KB i k) < s.cfg (PRT_PFC_THR_XOFF_KB i k))

/-- The byte count of a port's priority. -/
def State.pfcCount (s : State) (p pri : Nat) : Nat := Tbl.get (fun _ => 0) s.prt.pfc (8 * p + pri)

/-- A count changes; crossing XOFF upwards or XON downwards sends a frame (R59). -/
def State.setPfc (s : State) (p pri n : Nat) : State :=
  let old := s.pfcCount p pri
  let xoff := s.cfg (PRT_PFC_THR_XOFF_KB (p / 16) (p % 16)) * 256
  let xon := s.cfg (PRT_PFC_THR_XON_KB (p / 16) (p % 16)) * 256
  let t := { s with prt := { s.prt with pfc := Tbl.set (fun _ => 0) s.prt.pfc (8 * p + pri) n } }
  if s.pfcOn p pri then
    if old ≤ xoff && xoff < n then t.sendPfc p pri (s.cfg (PRT_PFC_CFG_QUANTA (p / 16) (p % 16)))
    else if xon < old && n ≤ xon then t.sendPfc p pri 0
    else t
  else t

/-- A frame's bytes count from buffer allocation (R59). -/
def State.pfcTake (s : State) (id n : Nat) : State :=
  let f := s.frame id
  if 256 ≤ f.iport then s
  else (s.modFrame id fun f => { f with pfcN := n }).setPfc f.iport f.iclass (s.pfcCount f.iport f.iclass + n)

/-- A frame's bytes no longer count, since it was enqueued or dropped (R59). -/
def State.pfcRelease (s : State) (id : Nat) : State :=
  let f := s.frame id
  if f.pfcN = 0 then s
  else (s.modFrame id fun f => { f with pfcN := 0 }).setPfc f.iport f.iclass (s.pfcCount f.iport f.iclass - f.pfcN)

/-! ### The end of a passage (11 R248, 00 R13) -/

/-- The drain count that holds a frame falls (11 R248). -/
def State.uncount (s : State) (f : Frame) : State :=
  if !f.stamped then s else if f.post then s.postDown f.vslot else s.preDown f.vslot f.gen

/-- A frame's passage ends: its storage, its PFC bytes, its buffer request and its drain count are released. -/
def State.endPassage (s : State) (id : Nat) : State :=
  let f := s.frame id
  let t := (((s.pfcRelease id).freeStore id).uncount f).setFrame id {}
  { t with buf := { t.buf with reqs := t.buf.reqs.filter fun r => r.frame != id } }

/-- A frame is dropped (00 R13): the first REASON stands, DROP[REASON] counts it, a capture trigger is offered, and its passage
ends. `early` marks steps 1–4 (RX_DROP). -/
def State.drop (s : State) (id r : Nat) (early : Bool := false) : State :=
  let f := s.frame id
  if f.stage = .done then s
  else
    let r := if f.reason = 0 then r else f.reason
    let f := { f with reason := r }
    let s := (s.setFrame id f).noteDrop r f
    let s := if early then s.portCnt f.iport 7 else s
    s.endPassage id

/-- The frames that carry the bytes of frame `id`: itself and its multicast copies. -/
def State.family (s : State) (id : Nat) : List Nat :=
  (s.frames.filter fun p => p.1 == id || p.2.origin == some id).map fun p => p.1

/-- The frame by which the rest of a received frame acts: itself, or one of its copies once it has become copies. -/
def State.lead (s : State) (id : Nat) : Nat :=
  if (s.frame id).stage = .done then (s.family id).headD id else id

/-- Change a frame and its copies. -/
def State.modFamily (s : State) (id : Nat) (g : Frame → Frame) : State := forEach (s.family id) (fun i s => s.modFrame i g) s

/-! ### Buffer requests (12 R263, R264) -/

/-- A frame asks for a buffer of `size` bytes through a pool requester. -/
def State.requestBuf (s : State) (id requester size : Nat) : State :=
  let s := { s with buf := { s.buf with reqs := s.buf.reqs ++ [BufReq.mk requester id size false] } }
  s.modFrame id fun f => { f with stage := .waitBuf }

/-! ### Bytes of a frame -/

/-- Length of a frame. -/
def Frame.len (f : Frame) : Nat := f.bytes.length

/-- MAX_FRAME of a port. -/
def State.maxFrame (s : State) (p : Nat) : Nat := s.cfg (PRT_PORT_MAXF_MAX_FRAME (p / 16) (p % 16))

/-- Length that counts for admission and depth (12 R271): MAX_FRAME of the ingress port until the end is written. -/
def State.qlen (s : State) (f : Frame) : Nat := if f.ended then f.len else s.maxFrame f.iport

end Sys2Proof.Machine
end

