-- ==== Sys2Proof/Machine/Gates.lean ====
section
/-! DEFINITION. Egress queues and time gates (14 R305, R312, R326–R329) as ports, calendars and the Porter meet them. -/

namespace Sys2Proof.Machine

open Reg

/-! ### Egress queues (R305) -/

/-- Key of egress queue `q` of port `p`; ports 256 and 257 have one queue each. -/
def eqKey (p q : Nat) : Nat := if p < 256 then 16 * p + q else 4096 + (p - 256)

/-- The frames of an egress queue, head first. -/
def State.eqQ (s : State) (e : Nat) : List Nat := Tbl.get (fun _ => []) s.sch.eq e

/-- Replace the frames of an egress queue. -/
def State.setEqQ (s : State) (e : Nat) (l : List Nat) : State := { s with sch := { s.sch with eq := Tbl.set (fun _ => []) s.sch.eq e l } }

/-- The rate of port `p` in force, Mb/s (R306). -/
def State.portRate (s : State) (p : Nat) : Nat := s.get (SCH_PORT_RATE_RATE (p / 16) (p % 16))

/-- Length of a frame as transmitted (R312, 07 R154): edited head, the rest of its bytes and an FCS, padded to 64 bytes. -/
def State.txLen (s : State) (f : Frame) : Nat := max 64 (f.edited.length + ((s.qlen f - 4) - f.cut) + 4)

/-- Wire length at a port (R312). -/
def State.wireLen (s : State) (p : Nat) (f : Frame) : Nat :=
  (max 1 ((s.txLen f : Int) + sgn 8 (s.cfg (SCH_PORT_CFG_LEN_OVH (p / 16) (p % 16))))).toNat

/-! ### Gate lists (R326–R328) -/

/-- Gate entry `n` of list `l` of a port: gate bits and interval in ns. -/
def State.gateEntry (s : State) (p l n : Nat) : Nat × Nat := Tbl.get (fun _ => (0, 0)) s.sch.gates ((2 * p + l) * 64 + n)

/-- Cycle time of a list in ns. -/
def State.gateCyc (s : State) (p l : Nat) : Nat :=
  s.cfg (if l = 0 then SCH_GL_CYC0_CYC0 (p / 16) (p % 16) else SCH_GL_CYC1_CYC1 (p / 16) (p % 16))

/-- Base time of a list in ns of the time base; its seconds are those nearest below 2³² of the present ones. -/
def State.gateBase (s : State) (p l : Nat) : Nat :=
  let i := p / 16
  let k := p % 16
  let sec := s.cfg (if l = 0 then SCH_GL_BASE0_S_BASE0_S i k else SCH_GL_BASE1_S_BASE1_S i k)
  let ns := s.cfg (if l = 0 then SCH_GL_BASE0_NS_BASE0_NS i k else SCH_GL_BASE1_NS_BASE1_NS i k)
  (s.tb.sec / 2 ^ 32 * 2 ^ 32 + sec) * 1000000000 + ns

/-- Entries of a list: 1–64. -/
def State.gateLen (s : State) (p l : Nat) : Nat :=
  min 64 (max 1 (s.cfg (if l = 0 then SCH_GL_LEN_LEN0 (p / 16) (p % 16) else SCH_GL_LEN_LEN1 (p / 16) (p % 16))))

/-- Whether each stretch of a cycle is open for queue `q`: (length, open), covering the whole cycle (R326). -/
def State.gateRuns (s : State) (p l q : Nat) : List (Nat × Bool) :=
  let cyc := s.gateCyc p l
  let es := (List.range (s.gateLen p l)).map fun n => s.gateEntry p l n
  let r := es.foldl (fun (x : Nat × List (Nat × Bool)) e =>
    let n := min e.2 (cyc - x.1)
    if n = 0 then x else (x.1 + n, x.2 ++ [(n, bit e.1 q)])) (0, [])
  let last := ((es.filter fun e => e.2 != 0).getLast?.getD (es.getLastD (0, 0))).1
  if r.1 < cyc then r.2 ++ [(cyc - r.1, bit last q)] else r.2

/-- The lengths of runs that join the same value (R328: consecutive open entries form one window). -/
def mergeRuns : List (Nat × Bool) → List (Nat × Bool)
  | [] => []
  | (n, b) :: r =>
    match mergeRuns r with
    | (m, c) :: t => if b = c then (n + m, b) :: t else (n, b) :: (m, c) :: t
    | [] => [(n, b)]

/-- The stretches from `x` on. -/
def runsFrom : Nat → List (Nat × Bool) → List (Nat × Bool)
  | _, [] => []
  | x, (n, b) :: r => if n ≤ x then runsFrom (x - n) r else (n - x, b) :: r

/-- The list in use. -/
def State.listUsed (s : State) (p : Nat) : Nat := s.get (SCH_PORT_STAT_LIST_USED (p / 16) (p % 16))

/-- Gates apply to a port: GATE_EN 1 and a cycle time other than 0 (R326). -/
def State.gated (s : State) (p : Nat) : Bool :=
  s.cfg (SCH_PORT_CFG_GATE_EN (p / 16) (p % 16)) == 1 && s.gateCyc p (s.listUsed p) != 0

/-- How long queue `q`'s gate stays open from now, ns; `none` for always (R328). -/
def State.openFor (s : State) (p q : Nat) : Option Nat :=
  if !s.gated p then none
  else
    let l := s.listUsed p
    let cyc := s.gateCyc p l
    let x := (((s.tbNs : Int) - (s.gateBase p l : Int)) % (cyc : Int)).toNat
    let r := s.gateRuns p l q
    match mergeRuns (runsFrom x r ++ r) with
    | (n, true) :: _ => if cyc ≤ n then none else some n
    | _ => some 0

/-- The longest window of queue `q` in a cycle, ns; `none` when the gate never closes (R329). -/
def State.longestWindow (s : State) (p q : Nat) : Option Nat :=
  if !s.gated p then none
  else
    let r := s.gateRuns p (s.listUsed p) q
    let l := (mergeRuns (r ++ r)).filter fun x => x.2
    let n := l.foldl (fun a x => max a x.1) 0
    if s.gateCyc p (s.listUsed p) ≤ n then none else some n

/-- Time of a frame on the wire, ns (R328). -/
def State.wireNs (s : State) (p : Nat) (f : Frame) : Nat :=
  let r := max 1 (s.portRate p)
  (s.wireLen p f * 8000 + r - 1) / r

/-- The gate permits frame `f` of queue `q` to start now (R328). -/
def State.gatePermits (s : State) (p q : Nat) (f : Frame) : Bool :=
  match s.openFor p q with
  | none => true
  | some n => decide (s.wireNs p f ≤ n)

/-- A frame that fits no window of its queue (R329); not asked while the rate is 0. -/
def State.neverFits (s : State) (p q : Nat) (f : Frame) : Bool :=
  s.portRate p != 0 &&
    match s.longestWindow p q with
    | none => false
    | some n => decide (n < s.wireNs p f)

/-- Heads of queue `q` that fit no window are dropped 0x12 (R329). -/
def State.gateCheck (s : State) (p q : Nat) : State :=
  if 256 ≤ p then s
  else
    let l := s.eqQ (eqKey p q)
    let bad := l.takeWhile fun id => s.neverFits p q (s.frame id)
    forEach bad (fun id t =>
      let t := t.setEqQ (eqKey p q) ((t.eqQ (eqKey p q)).filter fun i => i != id)
      (((t.count SCH_DROP_GATE_DROP_GATE schPage 4).count (SCH_PORT_GDROP_DROPS (p / 16) (p % 16)) schPage 4).setInt schPage 0).drop id 0x12) s

/-- Every queue of a port checks its head (R329). -/
def State.gateCheckPort (s : State) (p : Nat) : State := forEach (List.range 16) (fun q s => s.gateCheck p q) s

end Sys2Proof.Machine
end

