-- ==== Sys2Proof/Machine/Ports.lean ====
section
/-! DEFINITION. Ports (03): port state, receiving a frame, ingress classes, priority flow control. -/

namespace Sys2Proof.Machine

open Reg

/-! ### FlexE clients as ports (03 R65, R66; calendars 04 R71–R74) -/

/-- A group's state. -/
def State.grp (s : State) (g : Nat) : LoomGrp := Tbl.get (fun _ => {}) s.loom.grp g

/-- Replace a group's state. -/
def State.setGrp (s : State) (g : Nat) (x : LoomGrp) : State :=
  { s with loom := { s.loom with grp := Tbl.set (fun _ => {}) s.loom.grp g x } }

/-- The slice of a group. -/
def State.grpSlice (s : State) (g : Nat) : Nat := s.cfg (LOOM_GRP_CFG_SLICE g)

/-- An enabled client's port number. -/
def State.clientPort (s : State) (g c : Nat) : Nat := 16 * s.grpSlice g + s.cfg (LOOM_CLIENT_CFG_PORT g c)

/-- Client enable of an enabled group. -/
def State.clientEn (s : State) (g c : Nat) : Bool :=
  s.cfg (LOOM_GRP_CFG_EN g) == 1 && s.cfg (LOOM_CLIENT_CFG_EN g c) == 1

/-- Every (group, client) in order. -/
def allClients : List (Nat × Nat) := (List.range 64).flatMap fun g => (List.range 16).map fun c => (g, c)

/-- The client that uses port `p` (R66): the earliest enabled one, unless an Ethernet port has that number. -/
def State.clientOf (s : State) (p : Nat) : Option (Nat × Nat) :=
  if s.portEn p && !s.portFunc p then none
  else allClients.find? fun x => s.clientEn x.1 x.2 && s.clientPort x.1 x.2 == p

/-- A client takes part: enabled and not held disabled (R66). -/
def State.clientOn (s : State) (g c : Nat) : Bool := s.clientEn g c && s.clientOf (s.clientPort g c) == some (g, c)

/-- Slots of client `c` in a calendar. -/
def slotsOf (cal : List Nat) (c : Nat) : Nat := (cal.filter fun x => x == c).length

/-- The group operates (04 R74): LOOM_FOL_STAT.OPER of a following group, LOOM_GRP_STAT.UP of another. -/
def State.grpOper (s : State) (g : Nat) : Bool :=
  if s.cfg (LOOM_FOL_CFG_FOL_EN g) = 1 then s.get (LOOM_FOL_STAT_OPER g) == 1 else s.get ⟨LOOM_GRP_STAT g, 0, 1⟩ == 1

/-! ### Port state (R54) -/

/-- PORT_STAT.UP. -/
def State.portUp (s : State) (p : Nat) : Bool := s.get (PRT_PORT_STAT_UP (p / 16) (p % 16)) == 1

/-- The conditions of R54 for port `p`. -/
def State.upCond (s : State) (p : Nat) : Bool :=
  !s.safe &&
    (if s.ethPort p then
       s.get (PRT_PORT_STAT_FEC_LOCK (p / 16) (p % 16)) == 1 && s.get (PRT_PORT_STAT_LF_RX (p / 16) (p % 16)) == 0 &&
         s.get (PRT_PORT_STAT_RF_RX (p / 16) (p % 16)) == 0
     else match s.clientOf p with
       | some x => s.grpOper x.1 && decide (0 < slotsOf (s.grp x.1).cal x.2) && !(s.grp x.1).held.contains x.2
       | none => false)

/-- A FlexE PHY is up: produced in a mode that R62 allows, enabled, aligned, locked, without faults. -/
def State.phyUpCond (s : State) (p : Nat) : Bool :=
  !s.safe && s.produced p && s.portEn p && s.portFunc p && s.portMode p != 4 && s.get (PRT_PORT_STAT_FEC_LOCK (p / 16) (p % 16)) == 1 &&
    s.get (PRT_PORT_STAT_LF_RX (p / 16) (p % 16)) == 0 && s.get (PRT_PORT_STAT_RF_RX (p / 16) (p % 16)) == 0

/-- The FCS result of a bad frame acts by how far the frame has gone (R22, 12 R279): an egress queue drops it, a transmission ends
with an inverted FCS; elsewhere the stage that meets it next drops it. -/
def State.markBad (s : State) (id : Nat) : State :=
  let f := s.frame id
  if f.stage = .transmit && !f.marked then
    (((s.setFrame id { f with
      fcs := some false
      marked := true }).noteDrop 0x17 f).portCnt f.eport 10).count VOQ_CT_MARKED_CT_MARKED voqPage 2
  else s.setFrame id { f with fcs := some false }

/-- A frame being received is cut short and FCS-bad (R69). -/
def State.cutShort (s : State) (id : Nat) : State :=
  let f := s.frame (s.lead id)
  let s := forEach (s.family id) (fun i s => (s.modFrame i fun f => { f with ended := true }).markBad i) (s.portCnt f.iport 2)
  if f.stage = .staging then s.requestBuf id f.slice (max 64 f.len) else s

/-- The frames that port `p` is receiving. -/
def State.receiving (s : State) (p : Nat) : List Nat :=
  ((s.frames.filter fun x => x.2.iport == p && !x.2.ended && x.2.stage != .done).map fun x => x.2.origin.getD x.1).eraseDups

/-- Set a port's UP; a transition sets the PRT INT_STAT bit of the port (R54), and going down cuts short what it receives (R69). -/
def State.setUp (s : State) (p : Nat) (v : Bool) : State :=
  if s.portUp p = v then s
  else
    let t := (s.set (PRT_PORT_STAT_UP (p / 16) (p % 16)) (b2n v)).set ⟨PRT_SLICE_STAT (p / 16), p % 16, 1⟩ (b2n v)
    let t := t.setInt (prtPage (p / 16)) (p % 16)
    if v then t else forEach (t.receiving p) (fun i s => s.cutShort i) t

/-- The rate of port `p` in Mb/s (14 R306). -/
def State.rateNow (s : State) (p : Nat) : Nat :=
  if !s.portUp p then 0
  else if s.ethPort p then (modeInfo (s.portMode p)).2
  else match s.clientOf p with
    | some x => 5000 * slotsOf (s.grp x.1).cal x.2
    | none => 0

/-- The Porter takes the rate of port `p` (14 R306); a change checks the heads against the gate windows again (14 R329). -/
def State.setRate (s : State) (p : Nat) : State :=
  let t := s.set (SCH_PORT_RATE_RATE (p / 16) (p % 16)) (s.rateNow p)
  if t.portRate p = s.portRate p then t else t.gateCheckPort p

/-- Evaluate R54 for port `p`, with the Porter's rate. -/
def State.refreshPort (s : State) (p : Nat) : State :=
  let s := { s with prt := { s.prt with phyUp := Tbl.set (fun _ => false) s.prt.phyUp p (s.phyUpCond p) } }
  (s.setUp p (s.upCond p)).setRate p

/-- PORT_UP (03 R54): the port's lanes align, its FEC locks and it receives no fault; it is up if its other conditions hold. -/
def execPortUp (port : Fin 256) (s : State) : Host.Outcome State Fault Refusal :=
  let i := port.val / 16
  let k := port.val % 16
  .next ((((s.set (PRT_PORT_STAT_FEC_LOCK i k) 1).set (PRT_PORT_STAT_LF_RX i k) 0).set (PRT_PORT_STAT_RF_RX i k) 0).refreshPort port)

/-- PORT_DOWN (03 R54, R69): the port receives Local Fault or Remote Fault, or (neither) loses its lock. -/
def execPortDown (port : Fin 256) (lf rf : Bool) (s : State) : Host.Outcome State Fault Refusal :=
  let i := port.val / 16
  let k := port.val % 16
  let s := (s.set (PRT_PORT_STAT_LF_RX i k) (b2n lf)).set (PRT_PORT_STAT_RF_RX i k) (b2n rf)
  .next ((if lf || rf then s else s.set (PRT_PORT_STAT_FEC_LOCK i k) 0).refreshPort port)

/-! ### Receiving (R55–R58) -/

/-- Ports of a slice that share its receive staging (R56): enabled Ethernet ports and clients. -/
def State.sharers (s : State) (sl : Nat) : Nat :=
  ((List.range 16).filter fun k => s.ethPort (16 * sl + k) || (s.clientOf (16 * sl + k)).isSome).length

/-- A port's share of the 512 KiB of receive staging (R56). -/
def State.stagingShare (s : State) (p : Nat) : Nat := 524288 / max 1 (s.sharers (p / 16))

/-- Bytes of a port's frames in receive staging. -/
def State.stagedBytes (s : State) (p : Nat) : Nat :=
  ((s.frames.filter fun x => x.2.iport == p && (x.2.stage == .staging || x.2.stage == .waitBuf)).map fun x => x.2.bytes.length).sum

/-- Whether a TPID names a tag (R58). -/
def isTag (b : List Byte) (i : Nat) : Bool := beNat (bytesAt b i 2) == 0x8100 || beNat (bytesAt b i 2) == 0x88A8

/-- DSCP of an IP header after at most two tags (R58). -/
def dscpOf (b : List Byte) : Option Nat :=
  let i := if isTag b 12 then (if isTag b 16 then 20 else 16) else 12
  let ty := beNat (bytesAt b i 2)
  if ty = 0x0800 && byteAt b (i + 2) / 16 = 4 then some (byteAt b (i + 3) / 4)
  else if ty = 0x86DD && byteAt b (i + 2) / 16 = 6 then some (beNat (bytesAt b (i + 2) 2) / 64 % 64) else none

/-- The ingress class of a frame (R58). -/
def State.iclassOf (s : State) (p : Nat) (b : List Byte) : Nat :=
  let i := p / 16
  let k := p % 16
  let def' := s.cfg (PRT_PORT_CFG_DEF_CLS i k)
  let m := s.cfg (PRT_PORT_CFG_CLS_MODE i k)
  if m = 1 then (if isTag b 12 then byteAt b 14 / 32 else def')
  else if m = 2 then
    match dscpOf b with
    | some d => s.cfg (PRT_DSCP_MAP_CLS_at i (d / 8) (d % 8))
    | none => def'
  else def'

/-- A timestamp in units of 2⁻¹⁶ ns (R61, 18 R423): the time base with its fraction plus a signed correction in 1/256 ns. -/
def State.fineTime (s : State) (corr : Int) : Nat := (((s.tbNs * 2 ^ 16 + s.tb.frac / 2 ^ 24 : Nat) : Int) + corr * 256).toNat

/-- The ingress timestamp of a frame in units of 2⁻¹⁶ ns: the time base plus RXDLY. -/
def State.rxFine (s : State) (p : Nat) : Nat := s.fineTime (sgn 24 (s.cfg (PRT_PTP_RXDLY_DLY (p / 16) (p % 16))))

/-- Counts at the end of a received frame (18 Table 18.2). -/
def State.countRx (s : State) (p n : Nat) : State := (s.portCnt p 0).portCnt p 1 n

/-- A frame that ends above MAX_FRAME is cut there and FCS-bad (R55). -/
def State.oversize (s : State) (id : Nat) : State :=
  let f := s.frame (s.lead id)
  if s.maxFrame f.iport < f.len then
    let m := s.maxFrame f.iport
    let s := (s.portCnt f.iport 4).portCnt f.iport 2
    forEach (s.family id) (fun i s => (s.modFrame i fun f => { f with
      bytes := f.bytes.take m
      oversize := true
      ended := true }).markBad i) s
  else s

/-- Whether a frame waits in staging for its end (R20): longer than its first 256 bytes and not cut-through. -/
def Frame.waits (f : Frame) : Bool := !f.ct && decide (256 < f.len || !f.ended)

/-- The staging limit (R56): the arriving frame is dropped 0x06 when its bytes take the port above its share. -/
def State.stagingLimit (s : State) (id : Nat) : State :=
  let f := s.frame id
  if f.stage = .staging && f.waits && s.stagingShare f.iport < s.stagedBytes f.iport then s.drop id 0x06 true else s

/-- A frame asks for its buffer (R20): at head cut, or at its end when it waits in staging. -/
def State.askBuffer (s : State) (id : Nat) : State :=
  let f := s.frame id
  if f.stage = .staging && (f.ended || (f.ct && decide (256 ≤ f.len))) then
    s.requestBuf id f.slice (if f.ct && decide (256 < f.len || !f.ended) then s.maxFrame f.iport else f.len)
  else s

/-- FRAME_RECEIVE (03 R55–R58, R61, R68, 01 R20): the first bytes of a frame, or a whole frame, have arrived on a port. -/
def execFrameReceive (port : Fin 256) (b : List Byte) (whole : Bool) (s : State) : Host.Outcome State Fault Refusal :=
  let p := port.val
  if s.safe then .next (s.portCnt p 12)
  else if !s.portUp p then .next s
  else if whole && b.length < 64 then .next (s.portCnt p 3)
  else
    let r := s.newFrame { bytes := b, iport := p, slice := p / 16, iclass := s.iclassOf p b, t := s.rxFine p / 2 ^ 16, tf := s.rxFine p % 2 ^ 16, ended := whole,
                          ct := s.cfg (PRT_PORT_CFG_CT (p / 16) (p % 16)) == 1, arrived := s.now, stage := .staging }
    let s := if whole then r.2.countRx p b.length else r.2
    .next (((s.oversize r.1).stagingLimit r.1).askBuffer r.1)

/-- FRAME_END (01 R20, 03 R55, R56): the rest of a frame has arrived. A stored frame then asks for its buffer; a cut-through
frame's write is complete. -/
def execFrameEnd (f : Nat) (rest : List Byte) (s : State) : Host.Outcome State Fault Refusal :=
  let x := s.frame (s.lead f)
  if x.stage = .done || x.ended then .next s
  else
    let n := x.len + rest.length
    let s := (s.modFamily f fun f => { f with
      bytes := f.bytes ++ rest
      ended := true }).countRx x.iport n
    .next (((s.oversize f).stagingLimit f).askBuffer f)

/-- FCS_RESULT (01 R22, 12 R279): the FCS result reaches the block that holds the frame. -/
def execFcsResult (f : Nat) (ok : Bool) (s : State) : Host.Outcome State Fault Refusal :=
  let x := s.frame (s.lead f)
  if x.stage = .done || x.fcs.isSome then .next s
  else if ok then .next (s.modFamily f fun f => { f with fcs := some true })
  else .next (forEach (s.family f) (fun i s => s.markBad i) (s.portCnt x.iport 2))

/-! ### Priority flow control (R59, R60) -/

/-- PFC_REPEAT (03 R59): while the count stays above XON the frame is repeated every QUANTA ÷ 2 quanta. -/
def execPfcRepeat (port : Fin 256) (pri : Fin 8) (s : State) : Host.Outcome State Fault Refusal :=
  let i := port.val / 16
  let k := port.val % 16
  let q := s.cfg (PRT_PFC_CFG_QUANTA i k)
  let due := Tbl.get (fun _ => 0) s.prt.pfcAt (8 * port.val + pri.val) + s.quantaNs port (max 1 (q / 2))
  if s.pfcOn port pri && s.get ⟨PRT_PORT_STAT i k, 8 + pri.val, 1⟩ = 1 && due ≤ s.now &&
      s.cfg (PRT_PFC_THR_XON_KB i k) * 256 < s.pfcCount port pri then .next (s.sendPfc port pri q)
  else .next s

/-- PAUSED bit of a port's priority. -/
def pausedFld (p pri : Nat) : Fld := ⟨PRT_PORT_STAT (p / 16) (p % 16), 16 + pri, 1⟩

/-- Set or end the pause of one priority (R60). -/
def State.pause (s : State) (p pri quanta : Nat) : State :=
  let s := { s with prt := { s.prt with pauseEnd := Tbl.set (fun _ => 0) s.prt.pauseEnd (8 * p + pri) (s.now + s.quantaNs p quanta) } }
  s.set (pausedFld p pri) (b2n (quanta != 0))

/-- PFC_RECEIVE (03 R60): a PFC frame with its enable vector and times. -/
def execPfcReceive (port : Fin 256) (vec : BitVec 8) (times : List (BitVec 16)) (s : State) : Host.Outcome State Fault Refusal :=
  let t := s.portCnt port 5
  if s.cfg (PRT_PFC_CFG_RX_EN (port.val / 16) (port.val % 16)) ≠ 1 || !s.ethPort port then .next t
  else .next (forEach ((List.range 8).filter fun p => vec.getLsbD p) (fun p s => s.pause port p (times.getD p 0).toNat) t)

/-- PFC_PAUSE_EXPIRY (03 R60): the pause time of a priority has run out. -/
def execPfcPauseExpiry (port : Fin 256) (pri : Fin 8) (s : State) : Host.Outcome State Fault Refusal :=
  if Tbl.get (fun _ => 0) s.prt.pauseEnd (8 * port.val + pri.val) ≤ s.now then .next (s.set (pausedFld port pri) 0) else .next s

/-- PAUSE_RECEIVE (03 R60): counted and discarded. -/
def execPauseReceive (port : Fin 256) (s : State) : Host.Outcome State Fault Refusal := .next (s.portCnt port 6)

end Sys2Proof.Machine
end

