-- ==== Sys2Proof/Machine/Loom.lean ====
section
/-! DEFINITION. The Loom (03 R62–R67, 04): FlexE groups, working calendars, calendar switches, notices and PHY faults. -/

namespace Sys2Proof.Machine

open Reg

/-- LOOM page 0. -/
def loomPage : Nat := 0x800000

/-! ### Groups (03 R62–R65) -/

/-- Member PHYs of a group, as lane positions in its slice. -/
def State.members (s : State) (g : Nat) : List Nat := (List.range 16).filter fun k => bit (s.cfg (LOOM_GRP_CFG_PHY_MASK g)) k

/-- Instances of 100 Gb/s that a PHY of the group's slice carries (Table 3.2). -/
def State.phyInst (s : State) (g : Nat) : Nat := (modeInfo (s.cfg (PRT_SLICE_MODE_MODE (s.grpSlice g)))).2 / 100000

/-- Base instance number of a member PHY. -/
def State.phyBase (s : State) (g k : Nat) : Nat := s.cfg (LOOM_GRP_BASE_BASE_at g (k / 4) (k % 4))

/-- Member PHYs ordered by base, so that instance rank r lies on the PHY of index r div instances (R65). -/
def State.ranked (s : State) (g : Nat) : List Nat :=
  sortBy (fun a b => decide (s.phyBase g a ≤ s.phyBase g b)) (s.members g)

/-- Slots of a group: 20 per instance (R65). -/
def State.grpSlots (s : State) (g : Nat) : Nat := 20 * s.phyInst g * (s.members g).length

/-- The instance numbers of a member. -/
def State.instNums (s : State) (g k : Nat) : List Nat := (List.range (s.phyInst g)).map fun i => s.phyBase g k + i

/-- Whether a group is held down by its configuration (R64). -/
def State.cfgBad (s : State) (g : Nat) : Bool :=
  let sl := s.grpSlice g
  let mode := s.cfg (PRT_SLICE_MODE_MODE sl)
  let ms := s.members g
  let m := s.phyInst g
  let ext := s.cfg (LOOM_GRP_CFG_EXT800 g) == 1
  ms.isEmpty || ms.any (fun k => !s.produced (16 * sl + k) || !s.portEn (16 * sl + k) || !s.portFunc (16 * sl + k)) ||
    mode == 0 || mode == 4 || decide (8 < mode) || ext != (m == 8) || decide (320 < s.grpSlots g) ||
    ms.any (fun k => decide (s.phyBase g k % max 1 m ≠ 0 || s.phyBase g k = 0 || 254 < s.phyBase g k + m - 1)) ||
    !distinct (ms.flatMap fun k => s.instNums g k) ||
    ms.any (fun k => (List.range g).any fun h => s.cfg (LOOM_GRP_CFG_EN h) == 1 && s.grpSlice h == sl && (s.members h).contains k)

/-- A group is enabled and not held down: LOOM enabled, EN 1, a valid group number, no CFG_ERR condition. -/
def State.grpLive (s : State) (g : Nat) : Bool :=
  let n := s.cfg (LOOM_GRP_NUM_GNUM g)
  s.cfg (ctlEn loomPage) == 1 && s.cfg (LOOM_GRP_CFG_EN g) == 1 && decide (1 ≤ n && n ≤ 0xFFFFE) && !s.cfgBad g

/-- The group follows capacity (04 R71). -/
def State.follows (s : State) (g : Nat) : Bool := s.cfg (LOOM_FOL_CFG_FOL_EN g) == 1

/-- A member PHY is up and overhead locked. -/
def State.phyOk (s : State) (g k : Nat) : Bool :=
  Tbl.get (fun _ => false) s.prt.phyUp (16 * s.grpSlice g + k) && (s.grp g).lock.contains k

/-- A member PHY is faulted (04 R90). -/
def State.phyFlt (s : State) (g k : Nat) : Bool := bit (s.get (LOOM_FOL_STAT_PHY_FLT g)) k

/-! ### The working calendar (04 R72, R73) -/

/-- Slot availability under a map (04 R72). -/
def State.avail (s : State) (g map : Nat) : List Bool :=
  let mask := s.cfg (LOOM_MAP_INST_MASK g map)
  let per := min 20 (s.cfg (LOOM_MAP_PER_INST g map))
  let m := max 1 (s.phyInst g)
  let ks := s.ranked g
  (List.range (s.grpSlots g)).map fun j =>
    bit mask (j / 20) && decide (j % 20 < per) && !s.phyFlt g (ks.getD (j / 20 / m) 0)

/-- A calendar of the registers: client index per slot, 31 for unused (03 R65). -/
def State.regCal (s : State) (g : Nat) (b : Bool) : List Nat :=
  (List.range (s.grpSlots g)).map fun j =>
    let v := s.cfg (if b then LOOM_CAL_B_SLOT_at g (j / 4) (j % 4) else LOOM_CAL_A_SLOT_at g (j / 4) (j % 4))
    if 16 ≤ v then 31 else v

/-- The home calendar (04 R71), or the register calendar in use (R79). -/
def State.home (s : State) (g : Nat) : List Nat := s.regCal g (s.cfg (LOOM_FOL_CFG_CAL g) == 1)

/-- Participating clients, highest rank first (04 R73). -/
def State.rankedClients (s : State) (g : Nat) : List Nat :=
  sortBy (fun a b =>
    let pa := s.cfg (LOOM_CLIENT_CFG_PRIO g a)
    let pb := s.cfg (LOOM_CLIENT_CFG_PRIO g b)
    decide (pb < pa) || (pa == pb && decide (a ≤ b))) ((List.range 16).filter fun c => s.clientOn g c)

/-- Give client `c` free available slots, lowest first. -/
def takeFree (c : Nat) : List Nat → List Bool → Nat → List Nat × Nat
  | w :: ws, a :: as, d =>
    if d ≠ 0 && a && w = 31 then let p := takeFree c ws as (d - 1); (c :: p.1, p.2)
    else let p := takeFree c ws as d; (w :: p.1, p.2)
  | ws, _, d => (ws, d)

/-- Give client `c` the slots of client `x`, in list order. -/
def takeFrom (x c : Nat) : List Nat → Nat → List Nat × Nat
  | [], d => ([], d)
  | w :: ws, d =>
    if d ≠ 0 && w = x then let p := takeFrom x c ws (d - 1); (c :: p.1, p.2)
    else let p := takeFrom x c ws d; (w :: p.1, p.2)

/-- Take from the donors, lowest rank first, highest slot first (04 R73). -/
def takeDonors (c : Nat) : List Nat → List Nat → Nat → List Nat
  | [], work, _ => work
  | x :: xs, work, d =>
    let p := takeFrom x c work.reverse d
    takeDonors c xs p.1.reverse p.2

/-- Serve the clients in rank order. -/
def serveClients (home : List Nat) (av : List Bool) : List Nat → List Nat → List Nat
  | [], work => work
  | c :: lower, work =>
    let p := takeFree c work av (slotsOf home c - slotsOf work c)
    serveClients home av lower (takeDonors c lower.reverse p.1 p.2)

/-- The working calendar of R73. -/
def workingCal (home : List Nat) (av : List Bool) (clients : List Nat) : List Nat :=
  let start := List.zipWith (fun h a => if a && clients.contains h then h else 31) home av
  serveClients home av clients start

/-- The calendar that a group is to transmit under a map (04 R71, R79). -/
def State.targetCal (s : State) (g map : Nat) : List Nat :=
  if s.follows g then workingCal (s.home g) (s.avail g map) (s.rankedClients g)
  else (s.home g).map fun c => if s.clientOn g c then c else 31

/-! ### Events and group state (04 R74, LOOM page 0) -/

/-- Set a FOL_EVT bit; page 0 INT_STAT follows when the bit becomes 1. -/
def State.folEvt (s : State) (g b : Nat) : State :=
  let f : Fld := ⟨LOOM_FOL_EVT g, b, 1⟩
  if s.get f = 1 then s else (s.set f 1).setInt loomPage b

/-- Set a LOOM_GRP_STAT error bit; page 0 INT_STAT bit 8 follows (03 R70). -/
def State.grpErr (s : State) (g b : Nat) : State :=
  let f : Fld := ⟨LOOM_GRP_STAT g, b, 1⟩
  if s.get f = 1 then s else (s.set f 1).setInt loomPage 8

/-- The port numbers of a group's enabled clients. -/
def State.clientPorts (s : State) (g : Nat) : List Nat := ((List.range 16).filter fun c => s.clientEn g c).map fun c => s.clientPort g c

/-- Evaluate R54 for the clients of a group. -/
def State.refreshClients (s : State) (g : Nat) : State := forEach (s.clientPorts g) (fun p s => s.setUp p (s.upCond p)) s

/-- The Porter takes the rates of a group's clients (04 R77). -/
def State.rateClients (s : State) (g : Nat) : State := forEach (s.clientPorts g) (fun p s => s.setRate p) s

/-- Evaluate a group: CFG_ERR, CONFLICT, UP, OPER; a group that begins to operate takes its calendar at once (R72, R74). -/
def State.refreshGroup (s : State) (g : Nat) : State :=
  let en := s.cfg (ctlEn loomPage) == 1 && s.cfg (LOOM_GRP_CFG_EN g) == 1
  let s := if en && s.cfgBad g then s.grpErr g 3 else s
  let s := if en && (List.range 16).any (fun c => s.clientEn g c && !s.clientOn g c) then s.grpErr g 2 else s
  let live := s.grpLive g
  let ms := s.members g
  let instOk := s.get ⟨LOOM_GRP_STAT g, 1, 1⟩ == 0
  let up := live && instOk && ms.all fun k => s.phyOk g k
  let oper := live && instOk && ms.any fun k => s.phyOk g k && !s.phyFlt g k
  let was := s.grpOper g
  let s := (s.set ⟨LOOM_GRP_STAT g, 0, 1⟩ (b2n up)).set (LOOM_FOL_STAT_OPER g) (b2n oper)
  let s := if s.grpOper g && !was then
      let map := (s.grp g).accepted.getD 0
      let s := if s.follows g then s.set (LOOM_FOL_STAT_MAP g) map else s
      let c := s.targetCal g map
      s.setGrp g { s.grp g with
        cal := c
        rcal := c
        own := c
        next := none
        derive := false
        held := [] }
    else s
  (s.refreshClients g).rateClients g

/-! ### Deriving and switching (04 R73, R75–R79) -/

/-- WORKING_CALENDAR_DERIVE (04 R73): for a group that has a change to follow, the calendar of the map to come is derived and, if it
differs or belongs to a notice or restore, waits for its switch. -/
def execWorkingCalendarDerive (g : Fin 64) (s : State) : Host.Outcome State Fault Refusal :=
  let x := s.grp g
  if !x.derive then .next s
  else
    let map := match x.notice with
      | some n => if n.cls = 2 then s.get (LOOM_FOL_STAT_MAP g) else n.map
      | none => s.get (LOOM_FOL_STAT_MAP g)
    let c := s.targetCal g map
    .next (s.setGrp g { x with
      derive := false
      own := c
      next := some c
      nextMap := some map
      cr := false
      ca := false })

/-- One overhead frame in nanoseconds (R75). -/
def overheadNs : Nat := 104760

/-- The notice of a group is complete (R82, R84): PEND falls, and a host notice shows complete. -/
def State.noticeDone (s : State) (g : Nat) : State :=
  let x := s.grp g
  match x.notice with
  | none => s
  | some n =>
    let s := (s.setGrp g { x with notice := none }).set (LOOM_FOL_STAT_PEND g) 0
    if n.input.isNone then s.set LOOM_HN_STAT_STATE 2 else s

/-- A frame in transmission on a client that has lost its slots ends with an error control block (R77). -/
def State.truncate (s : State) (g : Nat) : State :=
  let gone := ((List.range 16).filter fun c => s.clientOn g c && slotsOf (s.grp g).cal c == 0).map fun c => s.clientPort g c
  let ids := (s.frames.filter fun p => p.2.stage == .transmit && !p.2.marked && gone.contains p.2.eport).map fun p => p.1
  forEach ids (fun i s =>
    ((s.modFrame i fun f => { f with marked := true }).portCnt (s.frame i).eport 10).inc (LOOM_FOL_CNT2_TRUNC g)) s

/-- The switch itself (R75–R77, R86): the new calendar is transmitted, its map is active, and the Porter is told. -/
def State.doSwitch (s : State) (g : Nat) (forced late : Bool) : State :=
  let x := s.grp g
  match x.next with
  | none => s
  | some c =>
    let s := s.setGrp g { x with
      cal := c
      next := none
      nextMap := none
      cr := false
      ca := false
      forceFrom := none
      held := []
      restore := false
      rates := true }
    let s := match x.nextMap with | some m => (if s.follows g then s.set (LOOM_FOL_STAT_MAP g) m else s) | none => s
    let s := (s.set (LOOM_FOL_STAT_TXCAL g) (1 - s.get (LOOM_FOL_STAT_TXCAL g))).truncate g
    let s := (s.folEvt g 0).inc (LOOM_FOL_CNT1_SWITCHES g)
    let s := if forced then (s.folEvt g 2).inc (LOOM_FOL_CNT1_FORCEDS g) else s
    let s := if late then s.folEvt g 3 else s
    let s := match x.notice with | some n => (if n.cls = 2 then s else s.noticeDone g) | none => s
    s.refreshClients g

/-- Whether a decrease is forced at a boundary now (R86), and whether it is late. -/
def forceDecrease (n : Notice) (now : Nat) : Bool × Bool :=
  let dl := n.t0 + n.deadline * 1000
  let f := min dl (n.t0 + 1000000)
  (decide (n.t0 + 20000 ≤ now) && decide (f ≤ now + overheadNs), decide (dl ≤ now))

/-- Whether this boundary forces the group's switch, and whether it is late (R86, R90). -/
def LoomGrp.mustForce (x : LoomGrp) (now : Nat) : Bool × Bool :=
  match x.forceFrom with
  | some t => (decide (t ≤ now), false)
  | none => match x.notice with
    | some n => if n.cls = 0 then forceDecrease n now else (false, false)
    | none => (false, false)

/-- CALENDAR_BOUNDARY (04 R75, R76, R86, R90): an overhead frame starts on the group's rank 0. -/
def execCalendarBoundary (g : Fin 64) (s : State) : Host.Outcome State Fault Refusal :=
  let x := s.grp g
  if x.next.isNone then .next s
  else if x.cr && x.ca then .next (s.doSwitch g false (match x.notice with | some n => n.cls == 0 && (forceDecrease n s.now).2 | none => false))
  else
    let f := x.mustForce s.now
    if f.1 then .next (s.doSwitch g true f.2) else .next (s.setGrp g { x with cr := true })

/-- PORTER_RATE_SWITCH (04 R77): the boundary indication reaches the Porter. -/
def execPorterRateSwitch (g : Fin 64) (s : State) : Host.Outcome State Fault Refusal :=
  if (s.grp g).rates then .next ((s.setGrp g { s.grp g with rates := false }).rateClients g) else .next s

/-- CA_RECEIVE (04 R76): CA has been received from the far end. -/
def execCaReceive (g : Fin 64) (s : State) : Host.Outcome State Fault Refusal :=
  if (s.grp g).cr then .next (s.setGrp g { s.grp g with ca := true }) else .next s

/-- FAR_C_BIT_CHANGE (04 R78): the receive side takes its own derived calendar, or the one received complete. -/
def execFarCBitChange (g : Fin 64) (received : List Nat) (s : State) : Host.Outcome State Fault Refusal :=
  let x := s.grp g
  let c := if x.own.isEmpty then received else x.own
  .next ((s.setGrp g { x with rcal := c }).set (LOOM_FOL_STAT_RXCAL g) (1 - s.get (LOOM_FOL_STAT_RXCAL g)))

/-- OVERHEAD_MULTIFRAME (04 R78): a differing received calendar is adopted. -/
def execOverheadMultiframe (g : Fin 64) (received : List Nat) (s : State) : Host.Outcome State Fault Refusal :=
  if (s.grp g).rcal = received then .next s
  else .next ((s.setGrp g { s.grp g with rcal := received }).folEvt g 5)

/-! ### Notices (04 R80–R88) -/

/-- CRC-8 of Table 4.1 over bits [31:8]. -/
def crc8 (w : Nat) : Nat :=
  let step (c : Nat) (b : Nat) : Nat :=
    (List.range 8).foldl (fun c _ => if c / 128 % 2 = 1 then (c * 2 % 256) ^^^ 7 else c * 2 % 256) (c ^^^ b)
  [w / 2 ^ 24 % 256, w / 2 ^ 16 % 256, w / 2 ^ 8 % 256].foldl step 0

/-- Class of a notice (R80): 0 decrease, 1 increase, 2 no change, `none` mixed. -/
def classify (old new : List Bool) : Option Nat :=
  let sub (a b : List Bool) : Bool := (List.zipWith (fun x y => !x || y) a b).all id
  if old = new then some 2 else if sub new old then some 0 else if sub old new then some 1 else none

/-- The check of a notice against its group (R83, Table 4.2): the rejection code, or its class. -/
def State.checkNotice (s : State) (w : Nat) (input : Option Nat) : Nat × Nat :=
  let g := bits w 26 6
  let map := bits w 23 3
  if bit w 8 then (4, 0)
  else if s.cfg (LOOM_GRP_CFG_EN g) ≠ 1 || s.cfg (ctlEn loomPage) ≠ 1 || !s.follows g ||
      (match input with | some n => s.cfg (LOOM_FOL_CFG_LRN_SEL g) != n | none => false) then (5, 0)
  else match classify (s.avail g (s.get (LOOM_FOL_STAT_MAP g))) (s.avail g map) with
    | none => (6, 0)
    | some c => if (s.grp g).notice.isSome then (7, 0) else (0, c)

/-- A rejection with codes 5–7 shows in the group (R82). -/
def State.rejectNotice (s : State) (g code : Nat) : State :=
  if 5 ≤ code then ((s.set (LOOM_FOL_EVT_LAST_REJ g) code).folEvt g 1).inc (LOOM_FOL_CNT0_REJECTED g) else s

/-- LRN_ACK of an input. -/
def ackFld (n : Nat) : Fld := ⟨LOOM_LRN_STAT, n, 1⟩

/-- An accepted notice (R82, R84, R86–R88): in progress, or, while the group does not operate, its map is active at once. -/
def State.acceptNotice (s : State) (w cls : Nat) (input : Option Nat) : State :=
  let g := bits w 26 6
  let map := bits w 23 3
  let oper := s.grpOper g
  let cls := if oper then cls else 2
  let s := if oper then s else s.set (LOOM_FOL_STAT_MAP g) map
  let x := s.grp g
  let s := s.setGrp g { x with
    notice := some ⟨input, map, s.now, bits w 9 14, cls⟩
    accepted := some map
    derive := cls != 2 || x.derive }
  let s := ((s.set (LOOM_FOL_STAT_PMAP g) map).set (LOOM_FOL_STAT_PEND g) 1).inc (LOOM_FOL_CNT0_ACCEPTED g)
  let s := { s with loom := { s.loom with ack := Tbl.set (fun _ => none) s.loom.ack (input.getD 8) (some (s.now, g)) } }
  match input with
  | some n => s.set (ackFld n) 1
  | none => s

/-- NOTICE_FRAME (04 R81, R82): a frame of `len` bits on LRN input `n`; `w` holds its last 32 bits. -/
def execNoticeFrame (n : Fin 8) (len : Nat) (w : Word) (s : State) : Host.Outcome State Fault Refusal :=
  let err (s : State) : State := s.set ⟨LOOM_LRN_STAT, 8 + n.val, 1⟩ 1
  if !bit (s.cfg LOOM_LRN_CFG_LRN_EN) n then .next s
  else if s.get (ackFld n) = 1 then .next (err s)
  else if len ≠ 32 then .next (err s)
  else if crc8 w.toNat ≠ w.toNat % 256 then .next (err s)
  else
    let c := s.checkNotice w.toNat (some n.val)
    if c.1 = 0 then .next (s.acceptNotice w.toNat c.2 (some n.val)) else .next (err (s.rejectNotice (bits w.toNat 26 6) c.1))

/-- The effect of a write of LOOM_HNOTICE (04 R83). -/
def State.hostNotice (s : State) (w : Word) : State :=
  if s.get LOOM_HN_STAT_STATE = 1 then s
  else
    let g := bits w.toNat 26 6
    let c := s.checkNotice w.toNat none
    let s := s.set LOOM_HN_STAT_GROUP g
    if c.1 = 0 then (((s.set LOOM_HN_STAT_STATE 1).set LOOM_HN_STAT_CODE 0).acceptNotice w.toNat c.2 none)
    else ((s.set LOOM_HN_STAT_STATE 3).set LOOM_HN_STAT_CODE c.1).rejectNotice g c.1

/-- NOTICE_ACK_FALL (04 R82): 20 µs after LRN_ACK rose and once the change is complete it falls; a no-change notice is complete
then. Input 8 stands for the host. -/
def execNoticeAckFall (n : Fin 9) (s : State) : Host.Outcome State Fault Refusal :=
  match Tbl.get (fun _ => none) s.loom.ack n.val with
  | none => .next s
  | some (t, g) =>
    let mine := match (s.grp g).notice with | some x => x.input.getD 8 == n.val | none => false
    let same := match (s.grp g).notice with | some x => x.cls == 2 | none => false
    if !s.elapsedUs t 20 || (mine && !same) then .next s
    else
      let s := if mine then s.noticeDone g else s
      let s := { s with loom := { s.loom with ack := Tbl.set (fun _ => none) s.loom.ack n.val none } }
      .next (if n.val < 8 then s.set (ackFld n) 0 else s)

/-- A group's notice or restore is abandoned (R87, R91, R92). -/
def State.abandon (s : State) (g : Nat) : State :=
  let x := s.grp g
  let s := s.setGrp g { x with
    next := none
    nextMap := none
    cr := false
    ca := false
    restore := false
    retryAt := if x.restore then some s.now else x.retryAt }
  (s.noticeDone g).folEvt g 6

/-- NOTICE_ABANDON (04 R87, R91): an increase, or a restore, with no normal switch within 2,000 µs. -/
def execNoticeAbandon (g : Fin 64) (s : State) : Host.Outcome State Fault Refusal :=
  let x := s.grp g
  match x.notice with
  | some n => .next (if n.cls = 1 && s.elapsedUs n.t0 2000 then s.abandon g else s)
  | none => .next (if x.restore && s.elapsedUs x.reqAt 2000 then s.abandon g else s)

/-! ### PHY faults (04 R90, R91, 03 R67) -/

/-- Clients with a working slot on a member PHY. -/
def State.clientsOn (s : State) (g k : Nat) : List Nat :=
  let m := max 1 (s.phyInst g)
  let ks := s.ranked g
  (List.range 16).filter fun c => (s.grp g).cal.zipIdx.any fun x => x.1 == c && ks.getD (x.2 / 20 / m) 16 == k

/-- PHY_FAULT (04 R90): a member PHY of a following group becomes faulted. -/
def execPhyFault (g : Fin 64) (k : Fin 16) (s : State) : Host.Outcome State Fault Refusal :=
  if !s.follows g || !(s.members g).contains k.val || s.phyFlt g k then .next s
  else
    let held := s.clientsOn g k
    let s := ((s.set ⟨LOOM_FOL_STAT g, 16 + k.val, 1⟩ 1).folEvt g 4).inc (LOOM_FOL_CNT2_PHY_FAULTS g)
    let x := s.grp g
    let s := s.setGrp g { x with
      held := held ++ x.held
      derive := true
      forceFrom := some (s.now + 20000)
      restore := false
      clean := Tbl.set (fun _ => 0) x.clean k.val 0 }
    .next (s.refreshGroup g)

/-- PHY_RESTORE (04 R91): a faulted PHY that has been clean for 100 ms is restored; a normal switch is requested. -/
def execPhyRestore (g : Fin 64) (k : Fin 16) (s : State) : Host.Outcome State Fault Refusal :=
  let x := s.grp g
  if !s.phyFlt g k || !s.phyOk g k || !s.elapsedUs (Tbl.get (fun _ => 0) x.clean k.val) 100000 then .next s
  else
    let s := (s.set ⟨LOOM_FOL_STAT g, 16 + k.val, 1⟩ 0).folEvt g 7
    let s := s.setGrp g { x with
      derive := true
      restore := true
      reqAt := s.now
      retryAt := none }
    .next (s.refreshGroup g)

/-- RESTORE_RETRY (04 R91): an abandoned restore switch is tried again after 100 ms. -/
def execRestoreRetry (g : Fin 64) (s : State) : Host.Outcome State Fault Refusal :=
  let x := s.grp g
  match x.retryAt with
  | none => .next s
  | some t =>
    .next (if s.elapsedUs t 100000 then s.setGrp g { x with
      derive := true
      restore := true
      reqAt := s.now
      retryAt := none } else s)

/-- OVERHEAD_LOCK_CHANGE (03 R67, 04 R74): a PHY gains or loses overhead and multiframe lock; instance numbers that do not match the
interleave hold the group down with INST_ERR. -/
def execOverheadLockChange (g : Fin 64) (k : Fin 16) (locked instOk : Bool) (s : State) : Host.Outcome State Fault Refusal :=
  let x := s.grp g
  let s := s.setGrp g { x with
    lock := if locked then (k.val :: x.lock.filter fun j => j != k.val) else x.lock.filter fun j => j != k.val
    clean := if locked then Tbl.set (fun _ => 0) x.clean k.val s.now else x.clean }
  let s := if locked && !instOk && s.cfg (LOOM_GRP_CFG_EXT800 g) = 1 then s.grpErr g 1 else s
  .next (s.refreshGroup g)

/-! ### What a commit does (04 R79, R92, 03 R52, R64, R69) -/

/-- LOOM's switching cycle (R92): `changed a` tells whether the word at an address changed. A group whose configuration, home
calendar, clients or pending map changed abandons its notice and derives again. -/
def State.switchLoom (s : State) (changed : Nat → Bool) : State :=
  forEach (List.range 64) (fun g s =>
    let cals := (List.range 80).any fun w => changed (LOOM_CAL_A g w) || changed (LOOM_CAL_B g w)
    let cl := (List.range 16).any fun c => changed (LOOM_CLIENT_CFG g c)
    let pmap := match (s.grp g).notice with | some n => changed (LOOM_MAP g n.map) | none => false
    let big := changed (LOOM_FOL_CFG g) || cals || cl || pmap
    let small := changed (LOOM_MAP g (s.get (LOOM_FOL_STAT_MAP g)))
    let s := if big && (s.grp g).notice.isSome then s.abandon g else s
    let s := if changed (LOOM_FOL_CFG g) && !s.follows g then s.setGrp g { s.grp g with accepted := none } else s
    let s := if big || small then s.setGrp g { s.grp g with derive := true } else s
    s.refreshGroup g) s

/-- PRT's switching cycle (03 R52, R69): a refused MODE change keeps the old MODE; then every port and group is evaluated. `old`
gives the word by which the block acted before. -/
def State.switchPrt (s : State) (old : Nat → Word) : State :=
  let s := forEach (List.range 16) (fun i s =>
    let f := PRT_SLICE_MODE_MODE i
    if f.of (old f.addr) ≠ s.get f && (List.range 16).any fun k => s.get (PRT_PORT_CFG_EN i k) == 1 then
      ((s.set f (f.of (old f.addr))).set (PRT_SLICE_STAT_MODE_ERR i) 1).setInt (prtPage i) 16 else s) s
  let s := forEach (List.range 256) (fun p s => s.refreshPort p) s
  forEach (List.range 64) (fun g s => s.refreshGroup g) s

end Sys2Proof.Machine
end

