-- ==== Sys2Proof/Machine/Overload.lean ====
section
/-! DEFINITION. Overload (15): the five stages, the spill budget, table banks and the punt buckets. -/

namespace Sys2Proof.Machine

open Reg

/-- SYS page 1 (15 R344). -/
def ovlPage : Nat := 0x1000

/-- The trigger of stage `n` held in the current window (R335). -/
def State.ovlHit (s : State) (n : Nat) : State :=
  let add (l : List Nat) : List Nat := if l.contains n then l else n :: l
  { s with ovl := { s.ovl with
    hit := add s.ovl.hit
    cyc := add s.ovl.cyc } }

/-- OVERLOAD_WINDOW (15 R335): at the end of a 1 µs window ACTIVE shows its stages, and a stage that was not active in the window
before begins an episode. -/
def execOverloadWindow (s : State) : Host.Outcome State Fault Refusal :=
  let act := ((List.range 5).filter fun i => s.ovl.hit.contains (i + 1))
  let s' := s.set SYS_OVL_STAT_ACTIVE ((act.map fun i => 2 ^ i).sum)
  let s' := forEach (act.filter fun i => !s.ovl.was.contains (i + 1))
    (fun i t => (t.count (SYS_OVL_EPIS_EPIS i) ovlPage 5).setInt ovlPage i) s'
  .next { s' with ovl := { s'.ovl with
    was := s.ovl.hit
    hit := [] } }

/-- SPILL_BUDGET_RESET (15 R336): the use count becomes 0 at each whole microsecond. -/
def execSpillBudgetReset (s : State) : Host.Outcome State Fault Refusal := .next (s.set SYS_OVL_SPILL_USE_U 0)

/-- Cap of a traffic class in 64-byte units (R336). -/
def State.spillCap (s : State) (tc : Nat) : Nat :=
  s.get SYS_OVL_SPILL_BUD_BUD * min (s.get (SYS_OVL_SPILL_CAP_CAP_at (tc / 4) (tc % 4))) 16 / 16

/-- Admitted spill writes that no stack has accepted (R337). -/
def State.spillWrites (s : State) : Nat := (s.frames.filter fun p => p.2.spill == .writing).length

/-- Units of a spill candidate. -/
def spillUnits (l : Nat) : Nat := (l + 63) / 64

/-- Spill admission (R336): whether a candidate of `l` bytes and class `tc` is admitted. -/
def State.spillAdmits (s : State) (l tc : Nat) : Bool :=
  decide (s.get SYS_OVL_SPILL_USE_U + spillUnits l ≤ s.spillCap tc) && decide (s.spillWrites < 4096)

/-- BANK_ACCESS (15 R339): `arrivals` requests reach the bank's queue of 32, those beyond it wait in their ports (stage 3), and the
bank then serves its queue or the table writers' port (`write`), in turn. -/
def execBankAccess (bank : Fin 256) (arrivals : Nat) (write : Bool) (s : State) : Host.Outcome State Fault Refusal :=
  let n := Tbl.get (fun _ => 0) s.xmt.bankQ bank.val + arrivals
  let s := if 32 < n then (s.inc64 SYS_OVL_BANK_WAIT_LO SYS_OVL_BANK_WAIT_HI (n - 32)).ovlHit 3 else s
  let q := min n 32
  let lastWrite := Tbl.get (fun _ => false) s.xmt.bankLast bank.val
  let serveWrite := write && (q == 0 || !lastWrite)
  let served := write || q != 0
  let q' := if serveWrite then q else q - 1
  .next { s with xmt := { s.xmt with
    bankQ := Tbl.set (fun _ => 0) s.xmt.bankQ bank.val q'
    bankLast := if served then Tbl.set (fun _ => false) s.xmt.bankLast bank.val serveWrite else s.xmt.bankLast
    bankAcc := if served then bump s.xmt.bankAcc bank.val 1 else s.xmt.bankAcc } }

/-! ### Punt buckets (R341) -/

/-- Tokens of a bucket that nothing has changed yet: full at the reset BURST (the manual gives no reset value, log 21). -/
def puntFull (_ : Nat) : Nat := 256000

/-- Tokens of a traffic class. -/
def State.puntTok (s : State) (t : Nat) : Nat := Tbl.get puntFull s.ovl.punt t

/-- Set the tokens of a traffic class. -/
def State.setPunt (s : State) (t n : Nat) : State := { s with ovl := { s.ovl with punt := Tbl.set puntFull s.ovl.punt t n } }

/-- PUNT_REFILL (15 R341). -/
def execPuntRefill (s : State) : Host.Outcome State Fault Refusal :=
  .next (forEach (List.range 8) (fun t s =>
    s.setPunt t (min (s.puntTok t + s.get (SYS_OVL_PUNT_RATE t)) (s.get (SYS_OVL_PUNT_BURST t) * 1000))) s)

/-- A write of a PUNT word (R341). -/
def State.puntWrite (s : State) (t : Nat) (w : Word) : State := (s.wr (SYS_OVL_PUNT t) w).setPunt t (w.toNat / 2 ^ 16 * 1000)

/-- The punt check of a frame of class `tc` (R341): whether it passes, and the buckets afterwards; a refusal counts. -/
def State.puntCheck (s : State) (tc : Nat) : Bool × State :=
  if 1000 ≤ s.puntTok tc then (true, s.setPunt tc (s.puntTok tc - 1000))
  else (false, (s.count (SYS_OVL_PUNT_DROP_PUNT_DROP tc) ovlPage 5).ovlHit 5)

end Sys2Proof.Machine
end

