-- ==== Sys2Proof/Machine/Order.lean ====
section
/-! DEFINITION. Order tickets, reorder stages and dispatch queues (06 R123–R131), as the blocks before and after the workshops
meet them. -/

namespace Sys2Proof.Machine

open Reg

/-- Index of a slice's ingress stage and queue; the egress ones follow it. -/
def ing (sl : Nat) : Nat := 2 * sl
/-- Index of a slice's egress stage and queue. -/
def egr (sl : Nat) : Nat := 2 * sl + 1

/-- A reorder stage. -/
def State.stageOf (s : State) (k : Nat) : Ord := Tbl.get (fun _ => {}) s.ord.ord k

/-- The blocker of a stage (R130): its earliest outstanding ticket neither done nor skipped (a held ticket is done). -/
def blockerOf (l : List Ticket) : Option Nat := (l.find? fun t => !t.done && !t.skipped).map fun t => t.num

/-- Replace a stage's tickets; a new blocker starts its 20 µs (R130). -/
def State.setOut (s : State) (k : Nat) (l : List Ticket) : State :=
  let o := s.stageOf k
  let since := if blockerOf l = blockerOf o.out then o.since else s.now
  { s with ord := { s.ord with ord := Tbl.set (fun _ => {}) s.ord.ord k (Ord.mk l since) } }

/-- The stage holds 2,048 outstanding tickets (R131). -/
def State.stageFull (s : State) (k : Nat) : Bool := decide (2048 ≤ (s.stageOf k).out.length)

/-- Next ticket number of a stage. -/
def nextFld (k : Nat) : Fld := if k % 2 = 0 then WKS_ORD_NEXT_I_NEXT (k / 2) else WKS_ORD_NEXT_E_NEXT (k / 2)

/-- Draw a ticket with a key for a frame (R123, R126, R129): its number, and the stage afterwards; reaching 2,048 outstanding
tickets starts a full episode (R131). -/
def State.draw (s : State) (k key id : Nat) : Nat × State :=
  let n := s.get (nextFld k)
  let t := (s.set (nextFld k) ((n + 1) % 2 ^ 16)).setOut k ((s.stageOf k).out ++ [{ num := n, key := key, frame := id }])
  let full := if k % 2 = 0 then WKS_I_FULL_I_FULL (k / 2) else WKS_E_FULL_E_FULL (k / 2)
  (n, if t.stageFull k && !s.stageFull k then t.count full (wksPage (2 * (k / 2) * 2)) 3 else t)

/-- The ticket of a frame becomes done (R129). -/
def State.ticketDone (s : State) (k id : Nat) : State :=
  s.setOut k ((s.stageOf k).out.map fun (t : Ticket) => if t.frame = id && !t.lost then { t with done := true } else t)

/-- A dispatch queue: frames in ticket order. -/
def State.dispQ (s : State) (k : Nat) : List Nat := Tbl.get (fun _ => []) s.ord.disp k

/-- Replace a dispatch queue. -/
def State.setDisp (s : State) (k : Nat) (l : List Nat) : State :=
  { s with ord := { s.ord with disp := Tbl.set (fun _ => []) s.ord.disp k l } }

/-- Slice whose egress stage serves a frame to port `p` (R124, R126). -/
def State.egSlice (s : State) (p id : Nat) : Nat :=
  if p = 256 then s.get HIF_PUNT_CFG_SLICE else if p = 257 then (s.frame id).slice else p / 16 % 16

/-- An egress head (R126): bytes 0–255 with the metadata and edit intent, an egress ticket, and a place in the egress dispatch
queue. -/
def State.egressHead (s : State) (id p : Nat) : State :=
  let sl := s.egSlice p id
  let d := s.draw (egr sl) p id
  let t := d.2.modFrame id fun f => { f with
    eport := p
    eslice := sl
    etkt := d.1
    head := bytesAt f.bytes 0 256
    stage := .egDispatch }
  t.setDisp (egr sl) (t.dispQ (egr sl) ++ [id])

/-- Port 256 is up (17 R381). -/
def State.hostPortUp (s : State) : Bool :=
  s.get (ctlEn 0x60000) == 1 &&
    (List.range 8).all fun t =>
      let r := Tbl.get (fun _ => {}) s.hif.sr (s.get (HIF_PUNT_MAP_RING t))
      r.en && !r.inject

/-- A port that takes copies is up (09 R212, R214). -/
def State.copyPortUp (s : State) (p : Nat) : Bool := if p = 256 then s.hostPortUp else s.portUp p

/-- Send a control message to a device (16 R360): 16 bytes, MTYPE first. -/
def State.sendCtrl (s : State) (dev : Nat) (m : List Byte) : State :=
  { s with cly := { s.cly with ctrl := s.cly.ctrl ++ [(dev, bytesAt m 0 16)] } }

end Sys2Proof.Machine
end

