-- ==== Sys2Proof/Machine/Cells.lean ====
section
/-! DEFINITION. Cells, links, sprays and staging of the cascade (16 R345–R354, R358, R360), as the blocks before and after CLY
meet them. -/

namespace Sys2Proof.Machine

open Reg

/-- CLY page 0 (16). -/
def clyPage : Nat := 0xB0000

/-- A CLY counter rises; reaching its maximum sets INT_STAT bit 7 (R370). -/
def State.clyCount (s : State) (f : Fld) (n : Nat := 1) : State := s.count f clyPage 7 n

/-- A link. -/
def State.lnk (s : State) (l : Nat) : LinkQ := Tbl.get (fun _ => {}) s.cly.links l

/-- Replace a link. -/
def State.setLnk (s : State) (l : Nat) (x : LinkQ) : State := { s with cly := { s.cly with links := Tbl.set (fun _ => {}) s.cly.links l x } }

/-- State of a link: 0 DOWN, 1 TRAINING, 2 ALIGNED, 3 UP (R347). -/
def State.linkState (s : State) (l : Nat) : Nat := s.get (CLY_LINK_STAT_STATE (l / 32) (l % 32))

/-- A link changes state: INT_STAT bit 0; leaving UP counts in DOWNS and ends STOPPED (R347, R370). -/
def State.setLink (s : State) (l st : Nat) : State :=
  let old := s.linkState l
  if old = st then s
  else
    let s := (s.set (CLY_LINK_STAT_STATE (l / 32) (l % 32)) st).setInt clyPage 0
    let s := if old = 3 then (s.clyCount (CLY_LINK_DOWNS_DOWNS (l / 32) (l % 32))).set (CLY_LINK_STAT_STOPPED (l / 32) (l % 32)) 0 else s
    if st = 0 then s.setLnk l { s.lnk l with
      good := 0
      pingAt := none
      msgs := [] } else s

/-- The 256 links. -/
def links : List Nat := List.range 256

/-- The plane of a link (R347). -/
def State.plane (s : State) (l : Nat) : Nat :=
  if s.get (CLY_LINK_STAT_FAR_FABRIC (l / 32) (l % 32)) = 1 then s.get (CLY_LINK_STAT_FAR_PLANE (l / 32) (l % 32))
  else s.get (CLY_LINK_CFG_PLANE (l / 32) (l % 32))

/-- Queue a LINK message on a link (R360). -/
def State.linkMsg (s : State) (l : Nat) (m : List Byte) : State :=
  s.setLnk l { s.lnk l with msgs := (s.lnk l).msgs ++ [bytesAt m 0 16] }

/-! ### Staging and its flow control (R358) -/

/-- Cells of a frame of `n` bytes with its descriptor (R352). -/
def cellsOf (n : Nat) : Nat := (96 + n + 255) / 256

/-- DATA cells in staging: held for reorder, of frames being put together or waiting for a buffer, and cells to be forwarded. -/
def State.dataStaged (s : State) : Nat :=
  (s.cly.ctx.map fun p => (p.2.held.filter fun (c : Cell) => c.type == 1).length + (match p.2.build with | some b => b.cells | none => 0)).sum +
  (s.buf.reqs.map fun r => if r.requester = 18 then cellsOf r.size else 0).sum +
  (s.cly.links.map fun p => (p.2.cells.filter fun (c : Cell) => c.type == 1 && c.src != s.get CLY_ID_DEV_ID).length).sum

/-- Staging slots in use: CLY_STAT.STAGE_USED. -/
def State.stageUsed (s : State) : Nat :=
  s.dataStaged + (s.cly.ctx.map fun p => (p.2.held.filter fun (c : Cell) => c.type != 1).length).sum +
  (s.cly.links.map fun p => (p.2.cells.filter fun (c : Cell) => c.type != 1 && c.src != s.get CLY_ID_DEV_ID).length).sum

/-- A LINK message to every UP link. -/
def State.toUpLinks (s : State) (lt : Nat) : State :=
  forEach (links.filter fun l => s.linkState l == 3) (fun l s => s.linkMsg l (leBytes 1 lt)) s

/-- STOP is sent when the DATA cells reach STOP_CELLS and GO when they fall to GO_CELLS (R358). -/
def State.stageFlow (s : State) : State :=
  let n := s.dataStaged
  if s.get CLY_STAT_STOPPING = 0 then
    (if s.get CLY_LFC_STOP_CELLS ≤ n then (s.set CLY_STAT_STOPPING 1).toUpLinks 2 else s)
  else if n ≤ s.get CLY_LFC_GO_CELLS then (s.set CLY_STAT_STOPPING 0).toUpLinks 3 else s

/-! ### Cell bytes (R351) -/

/-- The CRC-8 of Table 4.1 over bytes. -/
def hcrc (b : List Byte) : Nat :=
  b.foldl (fun c x => (List.range 8).foldl (fun c _ => if c / 128 % 2 = 1 then (c * 2 % 256) ^^^ 7 else c * 2 % 256) (c ^^^ x.toNat)) 0

/-- PCRC over the 256 payload bytes, those beyond LEN as zero. -/
def pcrc (len : Nat) (p : List Byte) : Nat := (crc 0x04C11DB7 0xFFFFFFFF (bytesAt (p.take len) 0 256)).toNat

/-- Bits [127:8] of the header. -/
def Cell.head (c : Cell) : Nat :=
  let h := c.type
  let h := h * 8 + c.cls
  let h := h * 2 + b2n c.twin
  let h := h * 2 + b2n c.sof
  let h := h * 2 + b2n c.eof
  let h := h * 8 + c.hops
  let h := h * 2048 + c.dst
  let h := h * 2048 + c.src
  let h := h * 16 + c.vslot
  let h := h * 2 + c.gen
  let h := h * 512 + c.len
  let h := h * 2 ^ 32 + c.seq
  let h := h * 128 + c.part
  h * 2 ^ 32 + pcrc c.len c.payload

/-- The 272 bytes of a cell. -/
def Cell.bytes (c : Cell) : List Byte :=
  let h := beBytes 15 c.head
  h ++ leBytes 1 (hcrc h) ++ bytesAt (c.payload.take c.len) 0 256

/-- The fields of 272 received bytes (Table 16.2). -/
def cellOf (b : List Byte) : Cell :=
  let h := beNat (bytesAt b 0 16)
  { type := bits h 124 4
    cls := bits h 121 3
    twin := bit h 120
    sof := bit h 119
    eof := bit h 118
    hops := bits h 115 3
    dst := bits h 104 11
    src := bits h 93 11
    vslot := bits h 89 4
    gen := bits h 88 1
    len := bits h 79 9
    seq := bits h 47 32
    part := bits h 40 7
    payload := bytesAt b 16 256 }

/-! ### Sprays (R350, R353, R354) -/

/-- The next SEQ of a space: 16 × destination + class. -/
def State.takeSeq (s : State) (k : Nat) : Nat × State :=
  let n := Tbl.get (fun _ => 0) s.cly.seq k
  (n, { s with cly := { s.cly with seq := Tbl.set (fun _ => 0) s.cly.seq k ((n + 1) % 2 ^ 32) } })

/-- The reach mask of a destination. -/
def State.reach (s : State) (d : Nat) : BitVec 256 := Tbl.get (fun _ => 0) s.cly.reach d

/-- Whether a link is usable for a cell to a device (R350), on a plane where one is required. -/
def State.usable (s : State) (c : Cell) (pl : Option Nat) (l : Nat) : Bool :=
  (s.reach c.dst).getLsbD l && s.linkState l == 3 &&
    !(c.type == 1 && s.get (CLY_LINK_STAT_STOPPED (l / 32) (l % 32)) == 1) &&
    (match pl with | none => true | some p => s.plane l == p)

/-- The usable link with the fewest cells queued; ties go to the link nearest after the destination's pointer (R350). -/
def State.bestLink (s : State) (c : Cell) (pl : Option Nat) : Option Nat :=
  let p := Tbl.get (fun _ => 0) s.cly.rr c.dst
  let us := (links.map fun i => (p + i) % 256).filter fun l => s.usable c pl l
  us.foldl (fun (b : Option Nat) l =>
    match b with
    | none => some l
    | some x => if (s.lnk l).cells.length < (s.lnk x).cells.length then some l else some x) none

/-- Queue a cell on a link; the destination's pointer moves past it. -/
def State.putCell (s : State) (l : Nat) (c : Cell) : State :=
  let s := s.setLnk l { s.lnk l with cells := (s.lnk l).cells ++ [c] }
  { s with cly := { s.cly with rr := Tbl.set (fun _ => 0) s.cly.rr c.dst ((l + 1) % 256) } }

/-- A cell goes to one usable link, or is discarded (R350). -/
def State.spray (s : State) (c : Cell) (pl : Option Nat) : State :=
  match s.bestLink c pl with
  | some l => s.putCell l c
  | none => s.clyCount CLY_NOROUTE_NOROUTE

/-- A cell is sent once, or twice on the two planes (R354). -/
def State.sendCell (s : State) (c : Cell) (twin : Bool) : State :=
  if !twin then s.spray c none
  else match s.bestLink { c with twin := true } (some 0), s.bestLink { c with twin := true } (some 1) with
    | some a, some b => (s.putCell a { c with twin := true }).putCell b { c with twin := true }
    | some a, none => (s.putCell a c).clyCount CLY_TWIN_SINGLE_TWIN_SINGLE
    | none, some b => (s.putCell b c).clyCount CLY_TWIN_SINGLE_TWIN_SINGLE
    | none, none => s.clyCount CLY_NOROUTE_NOROUTE

/-- The messages of one destination at the front of the waiting ones, at most 16, and the rest. -/
def takeMsgs (d : Nat) : Nat → List (Nat × List Byte) → List (List Byte) × List (Nat × List Byte)
  | _, [] => ([], [])
  | 0, l => ([], l)
  | n + 1, (e, m) :: r =>
    if e = d then
      let x := takeMsgs d n r
      (m :: x.1, x.2)
    else
      let x := takeMsgs d (n + 1) r
      (x.1, (e, m) :: x.2)

/-- Waiting control messages become CTRL cells (R360), twin-sent (R354); at most `n` cells. -/
def State.packCtrl (s : State) : Nat → State
  | 0 => s
  | n + 1 =>
    match s.cly.ctrl with
    | [] => s
    | (d, _) :: _ =>
      let x := takeMsgs d 16 s.cly.ctrl
      let q := ({ s with cly := { s.cly with ctrl := x.2 } }).takeSeq (16 * d + 8)
      let c : Cell := { type := 2, dst := d, src := s.get CLY_ID_DEV_ID, seq := q.1, payload := bytesAt x.1.flatten 0 256 }
      (q.2.sendCell c true).packCtrl n

/-- The cell class of a frame: the credit class of its VOQ (R353). -/
def State.cellClass (s : State) (f : Frame) : Nat :=
  if f.voqid < 122880 then f.voqid % 2 ^ (3 - s.cfg VOQ_GEO_QPD) else (f.voqid - 122880) % 8

/-- The frame descriptor (Table 16.3). -/
def Frame.descriptor (f : Frame) : List Byte :=
  bytesAt f.intent 0 64 ++ beBytes 6 (f.t / 1000000000) ++ beBytes 4 (f.t % 1000000000) ++ beBytes 2 f.iport ++ beBytes 2 f.eport ++
    beBytes 1 (f.tc + 8 * f.dp + 32 * b2n f.mcast) ++ [0] ++ beBytes 2 f.len ++ beBytes 2 f.pflags ++
    beBytes 3 (if f.mcast then f.group else f.voqid) ++ List.replicate 9 0

/-- A frame is cut into DATA cells (R352); its buffer is free, and a transit record keeps its drain count (R357). -/
def State.cutFrame (s : State) (id : Nat) : State :=
  let f := s.frame id
  match f.remote with
  | none => s
  | some d =>
    let k := s.cellClass f
    let b := f.descriptor ++ f.bytes
    let n := cellsOf f.len
    let twin := bit (s.get CLY_CFG_TWIN) k
    let me := s.get CLY_ID_DEV_ID
    let r := (List.range n).foldl (fun (p : Nat × State) i =>
      let q := p.2.takeSeq (16 * d + k)
      let c : Cell := { cls := k, sof := i == 0, eof := i + 1 == n, dst := d, src := me, vslot := f.vslot, gen := f.gen,
                        len := min 256 (b.length - 256 * i), seq := q.1, payload := bytesAt b (256 * i) 256 }
      (q.1, q.2.sendCell c twin)) (0, s)
    let s := (r.2.freeStore id).setFrame id {}
    { s with cly := { s.cly with transit := s.cly.transit ++ [Transit.mk d k r.1 f.vslot f.gen] } }

/-- Everything that waits to be cut into cells is cut. -/
def State.packAll (s : State) : State :=
  let s := s.packCtrl s.cly.ctrl.length
  let q := s.cly.txq
  forEach q (fun id s => s.cutFrame id) { s with cly := { s.cly with txq := [] } }

/-- All 65,536 transit records are in use: dequeue toward other devices stops (R357). -/
def State.transitFull (s : State) : Bool := decide (65536 ≤ s.cly.transit.length + s.cly.txq.length)

end Sys2Proof.Machine
end

