-- ==== Sys2Proof/Machine/Buffers.lean ====
section
/-! DEFINITION. Buffers, pools and virtual output queues (12): the Cooper, admission, spilling, dequeue, ageing and the Tally. -/

namespace Sys2Proof.Machine

open Reg

/-! ### Pools (R260–R265) -/

/-- Pool sizes in bytes (Table 12.1). -/
def poolSizes : List Nat := [128, 256, 512, 1024, 1664, 3328, 9856, 16128]

/-- The smallest fitting pool (R263). -/
def fitPool (size : Nat) : Nat := (poolSizes.filter fun n => decide (n < size)).length

/-- Free buffers of a pool. -/
def State.poolFree (s : State) (p : Nat) : Nat := s.get (BUF_POOL_FREE_FREE p)

/-- The pool that a request goes to (R263). -/
def State.targetPool (s : State) (size : Nat) : Nat :=
  let p0 := fitPool size
  (((List.range 8).filter fun p => p0 ≤ p && decide (p ≤ p0 + s.cfg BUF_CFG_UPSIZE)).find? fun p => decide (0 < s.poolFree p)).getD (min p0 7)

/-- The requests presented to pool `p`: the first of each requester (R264). -/
def State.presented (s : State) (p : Nat) : List BufReq :=
  (List.range 20).filterMap fun r => (s.buf.reqs.find? fun q => q.requester == r).filter fun q => s.targetPool q.size == p

/-- The request that pool `p` grants: of the requester nearest after POINTER (R264). -/
def State.winner (s : State) (p : Nat) : Option BufReq :=
  let ptr := s.get (BUF_POOL_ARB_POINTER p)
  let l := s.presented p
  ((List.range 20).findSome? fun i => l.find? fun q => q.requester == (ptr + 1 + i) % 20)

/-- The lowest free index of a pool (R262). -/
def State.lowestFree (s : State) (p : Nat) : Nat :=
  s.buf.units.foldl (fun i u => if u.1 = handle p i then i + 1 else i) 0

/-- Requests that wait a first cycle (R264): WAITS counts each once. -/
def State.markWaits (s : State) (p : Nat) (l : List BufReq) : State :=
  let n := (l.filter fun q => !q.waited).length
  let t := { s with buf := { s.buf with reqs := s.buf.reqs.map fun (q : BufReq) => if l.contains q then { q with waited := true } else q } }
  if n = 0 then t else t.count (BUF_POOL_WAITS_WAITS p) bufPage 4 n

/-- A buffer of pool `p` is allocated to a frame (R262, R280). -/
def State.allocUnit (s : State) (p id : Nat) : State :=
  let i := s.lowestFree p
  let f := s.frame id
  let u : BufUnit := { stamp := s.get BUF_AUDIT_STAT_EPOCH, vslot := f.vslot, gen := f.gen, post := f.post }
  let t := ((s.setUnit (handle p i) (some u)).dec (BUF_POOL_FREE_FREE p)).modFrame id fun f => { f with buf := some (p, i) }
  t.set (BUF_POOL_LWM_LWM p) (min (t.get (BUF_POOL_LWM_LWM p)) (t.poolFree p))

/-- The buffer of a frame carries the frame's VSLOT, GEN and stage bit (R262). -/
def State.syncUnit (s : State) (id : Nat) : State :=
  let f := s.frame id
  match f.buf with
  | none => s
  | some h =>
    match s.unit (handle h.1 h.2) with
    | none => s
    | some u => s.setUnit (handle h.1 h.2) (some { u with
        vslot := f.vslot
        gen := f.gen
        post := f.post })

/-! ### Head queues (03 R57, R266, 15 R338) -/

/-- A slice's head queue. -/
def State.headQ (s : State) (sl : Nat) : List Nat := Tbl.get (fun _ => []) s.prt.hq sl

/-- Replace a slice's head queue. -/
def State.setHeadQ (s : State) (sl : Nat) (l : List Nat) : State :=
  { s with prt := { s.prt with hq := Tbl.set (fun _ => []) s.prt.hq sl l } }

/-- Heads in a slice's head queue, with the injected heads whose buffer is granted and whose data is being read (17 R380). -/
def State.headFill (s : State) (sl : Nat) : Nat :=
  (s.headQ sl).length + (s.frames.filter fun x => x.2.stage == .waitBuf && x.2.buf.isSome && x.2.slice == sl).length

/-- A frame takes VSLOT and GEN as its head enters the head queue (11 R247); a recirculated frame keeps both and moves back to PRE
(R248). -/
def State.stamp (s : State) (id : Nat) : State :=
  let f := s.frame id
  if f.stamped then
    if f.post then
      let t := (s.postDown f.vslot).setFrame id { f with post := false }
      if t.get (LDG_SLOT_STAT_GEN (f.vslot % 16)) = f.gen then t.preUp f.vslot 1 else t.inc (LDG_SLOT_RPRE_RPRE (f.vslot % 16))
    else s
  else
    let k := s.ldg.stampSlot
    (s.preUp k 1).setFrame id { f with
      vslot := k
      gen := s.get (LDG_SLOT_STAT_GEN k)
      stamped := true }

/-- A granted head enters its slice's head queue (R57, R266). -/
def State.enterHeadQ (s : State) (id : Nat) : State :=
  let f := s.frame id
  let s := ((s.stamp id).syncUnit id).modFrame id fun f => { f with
    stage := .headQ
    head := bytesAt f.bytes 0 256 }
  let s := if 256 ≤ f.iport then (s.portCnt f.iport 0).portCnt f.iport 1 f.len else s
  let s := s.setHeadQ f.slice (s.headQ f.slice ++ [id])
  s.set (PRT_HQ_STAT_HWM f.slice) (max (s.get (PRT_HQ_STAT_HWM f.slice)) (s.headQ f.slice).length)

/-- SHED_THR of an ingress class (15 R338). -/
def State.shedThr (s : State) (c : Nat) : Nat :=
  if c % 2 = 0 then s.get (SYS_OVL_SHED_THR_THR_LO (c / 2)) else s.get (SYS_OVL_SHED_THR_THR_HI (c / 2))

/-! ### The destinations of VOQs (R267–R270) -/

/-- First multicast VOQID (R267). -/
def mcBase : Nat := 122880

/-- Queues per destination (R268). -/
def State.qpd (s : State) : Nat := 2 ^ (3 - s.cfg VOQ_GEO_QPD)

/-- The device's own ID (16). -/
def State.ownDev (s : State) : Nat := s.get CLY_ID_DEV_ID

/-- The frames of a VOQ, head first. -/
def State.voqQ (s : State) (v : Nat) : List Nat := Tbl.get (fun _ => []) s.voq.q v

/-- Replace the frames of a VOQ. -/
def State.setVoqQ (s : State) (v : Nat) (l : List Nat) : State := { s with voq := { s.voq with q := Tbl.set (fun _ => []) s.voq.q v l } }

/-- A destination descriptor (Table 12.4). -/
def State.descr (s : State) (d : Nat) : Word := Tbl.get (fun _ => 0) s.voq.dest d

/-- A multicast map entry (Table 12.4). -/
def State.mcEntry (s : State) (dev : Nat) : Word := Tbl.get (fun _ => 0) s.voq.mc dev

/-- VALID of an entry. -/
def entryValid (w : Word) : Bool := bit w.toNat 31

/-- Where a VOQ leads. -/
structure Dest where
  dev : Nat
  port : Nat
  cls : Nat
  prof : Nat
  deriving DecidableEq, Repr

/-- The destination of a VOQ, if it has a valid one: a multicast VOQ leads to port 0x1FF with its TC as class (R359). -/
def State.voqDest (s : State) (v : Nat) : Option Dest :=
  if v < mcBase then
    let w := s.descr (v / s.qpd)
    if entryValid w then some (Dest.mk (bits w.toNat 0 11) (bits w.toNat 11 9) (v % s.qpd) (bits w.toNat 20 5)) else none
  else
    (s.voq.mc.find? fun p => entryValid p.2 && bits p.2.toNat 0 10 == (v - mcBase) / 8).map fun p =>
      Dest.mk p.1 0x1FF ((v - mcBase) % 8) (bits p.2.toNat 20 5)

/-- Depth of a VOQ in bytes (R271). -/
def State.depth (s : State) (v : Nat) : Nat := ((s.voqQ v).map fun id => s.qlen (s.frame id)).sum

/-! ### Joining and leaving a VOQ, reports and balances (14 R318, R321, 16 R359) -/

/-- A VOQ reports ON or OFF: on this device to the Porter, else by a REPORT message. -/
def State.reportVoq (s : State) (v : Nat) (on : Bool) : State :=
  match s.voqDest v with
  | none => s
  | some d =>
    if d.dev = s.ownDev then { s with sch := { s.sch with reports := s.sch.reports ++ [(d.port, d.cls, on)] } }
    else
      let m : List Byte := [1] ++ leBytes 2 d.port ++ leBytes 1 d.cls ++ leBytes 1 (b2n on)
      let t := s.sendCtrl d.dev m
      { t with voq := { t.voq with reportAt := Tbl.set (fun _ => 0) t.voq.reportAt v t.now } }

/-- The credit balance of a VOQ. -/
def State.balance (s : State) (v : Nat) : Int := Tbl.get (fun _ => 0) s.voq.bal v

/-- Set the credit balance of a VOQ. -/
def State.setBalance (s : State) (v : Nat) (b : Int) : State := { s with voq := { s.voq with bal := Tbl.set (fun _ => 0) s.voq.bal v b } }

/-- A frame joins the tail of a VOQ (R272). -/
def State.voqJoin (s : State) (v id : Nat) : State :=
  let q := s.voqQ v
  let t := (s.setVoqQ v (q ++ [id])).modFrame id fun f => { f with stage := .voq }
  if q.isEmpty then t.reportVoq v true else t

/-- A frame leaves a VOQ; a VOQ that becomes empty loses a positive balance and reports OFF. -/
def State.voqLeave (s : State) (v id : Nat) : State :=
  let q := (s.voqQ v).filter fun i => i != id
  let t := s.setVoqQ v q
  if q.isEmpty && !(s.voqQ v).isEmpty then (t.setBalance v (min (t.balance v) 0)).reportVoq v false else t

/-! ### Grants (R264–R266) -/

/-- A grant is withdrawn and its frame dropped (R266, 15 R338); a withdrawn injected frame gets its record (17 R380). -/
def State.withdraw (s : State) (q : BufReq) (r : Nat) : State :=
  let f := s.frame q.frame
  let s := if q.requester = 16 then
      let s := forEach (s.hif.injects.filter fun x => x.frame == q.frame) (fun x s => s.injectRecord x.cq x.ring x.idx 3 r x.entry) s
      { s with hif := { s.hif with injects := s.hif.injects.filter fun x => x.frame != q.frame } }
    else s
  let s := if r = 0x06 then s.count BUF_HQ_DROPS_HQ_DROPS bufPage 4
           else (s.count (SYS_OVL_SHED_SHED (f.iclass % 8)) ovlPage 5).ovlHit 2
  s.drop q.frame r true

/-- What the reason of a withdrawn grant is, if the head queue refuses the frame. -/
def State.headRefusal (s : State) (q : BufReq) : Option Nat :=
  let f := s.frame q.frame
  let n := s.headFill f.slice
  if 17 < q.requester then none
  else if 1024 ≤ n then some 0x06
  else if s.shedThr f.iclass ≤ n then some 0x0F
  else none

/-- Copies of a group's port list (09 R212, R214): each port copy becomes an egress head; the device copy is gone. -/
def State.portCopies (s : State) (id : Nat) (ecc : Ecc) : State :=
  let f := s.frame id
  match s.objFind f.vslot 3 f.group with
  | none => (s.count OBJ_MC_EMPTY_MC_EMPTY objPage 3).endPassage id
  | some c =>
    let r := s.objRead c ecc
    let s := r.2
    if !r.1 then s.endPassage id
    else if c.ports.isEmpty then (s.count OBJ_MC_EMPTY_MC_EMPTY objPage 3).endPassage id
    else
      let es := c.ports.zipIdx
      let made := es.filter fun e => !(bit e.1.w 9 && bits e.1.w 0 9 == f.iport)
      let s := if es.length = made.length then s else s.count OBJ_MC_SKIPPED_MC_SKIPPED objPage 3 (es.length - made.length)
      if made.isEmpty then s.endPassage id
      else
        let s := s.postUp f.vslot (made.length - 1)
        let s := match f.buf with
          | some h => (match s.unit (handle h.1 h.2) with
              | some u => s.setUnit (handle h.1 h.2) (some { u with copies := made.length })
              | none => s)
          | none => s
        let g : Frame := { f with origin := some (f.origin.getD id) }
        let p := made.foldl (fun (p : Bool × State) e =>
          let port := bits e.1.w 0 9
          let n : Nat × State := if p.1 then (id, p.2.setFrame id g) else p.2.newFrame g
          let t := n.2.modFrame n.1 fun (x : Frame) => { x with
            rid := bits e.1.w 10 15
            eport := port }
          if t.copyPortUp port then (false, t.egressHead n.1 port)
          else
            let t := { t with obj := { t.obj with copies := t.obj.copies.map fun (x : OCopy) =>
              if x.tid = 3 && x.index = c.index && x.v == c.v then { x with ports := upd x.ports e.2 fun (y : RepEntry) => { y with drops := min (y.drops + 1) (2 ^ 32 - 1) } }
              else x } }
            (false, (t.count OBJ_MC_DOWN_MC_DOWN objPage 3).drop n.1 0x10)) (true, s)
        p.2

/-- What a granted buffer is for (Table 12.2): a head enters its head queue (0–15, 17), an injected frame's data is read next (16),
a frame from the cascade becomes egress heads (18), a spilled frame is back (19). -/
def State.granted (s : State) (q : BufReq) (ecc : Ecc) : State :=
  let f := s.frame q.frame
  if q.requester = 16 then s
  else if q.requester < 18 then (s.enterHeadQ q.frame).pfcTake q.frame f.len
  else if q.requester = 18 then
    let s := s.stageFlow
    if f.mcast then s.portCopies q.frame ecc else s.egressHead q.frame f.eport
  else
    ((s.freeSpill q.frame).modFrame q.frame fun f => { f with
      spill := .none
      wasSpilled := true }).count BUF_RETURNED_RETURNED bufPage 4

/-- BUFFER_GRANT (12 R262–R266, 15 R338): a pool grants one waiting request, or the grant is withdrawn; the presented requests that
find no buffer left wait. -/
def execBufferGrant (pool : Fin 8) (ecc : Ecc) (s : State) : Host.Outcome State Fault Refusal :=
  let p := pool.val
  if s.get BUF_STAT_INIT = 0 then .next s
  else
    let l := s.presented p
    match s.winner p with
    | none => .next s
    | some q =>
      if s.poolFree p = 0 then .next (s.markWaits p l)
      else
        let rest := l.filter fun x => x != q
        let t := { s with buf := { s.buf with reqs := s.buf.reqs.erase q } }
        match t.headRefusal q with
        | some r => .next (t.withdraw q r)
        | none =>
          let t := (t.allocUnit p q.frame).set (BUF_POOL_ARB_POINTER p) q.requester
          let p0 := fitPool q.size
          let t := if p = p0 then t else t.count (BUF_POOL_UPSIZED_UPSIZED p0) bufPage 4
          let t := if t.poolFree p = 0 then t.markWaits p rest else t
          .next (t.granted q ecc)

/-- BUF_INIT_DONE (12 R261): the free bitmaps are built. -/
def execBufInitDone (s : State) : Host.Outcome State Fault Refusal :=
  if s.buf.fixed && s.get BUF_STAT_INIT == 0 then
    .next ((forEach (List.range 8) (fun p s => s.set (BUF_POOL_FREE_FREE p) (s.get (BUF_POOL_CFG_COUNT_K p) * 1024)) s).set BUF_STAT_INIT 1)
  else .next s

/-! ### Spilling (R273–R276) -/

/-- The spill region can be used: every stack is available (13 R300). -/
def State.stacksUp (s : State) : Bool :=
  (List.range 6).all fun h =>
    (s.get (HBC_STAT_STATE h) == 3 || s.get (HBC_STAT_STATE h) == 6) && s.cfg (ctlEn (0xC0000 + 0x1000 * h)) == 1

/-- The spill blocks of a VOQ, in chain order. -/
def State.chain (s : State) (v : Nat) : List SpillBlk := s.buf.blks.filter fun b => b.voq == v

/-- Bytes of the last block of a chain that are left beside its header. -/
def State.tailRoom (s : State) (v : Nat) : Nat :=
  match (s.chain v).getLast? with
  | some b => 4032 - b.used
  | none => 0

/-- Bytes that a frame takes in the spill region: it starts on a 64-byte boundary (R275). -/
def spillBytes (l : Nat) : Nat := 64 * ((l + 63) / 64)

/-- New blocks that a frame of `l` bytes needs in a chain (R275). -/
def State.newBlocks (s : State) (v l : Nat) : Nat := (spillBytes l - s.tailRoom v + 4031) / 4032

/-- A frame's bytes take their place in the chain of its VOQ. -/
def State.placeSpill (s : State) (v id : Nat) : State :=
  let f := s.frame id
  let room := s.tailRoom v
  let n := spillBytes f.len
  let k := s.newBlocks v f.len
  let e := s.get BUF_AUDIT_STAT_EPOCH
  let own := s.chain v
  let own := upd own (own.length - 1) fun (b : SpillBlk) => if room = 0 then b else { b with
    used := b.used + min n room
    frames := b.frames ++ [id]
    starts := b.starts ++ [(id, f.vslot, f.gen)] }
  let left := n - min n room
  let fresh := (List.range k).map fun i =>
    SpillBlk.mk v (min 4032 (left - 4032 * i)) [id] (if i = 0 && room = 0 then [(id, f.vslot, f.gen)] else []) e
  { s with buf := { s.buf with blks := (s.buf.blks.filter fun (b : SpillBlk) => b.voq != v) ++ own ++ fresh } }.dec BUF_SPILL_STAT_FREE_BLK k

/-- The frame would spill (R273). -/
def State.wouldSpill (s : State) (v id : Nat) : Bool :=
  let f := s.frame id
  let q := s.depth v
  let minr := max 1 (s.cfg BUF_SPILL_CFG_MINR)
  let us := min 1000 (max 1 (s.cfg BUF_CFG_SPILL_US))
  let r := max (Tbl.get (fun _ => 0) s.voq.rate v) minr
  let one := match f.buf with
    | some h => (match s.unit (handle h.1 h.2) with | some u => decide (u.copies ≤ 1) | none => false)
    | none => false
  let low := match f.buf with
    | some h => decide (s.poolFree h.1 < s.cfg (BUF_POOL_CFG_GUARD_K h.1) * 1024)
    | none => false
  s.cfg BUF_CFG_SPILL_EN == 1 && f.ended && one && q != 0 && (decide (us ≤ (q + f.len) * 10 / r) || low)

/-- The fate of an admitted frame at enqueue (R273, R274, 15 R336): it stays on die, spills, or is dropped 0x08 (false). -/
def State.spillOrStay (s : State) (v id : Nat) : Bool × State :=
  let f := s.frame id
  if !s.wouldSpill v id then (true, s)
  else if !s.spillAdmits f.len f.tc then
    (false, ((s.count (SYS_OVL_SPILL_DROP_SPILL_DROP (f.tc % 8)) ovlPage 5).ovlHit 1).drop id 0x08)
  else if !s.stacksUp || s.get BUF_SPILL_STAT_FREE_BLK = 0 || s.get BUF_SPILL_STAT_FREE_BLK < s.newBlocks v f.len then
    (true, (s.count BUF_SPILL_FULL_SPILL_FULL bufPage 4).setInt bufPage 3)
  else
    let s := s.set SYS_OVL_SPILL_USE_U (s.get SYS_OVL_SPILL_USE_U + spillUnits f.len)
    (true, (s.placeSpill v id).modFrame id fun f => { f with spill := .writing })

/-- SPILL_WRITE (12 R274, R275): an admitted spill write is accepted by the stacks; the buffer is freed. -/
def execSpillWrite (f : Nat) (s : State) : Host.Outcome State Fault Refusal :=
  let x := s.frame f
  if x.spill ≠ .writing then .next s
  else
    let e := s.get BUF_AUDIT_STAT_EPOCH
    let s := match x.buf with
      | some h => s.freeHandle (handle h.1 h.2)
      | none => s
    let s := { s with buf := { s.buf with blks := s.buf.blks.map fun (b : SpillBlk) => if b.frames.contains f then { b with stamp := e } else b } }
    .next ((s.modFrame f fun x => { x with
      spill := .spilled
      buf := none }).count BUF_SPILLED_SPILLED bufPage 4)

/-- DRAIN_RATE_UPDATE (12 R273): every 10 µs each VOQ's estimate takes an eighth of the window's bytes. -/
def execDrainRateUpdate (s : State) : Host.Outcome State Fault Refusal :=
  let keys := (s.voq.rate.map fun p => p.1) ++ (s.voq.deq.map fun p => p.1)
  let rates := keys.foldl (fun t v =>
    let r := Tbl.get (fun _ => 0) s.voq.rate v
    let d := Tbl.get (fun _ => 0) s.voq.deq v
    Tbl.set (fun _ => 0) t v ((r - r / 8 + d / 8) % 2 ^ 32)) s.voq.rate
  .next { s with voq := { s.voq with
    rate := rates
    deq := [] } }

/-- SPILL_RETURN (12 R276): the oldest spilled frame of a VOQ asks for a buffer through requester 19. -/
def execSpillReturn (v : Fin 131072) (s : State) : Host.Outcome State Fault Refusal :=
  let q := s.voqQ v.val
  let out (id : Nat) : Bool := (s.frame id).spill == .writing || (s.frame id).spill == .spilled
  let ahead := ((q.takeWhile fun id => !out id).map fun id => s.qlen (s.frame id)).sum
  match q.find? out with
  | none => .next s
  | some id =>
    if (s.frame id).spill = .spilled && s.stacksUp && ahead < max 1 (s.cfg BUF_SPILL_CFG_RET_KB) * 1024 then
      let t := { s with buf := { s.buf with reqs := s.buf.reqs ++ [BufReq.mk 19 id (s.frame id).len false] } }
      .next (t.modFrame id fun f => { f with spill := .returning })
    else .next s

/-! ### Enqueue (R267, R271, R272, 09 R211) -/

/-- Whether a VOQ with profile `prof` admits a frame (R271). -/
def State.admits (s : State) (v prof : Nat) (f : Frame) : Bool :=
  decide (s.depth v + s.qlen f ≤ s.cfg (VOQ_PROF_LIM_LIM prof f.dp) * 4096)

/-- An admitted frame takes ETIME and its stamp, and its PFC bytes leave the port's count (R277, R280, 03 R59). -/
def State.enqueued (s : State) (v id : Nat) : State :=
  let e := s.get BUF_AUDIT_STAT_EPOCH
  let s := (s.pfcRelease id).modFrame id fun f => { f with
    etime := s.tbUs % 2 ^ 22
    voqid := v }
  match (s.frame id).buf with
  | some h => (match s.unit (handle h.1 h.2) with
      | some u => s.setUnit (handle h.1 h.2) (some { u with stamp := e })
      | none => s)
  | none => s

/-- A frame enters a VOQ whose profile admits it: the spill decision, then the tail (R272–R274). -/
def State.enterVoq (s : State) (v id : Nat) : State :=
  let r := s.spillOrStay v id
  if r.1 then (r.2.enqueued v id).voqJoin v id else r.2

/-- A frame is refused at enqueue with 0x07; `inv` counts it as INVALID as well. -/
def State.refuse07 (s : State) (id : Nat) (inv : Bool) : State :=
  let s := s.count VOQ_DROP_LIM_DROP_LIM voqPage 2
  (if inv then s.count VOQ_INVALID_INVALID voqPage 2 else s).drop id 0x07

/-- A device copy is refused (09 R211): REASON 0x11, the entry's DROPS and MC_REFUSED. -/
def State.refuse11 (s : State) (id : Nat) (c : OCopy) (e : Nat) : State :=
  let t := { s with obj := { s.obj with copies := s.obj.copies.map fun (x : OCopy) =>
    if x.tid = 3 && x.index = c.index && x.v == c.v then { x with devs := upd x.devs e fun (y : RepEntry) => { y with drops := min (y.drops + 1) (2 ^ 32 - 1) } }
    else x } }
  (t.count OBJ_MC_REFUSED_MC_REFUSED objPage 3).drop id 0x11

/-- The count that holds a frame rises by `n` (11 R248). -/
def State.holdUp (s : State) (f : Frame) (n : Nat) : State :=
  if f.post then s.postUp f.vslot n
  else if s.get (LDG_SLOT_STAT_GEN (f.vslot % 16)) = f.gen then s.preUp f.vslot n else s.inc (LDG_SLOT_RPRE_RPRE (f.vslot % 16)) n

/-- A device copy of entry `e` of a group goes to its multicast VOQ (09 R211, R270). -/
def State.deviceCopy (s : State) (id : Nat) (c : OCopy) (e : Nat) (dev : Nat) : State :=
  let f := s.frame id
  let m := s.mcEntry dev
  let v := mcBase + 8 * bits m.toNat 0 10 + f.tc
  if entryValid m && s.admits v (bits m.toNat 20 5) f then s.enterVoq v id else s.refuse11 id c e

/-- A multicast frame becomes one copy per device entry, in list order (09 R211). -/
def State.deviceCopies (s : State) (id : Nat) (ecc : Ecc) : State :=
  let f := s.frame id
  match s.objFind f.vslot 3 f.group with
  | none => (s.count OBJ_MC_EMPTY_MC_EMPTY objPage 3).endPassage id
  | some c =>
    let r := s.objRead c ecc
    let s := r.2
    if !r.1 then s.endPassage id
    else if c.devs.isEmpty then (s.count OBJ_MC_EMPTY_MC_EMPTY objPage 3).endPassage id
    else
      let s := (s.pfcRelease id).holdUp f (c.devs.length - 1)
      let s := match f.buf with
        | some h => (match s.unit (handle h.1 h.2) with
            | some u => s.setUnit (handle h.1 h.2) (some { u with copies := c.devs.length })
            | none => s)
        | none => s
      let g : Frame := { s.frame id with origin := some (f.origin.getD id) }
      (c.devs.zipIdx.foldl (fun (p : Bool × State) e =>
        let n : Nat × State := if p.1 then (id, p.2.setFrame id g) else p.2.newFrame g
        (false, n.2.deviceCopy n.1 c e.2 (bits e.1.w 0 11))) (true, s)).2

/-- VOQ_ENQUEUE (12 R267, R269, R271–R274, 01 R22, 09 R211): the next released ingress result is admitted, replicated or dropped. -/
def execVoqEnqueue (ecc : Ecc) (s : State) : Host.Outcome State Fault Refusal :=
  match s.voq.enqQ with
  | [] => .next s
  | id :: r =>
    let s := { s with voq := { s.voq with enqQ := r } }
    let f := s.frame id
    if f.stage = .done then .next s
    else if f.fcs = some false then .next (s.drop id 0x01)
    else if s.cfg (ctlEn voqPage) ≠ 1 then .next (s.refuse07 id false)
    else if f.mcast then .next (s.deviceCopies id ecc)
    else if mcBase ≤ f.voqid then .next (s.refuse07 id true)
    else match s.voqDest f.voqid with
      | none => .next (s.refuse07 id true)
      | some d => .next (if s.admits f.voqid d.prof f then s.enterVoq f.voqid id else s.refuse07 id false)

/-! ### Dequeue (R277, 01 R21, R22, 11 R251, 14 R321) -/

/-- Age of a frame in µs (R277). -/
def State.ageUs (s : State) (f : Frame) : Nat := (s.tbUs % 2 ^ 22 + 2 ^ 22 - f.etime) % 2 ^ 22

/-- The age limit in µs. -/
def State.ageLimit (s : State) : Nat := min 1000 (max 1 (s.cfg VOQ_AGE_AGE_MS)) * 1000

/-- The park limit of port `p` in µs, if its client's group has one (04 Table 4.4). -/
def State.parkLimit (s : State) (p : Nat) : Option Nat :=
  match s.clientOf p with
  | some x =>
    let ms := s.cfg (LOOM_FOL_CFG_PARK_MS x.1)
    if ms = 0 then none else some (min 1000 ms * 1000)
  | none => none

/-- The configured rate of port `p` that decides cut-through (01 R21): the mode's rate, or the client's calendar slots. -/
def State.cfgRate (s : State) (p : Nat) : Nat :=
  match s.clientOf p with
  | some x => 5000 * slotsOf (s.grp x.1).cal x.2
  | none => (modeInfo (s.portMode p)).2

/-- The frame may leave by cut-through (01 R21). -/
def State.mayCutThrough (s : State) (f : Frame) (d : Dest) : Bool :=
  f.ct && !f.mcast && !f.wasSpilled && d.dev == s.ownDev && decide (f.iport < 256) && decide (d.port < 256) &&
    decide (s.cfgRate d.port ≤ s.cfgRate f.iport)

/-- The reason, if any, for which a frame is discarded at dequeue (R277). -/
def State.discardReason (s : State) (f : Frame) (d : Dest) : Option Nat :=
  let park := if d.dev = s.ownDev && decide (d.port < 256) then s.parkLimit d.port else none
  if s.get (LDG_SLOT_STAT_GEN f.vslot) ≠ f.gen then some 0x0E
  else if (match park with | some us => decide (us < s.ageUs f) | none => false) then some 0x15
  else if s.ageLimit < s.ageUs f then some 0x09
  else none

/-- A frame is discarded at dequeue or by the ageing engine: its counter, then the drop. -/
def State.voqDiscard (s : State) (v id r : Nat) : State :=
  let s := s.voqLeave v id
  let s := if r = 0x0E then s.inc LDG_RETIRE_DROPS_RETIRE_DROPS
           else if r = 0x15 then s.count VOQ_DROP_PARK_DROP_PARK voqPage 2
           else if r = 0x09 then s.count VOQ_DROP_AGE_DROP_AGE voqPage 2 else s
  s.drop id r

/-- A dequeued frame moves from PRE to POST (11 R248). -/
def State.toPost (s : State) (id : Nat) : State :=
  let f := s.frame id
  if !f.stamped || f.post then s
  else (((s.preDown f.vslot f.gen).postUp f.vslot 1).setFrame id { f with post := true }).syncUnit id

/-- Every egress stage that a dequeue would draw from has room (06 R131). -/
def State.egressRoom (s : State) (f : Frame) (d : Dest) (id : Nat) : Bool :=
  if d.dev ≠ s.ownDev then true
  else if f.mcast then
    match s.objFind f.vslot 3 f.group with
    | some c => c.ports.all fun e => !s.stageFull (egr (s.egSlice (bits e.w 0 9) id))
    | none => true
  else !s.stageFull (egr (s.egSlice d.port id))

/-- The queue's link memory breaks after `n` frames (R284): the frames beyond are lost; their buffers and counts are the Tally's. -/
def State.breakVoq (s : State) (v n : Nat) : State :=
  let q := s.voqQ v
  let t := forEach (q.drop n) (fun id s => (s.pfcRelease id).setFrame id {}) (s.setVoqQ v (q.take n))
  let t := { t with buf := { t.buf with reqs := t.buf.reqs.filter fun r => !(q.drop n).contains r.frame } }
  let t := t.raise voqPage 1 (addr := v)
  if n = 0 && !q.isEmpty then (t.setBalance v (min (t.balance v) 0)).reportVoq v false else t

/-- The head frame of a VOQ leaves it (R21, R22, R277, R321): discarded, or on its way to its port, its copies or its device. -/
def State.dequeue (s : State) (v id : Nat) (d : Dest) (bufErr : Bool) (ecc : Ecc) : State :=
  let f := s.frame id
  match s.discardReason f d with
  | some r => s.voqDiscard v id r
  | none =>
    let s := if bufErr then (s.modFrame id fun f => { f with fcs := some false }).raise bufPage 0 else s
    if bufErr || f.fcs = some false then s.voqDiscard v id 0x01
    else
      let n := s.qlen f
      let s := s.setBalance v (s.balance v - n)
      let s := { s with voq := { s.voq with deq := Tbl.set (fun _ => 0) s.voq.deq v (Tbl.get (fun _ => 0) s.voq.deq v + n) } }
      let s := (s.toPost id).voqLeave v id
      if d.dev ≠ s.ownDev then
        let t := s.modFrame id fun f => { f with
          stage := .dequeued
          eport := d.port
          remote := some d.dev }
        { t with cly := { t.cly with txq := t.cly.txq ++ [id] } }
      else if f.mcast then s.portCopies id ecc
      else s.egressHead id d.port

/-- VOQ_DEQUEUE (12 R276, R277, R284, 01 R21, R22, 14 R321, 06 R131): a VOQ with a positive balance dequeues its head frame. -/
def execVoqDequeue (v : Fin 131072) (link : LinkErr) (bufErr : Bool) (ecc : Ecc) (s : State) : Host.Outcome State Fault Refusal :=
  let s := match link with
    | .good => s
    | .one => s.raise voqPage 0 (addr := v.val)
    | .both n => s.breakVoq v.val n
  match s.voqQ v.val, s.voqDest v.val with
  | id :: _, some d =>
    let f := s.frame id
    if s.balance v.val ≤ 0 || f.spill ≠ .none || (!f.ended && !s.mayCutThrough f d) || !s.egressRoom f d id ||
        (d.dev ≠ s.ownDev && s.transitFull) then .next s
    else .next (s.dequeue v.val id d bufErr ecc)
  | _, _ => .next s

/-- AGEING_VISIT (12 R278): every frame at the head whose age exceeds the limit is discarded. -/
def execAgeingVisit (v : Fin 131072) (s : State) : Host.Outcome State Fault Refusal :=
  .next (forEach ((s.voqQ v.val).takeWhile fun id => decide (s.ageLimit < s.ageUs (s.frame id))) (fun id t => t.voqDiscard v.val id 0x09) s)

/-! ### The Tally (R280–R282) -/

/-- AUDIT_EPOCH_TICK (12 R280). -/
def execAuditEpochTick (s : State) : Host.Outcome State Fault Refusal :=
  .next (s.set BUF_AUDIT_STAT_EPOCH ((s.get BUF_AUDIT_STAT_EPOCH + 1) % 4096))

/-- A stamp exceeds the leak limit of 2 × AGE_MS (R280, R281). -/
def State.leaked (s : State) (stamp : Nat) : Bool :=
  decide (2 * (s.ageLimit / 1000) < (s.get BUF_AUDIT_STAT_EPOCH + 4096 - stamp) % 4096)

/-- The bits that a reclaim sets: INT_STAT bit 0 and source 2. -/
def State.reclaimed (s : State) (addr : Nat) : State := (s.setInt bufPage 0).raise bufPage 2 (addr := addr)

/-- A buffer is reclaimed (R281): its drain counts fall by its copies. -/
def State.reclaimUnit (s : State) (h : Nat) (u : BufUnit) : State :=
  let s := (List.range u.copies).foldl (fun (t : State) _ => if u.post then t.postDown u.vslot else t.preDown u.vslot u.gen) s
  let s := ((s.setUnit h none).inc (BUF_POOL_FREE_FREE (h / 2 ^ 22 % 8))).count (BUF_POOL_LEAKS_LEAKS (h / 2 ^ 22 % 8)) bufPage 4
  s.reclaimed h

/-- A spill block is reclaimed (R281): one count for each frame that starts in it. -/
def State.reclaimBlk (s : State) (i : Nat) (b : SpillBlk) : State :=
  let s := b.starts.foldl (fun (t : State) x => t.preDown x.2.1 x.2.2) s
  let s := { s with buf := { s.buf with blks := s.buf.blks.eraseIdx i } }
  ((s.inc BUF_SPILL_STAT_FREE_BLK).count BUF_LEAK_BLK_LEAK_BLK bufPage 4).reclaimed i

/-- An uncorrectable free bitmap word (R282): its 32 buffers are marked allocated with copy count 0 and stamped. -/
def State.badBitmap (s : State) (p w : Nat) : State :=
  let e := s.get BUF_AUDIT_STAT_EPOCH
  let n := s.get (BUF_POOL_CFG_COUNT_K p) * 1024
  let is := (List.range 32).map (fun i => 32 * w + i) |>.filter fun i => decide (i < n)
  (forEach is (fun i s =>
    match s.unit (handle p i) with
    | some u => s.setUnit (handle p i) (some { u with
        copies := 0
        stamp := e })
    | none => (s.setUnit (handle p i) (some { stamp := e, copies := 0 })).dec (BUF_POOL_FREE_FREE p)) s).raise bufPage 1 (addr := handle p (32 * w))

/-- TALLY_VISIT (12 R281, R282): the Tally visits the next allocated unit, buffers before spill blocks; after the last a pass ends. -/
def execTallyVisit (bitmap : Option (Nat × Nat)) (s : State) : Host.Outcome State Fault Refusal :=
  let s := match bitmap with
    | some x => if x.1 < 8 then s.badBitmap x.1 x.2 else s
    | none => s
  if s.get BUF_AUDIT_CFG_EN ≠ 1 then .next s
  else
    let at' := s.buf.tallyAt
    match s.buf.units.find? fun u => decide (at' ≤ u.1) with
    | some u =>
      let s := { s with buf := { s.buf with tallyAt := u.1 + 1 } }
      (match u.2 with
       | some x => .next (if !x.eq && s.leaked x.stamp then s.reclaimUnit u.1 x else s)
       | none => .next s)
    | none =>
      let i := at' - 2 ^ 25
      (match s.buf.blks[i]? with
       | some b =>
         if s.leaked b.stamp then .next ({ s with buf := { s.buf with tallyAt := 2 ^ 25 + i } }.reclaimBlk i b)
         else .next { s with buf := { s.buf with tallyAt := 2 ^ 25 + i + 1 } }
       | none =>
         .next ({ s with buf := { s.buf with tallyAt := 0 } }.set BUF_AUDIT_STAT_PASSES ((s.get BUF_AUDIT_STAT_PASSES + 1) % 2 ^ 16)))

/-! ### The destination table and the multicast map (R269, R270, 16 R359) -/

/-- End of a map command: RESULT, and INT_STAT bit 1 when it was refused. -/
def State.mapResult (s : State) (r : Nat) : State :=
  let t := s.set VOQ_MAP_STAT_RESULT r
  if r = 1 then t else t.setInt voqPage 1

/-- Some of the VOQs hold frames. -/
def State.voqsBusy (s : State) (v n : Nat) : Bool := (List.range n).any fun i => !(s.voqQ (v + i)).isEmpty

/-- A WRITE of a destination descriptor (R269, 16 R359). -/
def State.writeDescr (s : State) (d : Nat) (w : Word) : State :=
  let old := s.descr d
  let w := w &&& 0x81FFFFFF
  if mcBase / s.qpd ≤ d then s.mapResult 3
  else if (old ^^^ w) &&& 0x800FFFFF ≠ 0 && s.voqsBusy (d * s.qpd) s.qpd then s.mapResult 2
  else if entryValid w && (s.voq.dest.any fun p => p.1 != d && entryValid p.2 && (p.2 &&& 0xFFFFF) == (w &&& 0xFFFFF)) then s.mapResult 4
  else { s with voq := { s.voq with dest := Tbl.set (fun _ => 0) s.voq.dest d w } }.mapResult 1

/-- A WRITE of a multicast map entry (R270). -/
def State.writeMc (s : State) (dev : Nat) (w : Word) : State :=
  let old := s.mcEntry dev
  let w := w &&& 0x81F003FF
  if 2048 ≤ dev then s.mapResult 3
  else if (old ^^^ w) &&& 0x800003FF ≠ 0 && entryValid old && s.voqsBusy (mcBase + 8 * bits old.toNat 0 10) 8 then s.mapResult 2
  else if entryValid w && (s.voq.mc.any fun p => p.1 != dev && entryValid p.2 && bits p.2.toNat 0 10 == bits w.toNat 0 10) then s.mapResult 4
  else { s with voq := { s.voq with mc := Tbl.set (fun _ => 0) s.voq.mc dev w } }.mapResult 1

/-- The map WRITE command. -/
def State.mapWrite (s : State) : State :=
  let i := s.get VOQ_MAP_SEL_INDEX
  let w := s.rd VOQ_MAP_DATA
  if s.get VOQ_MAP_SEL_TBL = 1 then s.writeMc i w else s.writeDescr i w

/-- The map READ command. -/
def State.mapRead (s : State) : State :=
  let i := s.get VOQ_MAP_SEL_INDEX
  if s.get VOQ_MAP_SEL_TBL = 1 then
    if 2048 ≤ i then s.mapResult 3 else (s.wr VOQ_MAP_DATA (s.mcEntry i)).mapResult 1
  else if mcBase / s.qpd ≤ i then s.mapResult 3
  else (s.wr VOQ_MAP_DATA (s.descr i)).mapResult 1

end Sys2Proof.Machine
end

