-- ==== Sys2Proof/Machine/Porter.lean ====
section
/-! DEFINITION. Scheduling, shaping, policing and time gates (14): the Porter. -/

namespace Sys2Proof.Machine

open Reg

/-! ### Egress queues and credit stops (R307, R319) -/

/-- Bytes in the egress queues of port `p`. -/
def State.eqBytes (s : State) (p : Nat) : Nat :=
  ((if p < 256 then (List.range 16).flatMap fun q => s.eqQ (eqKey p q) else s.eqQ (eqKey p 0)).map fun id => s.txLen (s.frame id)).sum

/-- XOFF bit of a port, by its register; port 256 keeps its own (17 R381). -/
def State.isXoff (s : State) (p : Nat) : Bool :=
  if p < 256 then s.get (SCH_PORT_STAT_XOFF (p / 16) (p % 16)) == 1 else p == 256 && s.sch.hostXoff

/-- The stop on egress bytes begins at XOFF and ends at XON (R319, 17 R381). -/
def State.refreshXoff (s : State) (p : Nat) : State :=
  let i := p / 16
  let k := p % 16
  let off := if p < 256 then s.cfg (SCH_EQ_THR_XOFF_KB i k) else 1024
  let on := if p < 256 then s.cfg (SCH_EQ_THR_XON_KB i k) else 512
  let n := s.eqBytes p
  let x := if off = 0 then false else if off * 1024 ≤ n then true else if n ≤ on * 1024 then false else s.isXoff p
  if p < 256 then s.set (SCH_PORT_STAT_XOFF i k) (b2n x)
  else if p = 256 then { s with sch := { s.sch with hostXoff := x } }
  else s

/-- Profile S of a port (R308). -/
def State.profS (s : State) (p : Nat) : Bool := s.cfg (SCH_PORT_CFG_PROF (p / 16) (p % 16)) == 1

/-- The egress queue of a frame at port `p` (R307). -/
def State.queueOf (s : State) (p : Nat) (f : Frame) : Nat :=
  if 256 ≤ p then 0
  else
    let i := 2 * f.tc + f.dp / 2
    let q := if i < 8 then s.cfg (SCH_QMAP_LO_Q_at (p / 16) (p % 16) i) else s.cfg (SCH_QMAP_HI_Q_at (p / 16) (p % 16) (i - 8))
    if s.profS p then q else q % 8

/-- Samples of an egress queue. -/
def State.smp (s : State) (e : Nat) : Smp := Tbl.get (fun _ => {}) s.sch.smp e

/-- Change the samples of an egress queue of ports 0–255 while sampling is enabled (R330). -/
def State.modSmp (s : State) (e : Nat) (g : Smp → Smp) : State :=
  if e < 4096 && s.cfg SCH_SMP_CFG_EN == 1 then { s with sch := { s.sch with smp := Tbl.set (fun _ => {}) s.sch.smp e (g (s.smp e)) } } else s

/-- A released frame enters its egress queue (R307); its buffer carries EQ 1 (12 R262). -/
def State.enterEq (s : State) (id : Nat) : State :=
  let f := s.frame id
  let p := f.eport
  let q := s.queueOf p f
  let e := eqKey p q
  let s := s.modFrame id fun f => { f with
    stage := .egQ
    egq := q
    etx := s.tbNs }
  let s := match f.buf with
    | some h => (match s.unit (handle h.1 h.2) with
        | some u => s.setUnit (handle h.1 h.2) (some { u with eq := true })
        | none => s)
    | none => s
  let first := (s.eqQ e).isEmpty
  let s := s.setEqQ e (s.eqQ e ++ [id])
  let n := ((s.eqQ e).map fun id => s.txLen (s.frame id)).sum
  let s := (s.modSmp e fun x => { x with depth := min (2 ^ 32 - 1) (max x.depth n) }).refreshXoff p
  if first then (s.gateCheck p q).refreshXoff p else s

/-! ### Shapers (R315–R317) -/

/-- Key of a port's shaper. -/
def portShp (p : Nat) : Nat := 4096 + p

/-- EN, RATE and BURST of a shaper. -/
def State.shaper (s : State) (k : Nat) : Bool × Nat × Nat :=
  if k < 4096 then
    let i := k / 256
    let j := k / 16 % 16
    let q := k % 16
    (s.cfg (SCH_Q_SHP_EN i j q) == 1, s.cfg (SCH_Q_SHP_RATE i j q), s.cfg (SCH_Q_BURST_BURST i j q))
  else
    let i := (k - 4096) / 16
    let j := k % 16
    (s.cfg (SCH_PORT_SHP_EN i j) == 1, s.cfg (SCH_PORT_SHP_RATE i j), s.cfg (SCH_PORT_BURST_BURST i j))

/-- Tokens of a shaper, hundredths of a byte. -/
def State.tokens (s : State) (k : Nat) : Int := Tbl.get (fun _ => 0) s.sch.tok k

/-- Set the tokens of a shaper. -/
def State.setTokens (s : State) (k : Nat) (n : Int) : State := { s with sch := { s.sch with tok := Tbl.set (fun _ => 0) s.sch.tok k n } }

/-- A shaper permits a start (R315). -/
def State.permits (s : State) (k : Nat) : Bool := !(s.shaper k).1 || decide (0 < s.tokens k)

/-- A start takes Lw × 100 from an enabled shaper (R315). -/
def State.spend (s : State) (k lw : Nat) : State := if (s.shaper k).1 then s.setTokens k (s.tokens k - lw * 100) else s

/-- The tokens of a shaper whose configuration changed (R317): full when what it covers is empty, else 0. -/
def State.shaperReset (s : State) (k : Nat) : State :=
  let idle := if k < 4096 then (s.eqQ k).isEmpty else (List.range 16).all fun q => (s.eqQ (eqKey (k - 4096) q)).isEmpty
  s.setTokens k (if idle then ((s.shaper k).2.2 * 6400 : Nat) else 0)

/-- SHAPER_REFILL (14 R315): every enabled shaper of ports 0–255 gains RATE, up to BURST. -/
def execShaperRefill (s : State) : Host.Outcome State Fault Refusal :=
  .next (forEach (List.range (4096 + 256)) (fun k t =>
    let c := t.shaper k
    if c.1 then t.setTokens k (min (t.tokens k + c.2.1) (c.2.2 * 6400 : Nat)) else t) s)

/-! ### Choosing the next frame (R309–R314) -/

/-- The Porter works for port `p`: CTL.EN of page 0 and of the port's page. -/
def State.porterOn (s : State) (p : Nat) : Bool :=
  s.cfg (ctlEn schPage) == 1 && (decide (256 ≤ p) || s.cfg (ctlEn (schPage + 0x1000 * (1 + p / 16))) == 1)

/-- Priority flow control pauses queue `q` of port `p` (03 R60). -/
def State.pfcPaused (s : State) (p q : Nat) : Bool := s.get (pausedFld p (q % 8)) == 1

/-- Queue `q` of port `p` is eligible (R309). -/
def State.eligible (s : State) (p q : Nat) : Bool :=
  match s.eqQ (eqKey p q) with
  | [] => false
  | id :: _ =>
    s.portRate p != 0 && !s.pfcPaused p q && s.permits (eqKey p q) && s.permits (portShp p) && s.gatePermits p q (s.frame id)

/-- Weight of queue `q` (R313). -/
def State.weight (s : State) (p q : Nat) : Nat := max 1 (s.cfg (SCH_WFQ_W_W_at (p / 16) (p % 16) (q / 4) (q % 4)))

/-- The cost of a frame in virtual time (R313). -/
def wfqCost (lw w : Nat) : Nat := (lw * 65536 + w - 1) / w

/-- Tag `a` is earlier than tag `b` (R314). -/
def tagEarlier (a b : Nat) : Bool :=
  let d := (b + 2 ^ 48 - a) % 2 ^ 48
  decide (0 < d) && decide (d < 2 ^ 47)

/-- Virtual time of a port. -/
def State.vtime (s : State) (p : Nat) : Nat := Tbl.get (fun _ => 0) s.sch.v p

/-- Finish tag of a queue. -/
def State.ftag (s : State) (e : Nat) : Nat := Tbl.get (fun _ => 0) s.sch.tag e

/-- The weighted queues of a port (R308). -/
def State.weighted (s : State) (p : Nat) : List Nat := if s.profS p then (List.range 16).drop 4 else List.range 8

/-- The strict queues of a port (R308). -/
def State.strict (s : State) (p : Nat) : List Nat := if s.profS p then List.range 4 else []

/-- Wire length of the head of a queue. -/
def State.headLw (s : State) (p q : Nat) : Nat :=
  match s.eqQ (eqKey p q) with
  | id :: _ => s.wireLen p (s.frame id)
  | [] => 1

/-- The tags at a selection instant (R313): a waking queue starts at the current virtual time, the queue chosen last goes on from
its own tag. -/
def State.retag (s : State) (p : Nat) : State :=
  let last := Tbl.get (fun _ => none) s.sch.chosen p
  forEach ((s.weighted p).filter fun q => s.eligible p q) (fun q t =>
    let e := eqKey p q
    let c := wfqCost (t.headLw p q) (t.weight p q)
    let was := Tbl.get (fun _ => false) t.sch.elig e
    if !was then { t with sch := { t.sch with tag := Tbl.set (fun _ => 0) t.sch.tag e ((t.vtime p + c) % 2 ^ 48) } }
    else if last = some q then { t with sch := { t.sch with tag := Tbl.set (fun _ => 0) t.sch.tag e ((t.ftag e + c) % 2 ^ 48) } }
    else t) s

/-- The queue that a selection instant chooses (R310): the lowest eligible strict queue, else the earliest tag, the lower queue on a
tie. -/
def State.choice (s : State) (p : Nat) : Option Nat :=
  match (s.strict p).find? fun q => s.eligible p q with
  | some q => some q
  | none =>
    ((s.weighted p).filter fun q => s.eligible p q).foldl (fun (a : Option Nat) q =>
      match a with
      | none => some q
      | some b => if tagEarlier (s.ftag (eqKey p q)) (s.ftag (eqKey p b)) then some q else some b) none

/-- The queues found eligible and the choice are kept for the next instant (R313). -/
def State.noteElig (s : State) (p : Nat) (c : Option Nat) : State :=
  let el := (List.range 16).foldl (fun t q => Tbl.set (fun _ => false) t (eqKey p q) (s.eligible p q)) s.sch.elig
  { s with sch := { s.sch with
    elig := el
    chosen := Tbl.set (fun _ => none) s.sch.chosen p c } }

/-- FCS-bad frames that have not started are dropped with 0x01 (01 R22). -/
def State.purgeBad (s : State) (p : Nat) : State :=
  let keys := if p < 256 then (List.range 16).map fun q => eqKey p q else [eqKey p 0]
  forEach keys (fun e t =>
    let bad := (t.eqQ e).filter fun id => (t.frame id).fcs == some false
    forEach bad (fun id t => (t.setEqQ e ((t.eqQ e).filter fun i => i != id)).drop id 0x01) t) s

/-! ### Timestamps of transmitted frames (03 R61, 17 R386, 18 R423) -/

/-- The timestamp queue hands its records to HIF_TS_CFG.CQ while that ring can take one (17 R386). -/
def State.tsDrain (s : State) : State :=
  s.hif.tsQ.foldl (fun (t : State) r =>
    let c := t.get HIF_TS_CFG_CQ
    if (t.cring c).canTake then { t with hif := { t.hif with tsQ := t.hif.tsQ.drop 1 } }.formRecord c r else t) s

/-- A two-step request makes its TIMESTAMP record when the transmit timestamp is taken (17 R386, Table 17.3). -/
def State.twoStep (s : State) (p tag t16 : Nat) : State :=
  if s.get HIF_TS_CFG_EN ≠ 1 then s
  else if 4096 ≤ s.hif.tsQ.length then (s.count HIF_TS_LOST_TS_LOST 0x60000 7).setInt 0x60000 4
  else
    let ns := t16 / 2 ^ 16
    let rec' : List Byte := [6, 0] ++ leBytes 2 p ++ leBytes 2 tag ++ leBytes 4 (ns % 1000000000) ++ leBytes 6 (ns / 1000000000)
    { s with hif := { s.hif with tsQ := s.hif.tsQ ++ [rec'] } }.tsDrain

/-- Weighted sum of frame bytes in a range as ones' complement words. -/
def onesSum (b : List Byte) (i n : Nat) : Nat :=
  ((List.range n).map fun k => byteAt b (i + k) * (if (i + k) % 2 = 0 then 256 else 1)).sum % 65535

/-- The frame is UDP over IPv6, after at most two tags. -/
def udpV6 (b : List Byte) : Bool :=
  let i := if isTag b 12 then (if isTag b 16 then 20 else 16) else 12
  beNat (bytesAt b i 2) == 0x86DD && byteAt b (i + 8) == 17

/-- A one-step request is carried out on the bytes of a transmitted frame (03 R61, 07 R154): `(corr, off, off2)`, at the timestamp
`t16`, with the ingress timestamp `r16`. -/
def oneStepBytes (b : List Byte) (req : Bool × Nat × Nat) (t16 r16 : Nat) : List Byte :=
  let n := if req.1 then 8 else 10
  let o := req.2.1
  if o < 14 || 256 < o + n || b.length < o + n then b
  else
    let ns := t16 / 2 ^ 16
    let new := if req.1 then beBytes 8 ((beNat (bytesAt b o 8) + (t16 - r16)) % 2 ^ 64)
               else beBytes 6 (ns / 1000000000) ++ beBytes 4 (ns % 1000000000)
    let c := patchBytes b o new
    let o2 := req.2.2
    if o2 = 0 || !udpV6 b || b.length < o2 + 2 then c
    else
      let s2 := (onesSum c o2 2 + onesSum b o n + 65535 - onesSum c o n) % 65535
      patchBytes c o2 (if o2 % 2 = 0 then beBytes 2 s2 else leBytes 2 s2)

/-- One step of the FCS of IEEE 802.3. -/
def fcsBit (r : Word) : Word := if r.getLsbD 0 then (r >>> 1) ^^^ 0xEDB88320 else r >>> 1

/-- The FCS of a frame (IEEE 802.3), first transmitted byte first. -/
def fcsOf (b : List Byte) : List Byte :=
  leBytes 4 (~~~(b.foldl (fun (r : Word) x => (List.range 8).foldl (fun r _ => fcsBit r) (r ^^^ x.zeroExtend 32)) 0xFFFFFFFF)).toNat

/-- The bytes of a frame as transmitted, without its FCS (07 R154). -/
def Frame.txBody (f : Frame) : List Byte :=
  let b := f.edited ++ (f.bytes.take (f.len - 4)).drop f.cut
  let b := b ++ List.replicate (60 - b.length) 0
  match f.oneStep with
  | some r => oneStepBytes b r f.txT (f.t * 2 ^ 16 + f.tf)
  | none => b

/-- The frame ends with an inverted FCS. -/
def Frame.inverted (f : Frame) : Bool := f.marked || f.invFcs

/-- The bytes of a frame as transmitted, with its FCS, inverted where the frame ends so. -/
def Frame.txBytes (f : Frame) : List Byte :=
  let b := f.txBody
  let c := fcsOf b
  b ++ (if f.inverted then c.map fun x => ~~~x else c)

/-! ### Starting and ending a frame (R309, R330) -/

/-- The frame in transmission at a port. -/
def State.sending (s : State) (p : Nat) : Option Nat := Tbl.get (fun _ => none) s.sch.busy p

/-- Set the frame in transmission at a port. -/
def State.setSending (s : State) (p : Nat) (x : Option Nat) : State := { s with sch := { s.sch with busy := Tbl.set (fun _ => none) s.sch.busy p x } }

/-- The transmit timestamp of a frame that starts now, in 2⁻¹⁶ ns. -/
def State.txFine (s : State) (p : Nat) : Nat :=
  if p < 256 then s.fineTime (sgn 24 (s.cfg (PRT_PTP_TXDLY_DLY (p / 16) (p % 16)))) else s.fineTime 0

/-- A frame starts (R315, R330, 03 R61): it leaves its queue, the shapers pay, its sojourn and latency are sampled, and its
timestamp is taken. -/
def State.start (s : State) (p q id : Nat) : State :=
  let e := eqKey p q
  let f := s.frame id
  let t16 := s.txFine p
  let lw := s.wireLen p f
  let s := s.setEqQ e ((s.eqQ e).filter fun i => i != id)
  let s := if p < 256 then (s.spend e lw).spend (portShp p) lw else s
  let s := (s.setSending p (some id)).modFrame id fun f => { f with
    stage := .transmit
    txT := t16 }
  let soj := t16 / 2 ^ 16 - f.etx
  let lat := t16 / 2 ^ 16 - f.t
  let s := s.modSmp e fun x => { x with
    soj := min (2 ^ 32 - 1) (max x.soj soj)
    lat := min (2 ^ 32 - 1) (max x.lat lat)
    sum := min (2 ^ 48 - 1) (x.sum + lat)
    count := min (2 ^ 32 - 1) (x.count + 1) }
  let s := match f.twoStep with
    | some tag => s.twoStep p tag t16
    | none => s
  ((s.refreshXoff p).gateCheck p q).refreshXoff p

/-- A selection instant of a port 0–255 that is idle (R309–R314). -/
def State.select (s : State) (p : Nat) : State :=
  let s := s.purgeBad p
  if !s.porterOn p || (s.sending p).isSome then s
  else
    let s := s.retag p
    let c := s.choice p
    let t := s.noteElig p (c.filter fun q => (s.weighted p).contains q)
    match c with
    | none => t
    | some q =>
      let t := if (t.weighted p).contains q then { t with sch := { t.sch with v := Tbl.set (fun _ => 0) t.sch.v p (t.ftag (eqKey p q)) } } else t
      match t.eqQ (eqKey p q) with
      | id :: _ => t.start p q id
      | [] => t

/-- A selection instant of port 257 (R305): its queue drains at RECIRC_G; it stalls while a recirculated frame waits for its buffer
(12 Table 12.2). -/
def State.selectRecirc (s : State) : State :=
  let s := s.purgeBad 257
  if !s.porterOn 257 || (s.sending 257).isSome || s.cfg SCH_INT_RATE_RECIRC_G = 0 || s.buf.reqs.any (fun r => r.requester == 17) then s
  else
    match s.eqQ (eqKey 257 0) with
    | id :: _ => s.start 257 0 id
    | [] => s

/-- The link memory of an egress queue breaks after `n` frames (R332): the frames beyond are lost, their buffers lose EQ and are the
Tally's. -/
def State.breakEq (s : State) (e n : Nat) : State :=
  let q := s.eqQ e
  let t := forEach (q.drop n) (fun id t =>
    let f := t.frame id
    let t := match f.buf with
      | some h => (match t.unit (handle h.1 h.2) with
          | some u => t.setUnit (handle h.1 h.2) (some { u with eq := false })
          | none => t)
      | none => t
    t.setFrame id {}) (s.setEqQ e (q.take n))
  t.raise schPage 1 (addr := e)

/-- The tag, shaper and credit state of a port is lost (R332): its shapers start as after a change and every queue wakes at V. -/
def State.loseSch (s : State) (p : Nat) : State :=
  let t := forEach ((List.range 16).map (fun q => eqKey p q) ++ [portShp p]) (fun k t => t.shaperReset k) s
  let el := (List.range 16).foldl (fun t q => Tbl.set (fun _ => false) t (eqKey p q) false) t.sch.elig
  ({ t with sch := { t.sch with
    elig := el
    chosen := Tbl.set (fun _ => none) t.sch.chosen p none } }).raise schPage 2 (addr := p)

/-- SELECTION_INSTANT (14 R309–R314, R332, 01 R22): port 256's queue is drained by its delivery (17 R382). -/
def execSelectionInstant (port : Fin 258) (q : Fin 16) (link : LinkErr) (stateErr : Bool) (s : State) : Host.Outcome State Fault Refusal :=
  let p := port.val
  let s := match link with
    | .good => s
    | .one => s.raise schPage 0 (addr := eqKey p q)
    | .both n => s.breakEq (eqKey p q) n
  let s := if stateErr && p < 256 then s.loseSch p else s
  if p < 256 then .next (s.select p) else if p = 257 then .next s.selectRecirc else .next s

/-- A recirculated frame turns back to step 2 (01 R24, 06 R124, 12 R263): its edited bytes are a new frame of port 257, its old buffer
is freed and it asks for a new one through requester 17. -/
def State.recirculate (s : State) (id : Nat) : State :=
  let f := s.frame id
  let b := f.txBytes
  let t := (s.freeStore id).setFrame id { bytes := b, iport := 257, slice := f.slice, iclass := f.tc, t := f.t, tf := f.tf, vslot := f.vslot, gen := f.gen,
                                          stamped := f.stamped, post := f.post, tc := f.tc, dp := f.dp, ended := true,
                                          fcs := some (!f.inverted), arrived := s.now, intent := [], stage := .waitBuf }
  t.requestBuf id 17 b.length

/-- TRANSMIT_END (14 R309, 01 Table 1.2 step 9, 11 R248, 12 R279, R282, 18 R407): the last byte of the frame in transmission has been
handed over; a frame whose end has not been written goes on. -/
def execTransmitEnd (port : Fin 258) (bufErr : Bool) (s : State) : Host.Outcome State Fault Refusal :=
  let p := port.val
  match s.sending p with
  | none => .next s
  | some id =>
    if !(s.frame id).ended then .next s
    else
      let s := if bufErr then (s.markBad id).raise bufPage 0 else s
      let f := s.frame id
      let b := f.txBytes
      let s := s.setSending p none
      let s := (s.portCnt p 8).portCnt p 9 b.length
      let s := if f.invFcs && !f.marked then s.portCnt p 10 else s
      if p = 257 then .next (s.recirculate id)
      else
        let s := s.queueCnt (eqKey p f.egq) b.length
        let s := { s with prt := { s.prt with lineOut := s.prt.lineOut ++ [(p, b, f.inverted)] } }
        .next (s.endPassage id)

/-! ### Credits (R318–R321, 16 R359) -/

/-- Key of a flow: source device, port (0x1FF: multicast) and class. -/
def flowKey (dev port cls : Nat) : Nat := dev * 4096 + port * 8 + cls

/-- Set or clear a request bit (R318). -/
def State.setFlow (s : State) (k : Nat) (on : Bool) : State :=
  { s with sch := { s.sch with flows := Tbl.set (fun _ => none) s.sch.flows k (if on then some s.now else none) } }

/-- VOQ_REPORT (14 R318): the next local report reaches the Porter. -/
def execVoqReport (s : State) : Host.Outcome State Fault Refusal :=
  match s.sch.reports with
  | [] => .next s
  | (p, c, on) :: r => .next ({ s with sch := { s.sch with reports := r } }.setFlow (flowKey s.ownDev p c) on)

/-- REQUEST_BIT_TIMEOUT (16 R359): a remote flow without an ON for 200 µs loses its request bit. -/
def execRequestBitTimeout (dev : Fin 2048) (port : Fin 512) (cls : Fin 8) (s : State) : Host.Outcome State Fault Refusal :=
  let k := flowKey dev port cls
  match Tbl.get (fun _ => none) s.sch.flows k with
  | some t => .next (if dev.val ≠ s.ownDev && s.elapsedUs t 200 then s.setFlow k false else s)
  | none => .next s

/-- Classes of port `p` that some flow requests. -/
def State.requesting (s : State) (p : Nat) : List Nat :=
  (List.range 8).filter fun c => s.sch.flows.any fun x => x.1 % 4096 == p * 8 + c && x.2.isSome

/-- The credit rate of port `p` in Mb/s; 511 names the multicast flows (R318, R319). -/
def State.creditRate (s : State) (p : Nat) : Nat :=
  if p = 256 then min 1000 (s.cfg SCH_INT_RATE_HOST_G) * 1000
  else if p = 257 then min 1000 (s.cfg SCH_INT_RATE_RECIRC_G) * 1000
  else if p = 511 then s.cfg SCH_INT_RATE_MC_G * 4000
  else s.portRate p * (64 + s.cfg SCH_CRED_CFG_SPEEDUP) / 64

/-- Credit size in KiB (R319). -/
def State.creditKb (s : State) : Nat := min 16 (max 1 (s.cfg SCH_CRED_CFG_SIZE_KB))

/-- The credits of port `p` are stopped (R319). -/
def State.creditStop (s : State) (p : Nat) : Bool :=
  if p < 256 then s.portRate p == 0 || !s.portUp p || s.isXoff p
  else if p = 256 then !s.hostPortUp || s.isXoff 256 else false

/-- The VOQ of a flow's class toward port `p` of device `dev` (16 R359). -/
def State.voqOfFlow (s : State) (dev p c : Nat) : Option Nat :=
  if p = 0x1FF then
    let m := s.mcEntry dev
    if entryValid m then some (mcBase + 8 * bits m.toNat 0 10 + c) else none
  else
    (s.voq.dest.find? fun x => entryValid x.2 && bits x.2.toNat 0 11 == dev && bits x.2.toNat 11 9 == p && decide (x.1 < mcBase / s.qpd)).bind fun x =>
      if c < s.qpd then some (x.1 * s.qpd + c) else none

/-- Weight of a credit class (R320). -/
def State.creditW (s : State) (p c : Nat) : Nat := max 1 (s.cfg (SCH_CRED_W_W_at (p / 16) (p % 16) (c / 4) (c % 4)))

/-- The class that wins the next credit of port `p` (R320), with the class tags after a weighted choice. -/
def State.creditClass (s : State) (p : Nat) (req : List Nat) : Option Nat × State :=
  if p = 511 then (req.getLast?, s)
  else if p < 256 && s.cfg (SCH_PORT_CFG_CR_MODE (p / 16) (p % 16)) = 1 then
    let n := s.creditKb * 1024
    let v := Tbl.get (fun _ => 0) s.sch.crV p
    let tags := req.foldl (fun t c =>
      if Tbl.get (fun _ => false) s.sch.crWas (8 * p + c) then t
      else Tbl.set (fun _ => 0) t (8 * p + c) ((v + wfqCost n (s.creditW p c)) % 2 ^ 48)) s.sch.crTag
    let best := req.foldl (fun (a : Option Nat) c =>
      match a with
      | none => some c
      | some b => if tagEarlier (Tbl.get (fun _ => 0) tags (8 * p + c)) (Tbl.get (fun _ => 0) tags (8 * p + b)) then some c else some b) none
    match best with
    | none => (none, s)
    | some c =>
      let f := Tbl.get (fun _ => 0) tags (8 * p + c)
      let was := (List.range 8).foldl (fun t k => Tbl.set (fun _ => false) t (8 * p + k) (req.contains k)) s.sch.crWas
      (some c, { s with sch := { s.sch with
        crV := Tbl.set (fun _ => 0) s.sch.crV p f
        crTag := Tbl.set (fun _ => 0) tags (8 * p + c) ((f + wfqCost n (s.creditW p c)) % 2 ^ 48)
        crWas := was } })
  else (req.head?, s)

/-- One credit for port `p` (R319, R320): to the VOQ of the winning flow, or toward its device. -/
def State.issueCredit (s : State) (p : Nat) : State :=
  let r := s.creditClass p (s.requesting p)
  match r.1 with
  | none => s
  | some c =>
    let t := r.2
    let devs := (t.sch.flows.filter fun x => x.1 % 4096 == p * 8 + c && x.2.isSome).map fun x => x.1 / 4096
    let ptr := Tbl.get (fun _ => 2047) t.sch.ptr (8 * p + c)
    match (devs.find? fun d => decide (ptr < d)).or devs.head? with
    | none => t
    | some d =>
      let t := { t with sch := { t.sch with ptr := Tbl.set (fun _ => 2047) t.sch.ptr (8 * p + c) d } }
      let t := t.inc64 SCH_CRED_LO SCH_CRED_HI
      if d = t.ownDev then
        (match t.voqOfFlow d p c with
         | some v => { t with sch := { t.sch with credits := t.sch.credits ++ [(v, t.creditKb * 1024)] } }
         | none => t)
      else t.sendCtrl d ([2] ++ leBytes 2 p ++ leBytes 1 c ++ leBytes 1 t.creditKb)

/-- Issue at most `n` credits while the accumulator holds one (R319). -/
def State.issueCredits (s : State) (p : Nat) : Nat → State
  | 0 => s
  | n + 1 =>
    let a := Tbl.get (fun _ => 0) s.sch.acc p
    let one := s.creditKb * 102400
    if one ≤ a && !(s.requesting p).isEmpty then
      let t := { s with sch := { s.sch with acc := Tbl.set (fun _ => 0) s.sch.acc p (a - one) } }
      (t.issueCredit p).issueCredits p n
    else s

/-- The credit refill of one port (R319). -/
def State.creditRefill (s : State) (p : Nat) : State :=
  if !s.porterOn (min p 256) then s
  else if s.creditStop p then { s with sch := { s.sch with acc := Tbl.set (fun _ => 0) s.sch.acc p 0 } }
  else
    let a := Tbl.get (fun _ => 0) s.sch.acc p + s.creditRate p
    let one := s.creditKb * 102400
    let a := if (s.requesting p).isEmpty then min a one else a
    ({ s with sch := { s.sch with acc := Tbl.set (fun _ => 0) s.sch.acc p a } }).issueCredits p (a / one)

/-- CREDIT_REFILL (14 R319, R320): every port, the internal ports and the multicast flows gain their rate and issue credits. -/
def execCreditRefill (s : State) : Host.Outcome State Fault Refusal :=
  .next (forEach (List.range 258 ++ [511]) (fun p s => s.creditRefill p) s)

/-- A credit reaches a VOQ (R321): lost at an empty one. -/
def State.creditArrives (s : State) (v n : Nat) : State := if (s.voqQ v).isEmpty then s else s.setBalance v (s.balance v + n)

/-- CREDIT_ARRIVE (14 R321): the next local credit reaches its VOQ. -/
def execCreditArrive (s : State) : Host.Outcome State Fault Refusal :=
  match s.sch.credits with
  | [] => .next s
  | (v, n) :: r => .next ({ s with sch := { s.sch with credits := r } }.creditArrives v n)

/-! ### Policers (R322–R325, R333) -/

/-- A policer. -/
def State.policer (s : State) (k : Nat) : Policer := Tbl.get (fun _ => {}) s.sch.pol k

/-- Replace a policer. -/
def State.setPolicer (s : State) (k : Nat) (x : Policer) : State := { s with sch := { s.sch with pol := Tbl.set (fun _ => {}) s.sch.pol k x } }

/-- The buckets after the refill at instant `t` (R323). -/
def Policer.refill (x : Policer) (t : Nat) : Policer :=
  let n := t / 80 - x.last / 80
  let sum := x.tc + n * x.cir
  let ov := sum - x.cbs * 100
  let coup := if bit x.ctl 2 then ov else 0
  { x with
    tc := min sum (x.cbs * 100)
    tx := if bit x.ctl 1 then min (x.tx + n * x.pir + coup) (x.pbs * 100) else min (x.tx + n * x.pir) (x.pbs * 100)
    last := t }

/-- The colour of a frame of `b` hundredths of a byte with input colour `inp` (0 green, 1 yellow, 2 red), and the buckets (R323). -/
def Policer.colour (x : Policer) (b inp : Nat) : Nat × Policer :=
  if !bit x.ctl 1 then
    if inp = 2 || decide (x.tx < b) then (2, x)
    else if inp = 1 || decide (x.tc < b) then (1, { x with tx := x.tx - b })
    else (0, { x with
      tx := x.tx - b
      tc := x.tc - b })
  else if inp = 0 && decide (b ≤ x.tc) then (0, { x with tc := x.tc - b })
  else if inp ≠ 2 && decide (b ≤ x.tx) then (1, { x with tx := x.tx - b })
  else (2, x)

/-- Both buckets full at instant `t` (R325). -/
def Policer.fill (x : Policer) (t : Nat) : Policer :=
  { x with
    tc := x.cbs * 100
    tx := x.pbs * 100
    last := t }

/-- POLICE_LOOKUP (14 R322–R324, R333). -/
def execPoliceLookup (k : Nat) (err : PolErr) (s : State) : Host.Outcome State Fault Refusal :=
  match s.lookup k .police with
  | none => .next s
  | some l =>
    let n := beNat l.key
    if (s.rd (schPage + 8)).toNat % 2 ≠ 1 then .next (s.answer k (errRes 2))
    else if l.key.length ≠ 2 || 2 ^ 14 ≤ n || 1 < l.tid then .next (s.answer k (errRes 1))
    else
      let i := l.wks / 16 * 16384 + n
      let x := s.policer i
      let s := if err = .config && !x.bad then (s.setPolicer i { x with bad := true }).raise schPage 3 (addr := i) else s
      let x := s.policer i
      if x.bad then .next (s.answer k (errRes 3))
      else if !bit x.ctl 0 then .next (s.answer k missRes)
      else
        let s := if err = .buckets then s.raise schPage 4 (addr := i) else s
        let x := if err = .buckets then x.fill s.tbNs else x.refill s.tbNs
        let b := (max 1 ((l.len : Int) + sgn 8 (bits x.ctl 8 8))).toNat * 100
        let inp := if l.tid = 1 then min 2 l.dp else 0
        let c := x.colour b inp
        let s := s.setPolicer i c.2
        let s := if c.1 = 2 then s.count SCH_POL_RED_POL_RED schPage 4 else s
        let s := if c.1 = 2 && bit x.ctl 3 && (s.frame l.frame).stage == .pass then s.modFrame l.frame fun f => { f with polRed := true } else s
        .next (s.answer k (mkRes 1 (c.1 * 256) 0 0 0))

/-- The policer WRITE command (R325): the selected bank, or all four. -/
def State.policerWrite (s : State) : State :=
  let i := s.get SCH_POL_SEL_INDEX
  let qs := if s.get SCH_POL_SEL_ALLQ = 1 then [0, 1, 2, 3] else [s.get SCH_POL_SEL_QUARTER]
  let x : Policer := { cir := s.get SCH_POL_DATA0_CIR, pir := s.get SCH_POL_DATA1_PIR_EIR, cbs := s.get SCH_POL_DATA2_CBS, pbs := s.get SCH_POL_DATA3_PBS_EBS,
                       ctl := (s.rd SCH_POL_DATA4).toNat &&& 0xFF0F }
  (forEach qs (fun q s => s.setPolicer (q * 16384 + i) (x.fill s.tbNs)) s).set SCH_CMD_STAT_POL_RESULT 1

/-- The policer READ command (R325): configuration and buckets at the READ. -/
def State.policerRead (s : State) : State :=
  let x := (s.policer (s.get SCH_POL_SEL_QUARTER * 16384 + s.get SCH_POL_SEL_INDEX))
  let y := x.refill s.tbNs
  ((((((((s.set SCH_POL_DATA0_CIR x.cir).set SCH_POL_DATA1_PIR_EIR x.pir).set SCH_POL_DATA2_CBS x.cbs).set SCH_POL_DATA3_PBS_EBS x.pbs).wr SCH_POL_DATA4
    (BitVec.ofNat 32 x.ctl)).set SCH_POL_DATA5_TC_TOK y.tc).set SCH_POL_DATA6_TX_TOK y.tx).set SCH_CMD_STAT_POL_RESULT 1)

/-! ### Gate lists (R326–R328) -/

/-- A list of a port is in use or pending (R327). -/
def State.listBusy (s : State) (p l : Nat) : Bool :=
  let i := p / 16
  let k := p % 16
  (s.cfg (SCH_PORT_CFG_GATE_EN i k) == 1 && s.listUsed p == l) ||
    (s.get (SCH_PORT_STAT_LIST_PEND i k) == 1 && s.cfg (SCH_PORT_CFG_GATE_LIST i k) == l)

/-- Key of the selected gate entry. -/
def State.gateSel (s : State) : Nat :=
  (2 * s.get SCH_GATE_SEL_PORT + s.get SCH_GATE_SEL_LIST) * 64 + s.get SCH_GATE_SEL_ENTRY

/-- The gate WRITE command (R327). -/
def State.gateWrite (s : State) : State :=
  if s.listBusy (s.get SCH_GATE_SEL_PORT) (s.get SCH_GATE_SEL_LIST) then (s.set SCH_CMD_STAT_GATE_RESULT 2).setInt schPage 1
  else
    { s with sch := { s.sch with gates := Tbl.set (fun _ => (0, 0)) s.sch.gates s.gateSel (s.get SCH_GATE_DATA0_GATES, s.get SCH_GATE_DATA1_INTERVAL) } }.set
      SCH_CMD_STAT_GATE_RESULT 1

/-- The gate READ command. -/
def State.gateRead (s : State) : State :=
  let e := Tbl.get (fun _ => (0, 0)) s.sch.gates s.gateSel
  ((s.set SCH_GATE_DATA0_GATES e.1).set SCH_GATE_DATA1_INTERVAL e.2).set SCH_CMD_STAT_GATE_RESULT 1

/-- The instant at which a pending list starts (R327): its first cycle start at or after the switching cycle and BASE. -/
def State.listStart (s : State) (p l t0 : Nat) : Nat :=
  let b := s.gateBase p l
  let c := s.gateCyc p l
  let t := max t0 b
  if c = 0 then t else b + (t - b + c - 1) / c * c

/-- GATE_LIST_SWITCH (14 R327, R329): a pending list starts; the heads are checked against its windows. -/
def execGateListSwitch (port : Fin 256) (s : State) : Host.Outcome State Fault Refusal :=
  let p := port.val
  let l := s.cfg (SCH_PORT_CFG_GATE_LIST (p / 16) (p % 16))
  match Tbl.get (fun _ => none) s.sch.gatePend p with
  | some t0 =>
    if s.listStart p l t0 ≤ s.tbNs then
      let t := { s with sch := { s.sch with gatePend := Tbl.set (fun _ => none) s.sch.gatePend p none } }
      .next (((t.set (SCH_PORT_STAT_LIST_USED (p / 16) (p % 16)) l).set (SCH_PORT_STAT_LIST_PEND (p / 16) (p % 16)) 0).gateCheckPort p)
    else .next s
  | none => .next s

/-- GATE_WINDOW_EDGE (14 R309, R328): a window opens or closes; at an idle port a frame that becomes eligible makes a selection
instant. -/
def execGateWindowEdge (port : Fin 256) (s : State) : Host.Outcome State Fault Refusal := .next (s.select port.val)

/-! ### Samples (R330) -/

/-- SAMPLE_PERIOD_END (14 R330, R331): the current values become the last period's. -/
def execSamplePeriodEnd (s : State) : Host.Outcome State Fault Refusal :=
  if s.cfg SCH_SMP_CFG_EN = 1 then
    .next ({ s with sch := { s.sch with
      smpLast := s.sch.smp
      smpEnd := s.tbNs
      smp := [] } }.setInt schPage 2)
  else .next s

/-- A write of SCH_SMP_SEL loads the last-period values of the queue. -/
def State.sampleSelect (s : State) (q : Nat) : State :=
  let x : Smp := Tbl.get (fun _ => {}) s.sch.smpLast q
  (((((((s.set SCH_SMP_SEL_QUEUE q).set SCH_SMP_DATA0_MAXDEPTH x.depth).set SCH_SMP_DATA1_MAXSOJ x.soj).set SCH_SMP_DATA2_MAXLAT x.lat).set
    SCH_SMP_DATA3_SUMLAT_LO (x.sum % 2 ^ 32)).set SCH_SMP_DATA4_SUMLAT_HI (x.sum / 2 ^ 32)).set SCH_SMP_DATA5_COUNT x.count)

end Sys2Proof.Machine
end

