-- ==== Sys2Proof/Machine/Parser.lean ====
section
/-! DEFINITION. The parse graph (05): graph memories, node visits, the pattern unit, and the release of parse results. -/

namespace Sys2Proof.Machine

open Reg

/-! ### Graph memories (R96, R117, R118) -/

/-- Key of entry `i` of graph memory `m` of slice `sl`. -/
def gmemKey (sl m i : Nat) : Nat := sl * 16384 + m * 4096 + i

/-- Entries of a graph memory (Table 5.2). -/
def gmemSize (m : Nat) : Nat := [256, 4096, 2048, 64].getD m 0

/-- Words of an entry of a graph memory (Table 5.2). -/
def gmemWords (m : Nat) : Nat := [4, 2, 1, 9].getD m 0

/-- A graph-memory entry for a version slot (R117). -/
def State.gmemV (s : State) (k key : Nat) : Nat :=
  match Tbl.get (fun _ => none) s.gmemSlot (slotKey k key) with
  | some v => v.toNat
  | none => (Tbl.get (fun _ => 0) s.gmem key).toNat

/-! ### The window (R93, R94) -/

/-- The frame data end D, once it is known. -/
def Frame.dataEnd (f : Frame) : Option Nat := if f.ended then some (f.len - 4) else none

/-- A window byte: 0 at or beyond D or 512. -/
def Frame.win (f : Frame) (x : Nat) : Nat :=
  if 512 ≤ x || (match f.dataEnd with | some d => decide (d ≤ x) | none => false) then 0 else byteAt f.bytes x

/-- Two window bytes, the first most significant. -/
def Frame.win16 (f : Frame) (x : Nat) : Nat := f.win x * 256 + f.win (x + 1)

/-- Window bytes below `n` have been written, or the frame has ended (R94). -/
def Frame.has (f : Frame) (n : Nat) : Bool := f.ended || decide (min n 512 ≤ f.len)

/-! ### Node visits (R98–R109) -/

/-- The parse events (Table 5.7), with the mark of a frame with padding. -/
inductive PEvent where
  | depth | short | long | notr | deft | pdeny | pad
  deriving DecidableEq, Repr

/-- How a visit leaves a parse: it goes on, ends, drops the frame, or waits for bytes. -/
inductive PEnd where
  | go
  | fin
  | drop (r : Nat)
  | wait
  deriving DecidableEq, Repr

/-- The outcome of a visit: how it ends, the parse and the events raised. -/
structure PVisit where
  fate : PEnd
  p : Parse
  evs : List PEvent := []
  deriving DecidableEq, Repr

/-- The per-port set of a frame (05: 16 for port 256, 17 for port 257). -/
def prsSet (iport : Nat) : Nat := if iport = 256 then 16 else if iport = 257 then 17 else iport % 16

/-- An event decided by a default action: drop with the code when DA is 0, else the flag is set (R108). -/
def defaultAction (p : Parse) (da code flag : Nat) (e : PEvent) (cont : PEnd) : PVisit :=
  if da = 0 then ⟨.drop code, p, [e]⟩ else ⟨cont, { p with pflags := p.pflags ||| flag }, [e]⟩

/-- Apply one extract entry at cursor `c` with visit number `n` (R103, R104). -/
def extract (f : Frame) (c n w : Nat) (p : Parse) : Parse :=
  let len := if bits w 7 4 = 0 then 16 else bits w 7 4
  let dst := bits w 11 7 + (if bit w 19 then n * len else 0)
  let src := (List.range len).map fun i => BitVec.ofNat 8 (f.win (c + bits w 0 7 + i))
  if bit w 18 then { p with deep := patchBytes p.deep dst src } else { p with key := patchBytes p.key dst src }

/-- Last window byte that an extract entry reads, plus one. -/
def extractEnd (c w : Nat) : Nat := c + bits w 0 7 + (if bits w 7 4 = 0 then 16 else bits w 7 4)

/-- The end of a visit after the layer's length check: transitions (R98, R100, R101). -/
def State.transit (s : State) (f : Frame) (p : Parse) (w2 w3 a : Nat) (bad : Bool) (evs : List PEvent) : PVisit :=
  let k := f.vslot
  let tcnt := min 16 (bits w3 0 5)
  if tcnt = 0 && !bad then ⟨.fin, p, evs⟩
  else
    let kw := min 16 (bits w2 10 5)
    let key := (f.win16 (p.c + bits w2 0 6) >>> bits w2 6 4) % 2 ^ kw
    let ts := (List.range tcnt).map fun i => s.gmemV k (gmemKey f.slice 1 ((bits w2 16 12 + i) % 4096))
    let hit := ts.find? fun t => bit t 40 && (key &&& bits t 16 16) == (bits t 0 16 &&& bits t 16 16)
    let da := s.cfgV k (PRS_PORT_CFG_DA_NOTR f.slice (prsSet f.iport))
    match (if bad then none else hit) with
    | none =>
      let r := defaultAction p da 0x05 2 .notr .fin
      { r with evs := evs ++ r.evs }
    | some t => ⟨.go, { p with
        c := p.c + a
        node := bits t 32 8 }, evs⟩

/-- One node visit (R98): nothing is done while a byte it needs has not come (R94). -/
def State.visit (s : State) (f : Frame) (p : Parse) (bad : Bool) : PVisit :=
  let k := f.vslot
  let sl := f.slice
  let set := prsSet f.iport
  let da (x : Fld) : Nat := s.cfgV k x
  if p.node = 0xFF then ⟨.fin, p, []⟩
  else if p.node = 0xFE then defaultAction p (da (PRS_PORT_CFG_DA_DEFT sl set)) 0x0D 32 .deft .fin
  else
    let e := s.gmemV k (gmemKey sl 0 p.node)
    let w0 := bits e 0 32
    let w1 := bits e 32 32
    let w2 := bits e 64 32
    let w3 := bits e 96 32
    let maxl := let m := s.cfgV k (PRS_LIMITS_MAXL sl); if m = 0 || 24 < m then 24 else m
    let maxb := min 512 (max 64 (s.cfgV k (PRS_LIMITS_MAXB sl)))
    let lt := bits w0 0 6
    let steps := p.steps + 1
    let depth : PVisit :=
      let p := { p with
        steps := steps
        pflags := p.pflags ||| 1 }
      if bit w0 6 && da (PRS_PORT_CFG_DA_DEPTH sl set) = 0 then ⟨.drop 0x02, p, [.depth]⟩ else ⟨.fin, p, [.depth]⟩
    if 32 < steps then depth
    else if bits w1 10 8 ≠ 0 && !f.has (p.c + bits w1 0 6 + 2) then ⟨.wait, p, []⟩
    else
      let a := ((f.win16 (p.c + bits w1 0 6) >>> bits w1 6 4) &&& bits w1 10 8) * 2 ^ bits w1 18 2 + bits w1 20 8
      if maxb < p.c + a || (lt ≠ 0 && p.layers.length = maxl) then depth
      else if !f.has (p.c + a) then ⟨.wait, p, []⟩
      else if (match f.dataEnd with | some d => decide (d < p.c + a) | none => false) then
        defaultAction { p with steps := steps } (da (PRS_PORT_CFG_DA_SHORT sl set)) 0x03 4 .short .fin
      else
        let xs := (List.range (bits w3 19 3)).map fun i => s.gmemV k (gmemKey sl 2 ((bits w3 8 11 + i) % 2048))
        let lchk := bit w0 7
        let needKey := decide (0 < min 16 (bits w3 0 5)) && decide (0 < bits w2 10 5)
        if !(xs.all fun x => f.has (extractEnd p.c x)) || (lchk && !f.has (p.c + bits w3 22 6 + 2)) ||
            (needKey && !f.has (p.c + bits w2 0 6 + 2)) then ⟨.wait, p, []⟩
        else
          let n := (p.visits.filter fun x => x == p.node).length
          let p := { p with
            steps := steps
            visits := p.visits ++ [p.node]
            layers := if lt = 0 then p.layers else p.layers ++ [(lt, p.c, a)]
            pflags := p.pflags ||| (bits w0 16 8 * 256) ||| (if bit w0 8 then 64 else 0) }
          let p := xs.foldl (fun p x => extract f p.c n x p) p
          if !lchk then s.transit f p w2 w3 a bad []
          else
            let e := p.c + f.win16 (p.c + bits w3 22 6) + bits w0 24 6
            match f.dataEnd with
            | none => s.transit f { p with pflags := p.pflags ||| 128 } w2 w3 a bad []
            | some d =>
              if e = d then s.transit f p w2 w3 a bad []
              else if d < e then
                (if da (PRS_PORT_CFG_DA_SHORT sl set) = 0 then ⟨.drop 0x03, p, [.short]⟩
                 else s.transit f { p with pflags := p.pflags ||| 4 } w2 w3 a bad [.short])
              else if f.len ≤ 64 then s.transit f { p with pflags := p.pflags ||| 16 } w2 w3 a bad [.pad]
              else if da (PRS_PORT_CFG_DA_LONG sl set) = 0 then ⟨.drop 0x04, p, [.long]⟩
              else s.transit f { p with pflags := p.pflags ||| 8 } w2 w3 a bad [.long]

/-- Visits until the parse ends, drops or waits; `n` bounds them (the step limit of 32 ends every walk). -/
def State.walk (s : State) (f : Frame) (p : Parse) (bad : Bool) (evs : List PEvent) : Nat → PVisit
  | 0 => ⟨.fin, p, evs⟩
  | n + 1 =>
    let r := s.visit f p bad
    match r.fate with
    | .go => s.walk f r.p false (evs ++ r.evs) n
    | _ => { r with evs := evs ++ r.evs }

/-! ### The pattern unit (R110–R114) -/

/-- Pattern `e` matches at window offset `x` of a window of `w` bytes from `p0` (R112). -/
def patAt (f : Frame) (p0 w e x : Nat) : Bool :=
  let len := min 16 (bits e 256 5)
  decide (x + len ≤ w) &&
    (List.range len).all fun b => (f.win (p0 + x + b) &&& bits e (128 + 8 * b) 8) == (bits e (8 * b) 8 &&& bits e (128 + 8 * b) 8)

/-- A pattern entry matches in the window (R111, R112). -/
def patHit (f : Frame) (p0 w e : Nat) : Bool :=
  if bits e 256 5 = 0 then false
  else if bit e 261 then (List.range (w + 1)).any fun x => patAt f p0 w e x
  else patAt f p0 w e (bits e 262 8)

/-- The pattern unit on a parse that ended (R110): PHITS, a drop, or a wait. -/
def State.patterns (s : State) (f : Frame) (p : Parse) : PVisit :=
  let k := f.vslot
  let sl := f.slice
  if s.cfgV k (PRS_PORT_CFG_PAT_EN sl (prsSet f.iport)) = 0 then ⟨.fin, p, []⟩
  else
    let p0 := match p.layers.getLast? with
      | some x => x.2.1 + x.2.2
      | none => 0
    let lim := min (min 256 (s.cfgV k (PRS_PAT_CFG_PAT_WIN sl))) (512 - p0)
    if !f.has (p0 + lim) then ⟨.wait, p, []⟩
    else
      let w := match f.dataEnd with
        | some d => min lim (d - p0)
        | none => lim
      let es := (List.range 64).map fun i => s.gmemV k (gmemKey sl 3 i)
      let hits := es.map fun e => patHit f p0 w e
      let v := (hits.zipIdx.map fun x => if x.1 then 2 ^ x.2 else 0).sum
      if (es.zip hits).any fun x => x.2 && bit x.1 270 then ⟨.drop 0x18, p, [.pdeny]⟩
      else ⟨.fin, { p with phits := BitVec.ofNat 64 v }, []⟩

/-! ### Engines (R95, R115, R116, 06 R123, R125, R131) -/

/-- The engines' frames of a slice, in head-queue order. -/
def State.engines (s : State) (sl : Nat) : List Nat := Tbl.get (fun _ => []) s.prs.eng sl

/-- Replace the engines' frames of a slice. -/
def State.setEngines (s : State) (sl : Nat) (l : List Nat) : State := { s with prs := { s.prs with eng := Tbl.set (fun _ => []) s.prs.eng sl l } }

/-- The parse of a frame. -/
def State.parseOf (s : State) (id : Nat) : Option Parse := Tbl.get (fun _ => none) s.prs.res id

/-- Set or forget the parse of a frame. -/
def State.setParse (s : State) (id : Nat) (p : Option Parse) : State := { s with prs := { s.prs with res := Tbl.set (fun _ => none) s.prs.res id p } }

/-- Count a parse event (R108). -/
def State.countEvent (s : State) (sl : Nat) (e : PEvent) : State :=
  s.count (match e with
    | .depth => PRS_CNT_DEPTH_DEPTH sl
    | .short => PRS_CNT_SHORT_SHORT sl
    | .long => PRS_CNT_LONG_LONG sl
    | .notr => PRS_CNT_NOTR_NOTR sl
    | .deft => PRS_CNT_DEFT_DEFT sl
    | .pdeny => PRS_CNT_PDENY_PDENY sl
    | .pad => PRS_CNT_PAD_PAD sl) (prsPage sl) 2

/-- Count the events of a visit; a frame with padding counts once. -/
def State.countEvents (s : State) (sl : Nat) (pad : Bool) (l : List PEvent) : State :=
  let n := l.filter fun e => e != .pad
  let s := forEach n (fun e s => s.countEvent sl e) s
  if l.contains .pad && !pad then s.countEvent sl .pad else s

/-- A parse goes on with the bytes that have come: it ends with results (stage `.parsed`), drops the frame (its ticket is done at once
with REASON, 06 R125), or waits. -/
def State.runParse (s : State) (id : Nat) (p : Parse) (bad : Bool) : State :=
  let f := s.frame id
  let sl := f.slice
  let w := s.walk f p bad [] 40
  let r := match w.fate with
    | .fin => (let q : PVisit := s.patterns f w.p
               if q.fate = PEnd.wait then { q with
                 p := { w.p with node := 0xFF }
                 evs := w.evs } else { q with evs := w.evs ++ q.evs })
    | _ => w
  let s := s.countEvents sl (bit p.pflags 4) r.evs
  match r.fate with
  | .drop c =>
    let s := s.modFrame id fun f => { f with
      reason := c
      stage := .ordered }
    ((s.setEngines sl ((s.engines sl).filter fun i => i != id)).setParse id none).ticketDone (ing sl) id
  | .wait => s.setParse id (some r.p)
  | _ => (s.setParse id (some r.p)).modFrame id fun f => { f with
      pflags := r.p.pflags
      phits := r.p.phits
      stage := .parsed }

/-- The memory errors met by a parse command (R96): counters and raises; whether the first visit meets a no-transition event. -/
def State.parseErr (s : State) (sl : Nat) (err : PErr) : Bool × State :=
  match err with
  | .good => (false, s)
  | .corrected => (false, s.count (PRS_CNT_ECC_COR_ECC_COR sl) (prsPage sl) 2)
  | .graph => (true, s.raise (prsPage sl) 0)
  | .engine => (true, s.raise (prsPage sl) 1)

/-- PARSE_FRAME (05 R98, R115, 06 R123, R131, 17 R380): an engine takes the head of the head queue, which draws its ticket; a frame that
bypasses the parser is done at once. -/
def execParseFrame (slice : Fin 16) (err : PErr) (s : State) : Host.Outcome State Fault Refusal :=
  let sl := slice.val
  match s.headQ sl with
  | [] => .next s
  | id :: r =>
    let f := s.frame id
    if s.cfgV f.vslot (ctlEn (prsPage sl)) ≠ 1 || s.stageFull (ing sl) || decide (16 ≤ (s.engines sl).length) then .next s
    else
      let d := (s.setHeadQ sl r).draw (ing sl) f.iport id
      let s := d.2.modFrame id fun f => { f with
        otkt := d.1
        stage := .parsing }
      if f.bypass then
        .next ((s.modFrame id fun f => { f with
          stage := .ordered
          pflags := 0
          intent := List.replicate 64 0 }).ticketDone (ing sl) id)
      else
        let e := s.parseErr sl err
        let s := e.2.setEngines sl (s.engines sl ++ [id])
        let p : Parse := { node := s.cfgV f.vslot (PRS_PORT_CFG_START sl (prsSet f.iport)), key := List.replicate 128 0, deep := List.replicate 64 0 }
        .next (s.runParse id p e.1)

/-- PARSE_RESUME (05 R94): a waiting parse goes on when bytes have come or the frame has ended. -/
def execParseResume (f : Nat) (err : PErr) (s : State) : Host.Outcome State Fault Refusal :=
  match s.parseOf f with
  | some p =>
    if (s.frame f).stage = .parsing then
      let e := s.parseErr (s.frame f).slice err
      .next (e.2.runParse f p e.1)
    else .next s
  | none => .next s

/-- PARSE_RESULT_RELEASE (05 R95, R116, 06 R125): the results of the first frame in head-queue order go to the ingress dispatch queue. -/
def execParseResultRelease (slice : Fin 16) (s : State) : Host.Outcome State Fault Refusal :=
  let sl := slice.val
  match s.engines sl with
  | [] => .next s
  | id :: r =>
    if (s.frame id).stage = .parsed then
      let s := (s.setEngines sl r).modFrame id fun f => { f with stage := .dispatch }
      .next (s.setDisp (ing sl) (s.dispQ (ing sl) ++ [id]))
    else .next s

/-! ### Graph-memory commands (R118) -/

/-- Set a bit of PRS_GMEM_STAT with its interrupt. -/
def State.gmemFlag (s : State) (sl b : Nat) : State :=
  (s.set (if b = 0 then PRS_GMEM_STAT_ORPHAN sl else PRS_GMEM_STAT_RANGE sl) 1).setInt (prsPage sl) b

/-- The initiator that holds a graph-memory entry staged. -/
def State.gmemStagedBy (s : State) (key : Nat) : Option Nat := initiators.find? fun j => (s.txn j).gmem.any fun p => p.1 == key

/-- A graph-memory entry staged for the slices `sls` in the open transaction of initiator `i` (R118, 02 R42, 11 R254). -/
def State.stageGmem (s : State) (i : Nat) (sls : List Nat) (m idx : Nat) (v : BitVec 288) : State :=
  if s.txnState i ≠ .opened then s
  else if s.cascadeRefuses i || sls.any (fun t => match s.gmemStagedBy (gmemKey t m idx) with | some j => j != i | none => false) then s.doom i .conflict
  else s.setTxn i { s.txn i with gmem := sls.foldl (fun t x => Tbl.set (fun _ => none) t (gmemKey x m idx) (some v)) (s.txn i).gmem }

/-- The graph-memory WRITE command of initiator `i` (R118, 02 R42, 11 R254). -/
def State.gmemWrite (s : State) (i sl : Nat) : State :=
  let idx := s.get (PRS_GMEM_ADDR_INDEX sl)
  let m := s.get (PRS_GMEM_ADDR_MEM sl)
  let v : BitVec 288 := BitVec.ofNat 288 (((List.range (gmemWords m)).map fun n => (s.rd (PRS_GMEM_DATA sl n)).toNat * 2 ^ (32 * n)).sum)
  let sls := if s.get (PRS_GMEM_ADDR_BCAST sl) = 1 then List.range 16 else [sl]
  if gmemSize m ≤ idx then s.gmemFlag sl 1
  else if s.txnState i = .idle then s.gmemFlag sl 0
  else s.stageGmem i sls m idx v

/-- The graph-memory READ command of initiator `i` (R118, 02 R43). -/
def State.gmemRead (s : State) (i sl : Nat) : State :=
  let idx := s.get (PRS_GMEM_ADDR_INDEX sl)
  let m := s.get (PRS_GMEM_ADDR_MEM sl)
  let key := gmemKey sl m idx
  if gmemSize m ≤ idx then s.gmemFlag sl 1
  else
    let own := if s.get (LDG_TXN_CTL_READ_STAGED i) = 1 then Tbl.get (fun _ => none) (s.txn i).gmem key else none
    let v := (own.getD (Tbl.get (fun _ => 0) s.gmem key)).toNat
    forEach (List.range (gmemWords m)) (fun n s => s.wr (PRS_GMEM_DATA sl n) (BitVec.ofNat 32 (bits v (32 * n) 32))) s

end Sys2Proof.Machine
end

