-- ==== Sys2Proof/Machine/Hbm.lean ====
section
/-! DEFINITION. The HBM stacks and their controllers (13): the address map, arbitration and page policy, refresh and
power-down, self-refresh, training and test, errors, scrubbing and recovery. -/

namespace Sys2Proof.Machine

open Reg

/-- The page of stack `h` (13 HBC register map). -/
def hbcPage (h : Nat) : Nat := 0xC0000 + 0x1000 * h

/-! ### Addresses (R286, R288) -/

/-- First address beyond the HBM address space (R286). -/
def hbmEnd : Nat := 0x2400000000

/-- First address beyond the packet spill region (R286, Table 13.2). -/
def hbmSpillEnd : Nat := 0x2000000000

/-- First address of the capture area (Table 13.2, R287): CAP_U × 64 MiB below the end. -/
def State.capBase (s : State) : Nat := hbmEnd - s.cfg HBC_REGION_CFG_CAP_U * 0x4000000

/-- First address of the counter dump area (Table 13.2, R287). -/
def State.dumpBase (s : State) : Nat := s.capBase - s.cfg HBC_REGION_CFG_STAT_U * 0x4000000

/-- Stack of an address (R288). -/
def hbmStack (a : Nat) : Nat := a / 256 % 6

/-- Pseudo-channel of an address in its stack (R288). -/
def hbmPc (a : Nat) : Nat := a / 256 / 6 % 64

/-- Bank of an address in its pseudo-channel (R288). -/
def hbmBank (a : Nat) : Nat := a / 256 / 6 / 64 % 48

/-- Row of an address in its bank (R288). -/
def hbmRow (a : Nat) : Nat := a / 256 / 6 / 64 / 48 / 4

/-- Column of an address: the line's place in the 1 KiB row (R288). -/
def hbmCol (a : Nat) : Nat := a / 256 / 6 / 64 / 48 % 4

/-- The byte of HBM at an address; a byte that nothing has written reads 0, as INIT leaves it (R296, log 3). -/
def State.hbmByte (s : State) (a : Nat) : Byte := Tbl.get (fun _ => 0) s.hbm a

/-- Store bytes in HBM from an address on. -/
def State.hbmStore (s : State) (a : Nat) (b : List Byte) : State := { s with hbm := Tbl.setMany (fun _ => 0) s.hbm a b }

/-- The content of stack `h` is lost: every line reads zero (R296). -/
def State.hbmErase (s : State) (h : Nat) : State := { s with hbm := s.hbm.filter fun p => hbmStack p.1 != h }

/-! ### The parts of a stack -/

/-- Pseudo-channel `p` of stack `h`. -/
def State.hpc (s : State) (h p : Nat) : HbmPc := Tbl.get (fun _ => {}) s.hbc.pc (64 * h + p)

/-- Replace a pseudo-channel. -/
def State.setHpc (s : State) (h p : Nat) (x : HbmPc) : State :=
  { s with hbc := { s.hbc with pc := Tbl.set (fun _ => {}) s.hbc.pc (64 * h + p) x } }

/-- Bank `b` of a pseudo-channel. -/
def State.hbank (s : State) (h p b : Nat) : HbmBank := Tbl.get (fun _ => {}) s.hbc.bank (48 * (64 * h + p) + b)

/-- Replace a bank's page-policy state. -/
def State.setHbank (s : State) (h p b : Nat) (x : HbmBank) : State :=
  { s with hbc := { s.hbc with bank := Tbl.set (fun _ => {}) s.hbc.bank (48 * (64 * h + p) + b) x } }

/-- The requests that wait at stack `h`, oldest first. -/
def State.hq (s : State) (h : Nat) : List HReq := Tbl.get (fun _ => []) s.hbc.q h

/-- Replace the waiting requests of stack `h`. -/
def State.setHq (s : State) (h : Nat) (q : List HReq) : State :=
  { s with hbc := { s.hbc with q := Tbl.set (fun _ => []) s.hbc.q h q } }

/-- A request waits for pseudo-channel `p` of stack `h`. -/
def State.hqueued (s : State) (h p : Nat) : Bool := (s.hq h).any fun r => hbmPc r.addr == p

/-- The state of stack `h` (13 HBC_STAT.STATE). -/
def State.hState (s : State) (h : Nat) : Nat := s.get (HBC_STAT_STATE h)

/-- A stack is available only in READY and RECOVERING with its page's CTL.EN live at 1 (R300). -/
def State.hAvail (s : State) (h : Nat) : Bool :=
  (s.hState h == 3 || s.hState h == 6) && s.cfg (ctlEn (hbcPage h)) == 1

/-- Enter a state: the predicted page policy is in force in INIT, TESTING and RECOVERING, with counters and open bits 0 at its
start, and every open row is closed when it ends (R290, R291). -/
def State.setHState (s : State) (h st : Nat) : State :=
  let s := { s with hbc := { s.hbc with bank := s.hbc.bank.filter fun (k, _) => k / 3072 != h } }
  (s.set (HBC_STAT_STATE h) st).set (HBC_STAT_PREDICT h) (b2n (st == 2 || st == 4 || st == 6))

/-- Count lines in a 64-bit class counter; reaching the maximum sets INT_STAT bit 4 (R304). -/
def State.hCount64 (s : State) (h lo hi : Nat) : State :=
  let full (s : State) := (s.rd lo).toNat == 2 ^ 32 - 1 && (s.rd hi).toNat == 2 ^ 32 - 1
  let t := s.inc64 lo hi
  if full t && !full s then t.setInt (hbcPage h) 4 else t

/-! ### Failed pseudo-channels (R299) -/

/-- Pseudo-channel `p` of stack `h` is failed (13 HBC_PC_FAIL). -/
def State.pcFailed (s : State) (h p : Nat) : Bool :=
  if p < 32 then bit (s.get (HBC_PC_FAIL_LO_FAIL h)) p else bit (s.get (HBC_PC_FAIL_HI_FAIL h)) (p - 32)

/-- Spill blocks that hold a line of a failed pseudo-channel (R286, R288, R299): block `b` holds lines 16 b to 16 b + 15, and the
stack and pseudo-channel of a line repeat every 384 lines, so every 24 blocks. -/
def State.failedBlocks (s : State) : Nat :=
  ((List.range 24).map fun t =>
    if (List.range 16).any fun i => s.pcFailed (hbmStack (4096 * t + 256 * i)) (hbmPc (4096 * t + 256 * i)) then
      (if t < 8 then 1398102 else 1398101) else 0).sum

/-- Change the failed pseudo-channels: BUF_SPILL_STAT.FREE_BLK follows the number of spill blocks that may not be allocated. -/
def State.withFailed (s : State) (f : State → State) : State :=
  let t := f s
  (t.set BUF_SPILL_STAT_FREE_BLK (t.get BUF_SPILL_STAT_FREE_BLK + s.failedBlocks - t.failedBlocks))

/-- Mark a pseudo-channel failed (R299): its bit, PC_FAILED, INT_STAT bit 1 and source 1. -/
def State.markPc (s : State) (h p : Nat) : State :=
  if s.pcFailed h p then s
  else
    let s := s.withFailed fun s =>
      if p < 32 then s.set ⟨(HBC_PC_FAIL_LO_FAIL h).addr, p, 1⟩ 1 else s.set ⟨(HBC_PC_FAIL_HI_FAIL h).addr, p - 32, 1⟩ 1
    ((s.inc (HBC_STAT_PC_FAILED h)).setInt (hbcPage h) 1).raise (hbcPage h) 1 (detail := p)

/-- Mark every pseudo-channel of a mask failed. -/
def State.markPcs (s : State) (h : Nat) (m : BitVec 64) : State :=
  forEach (List.range 64) (fun p s => if m.getLsbD p then s.markPc h p else s) s

/-! ### Reads, writes and errors (R298) -/

/-- A corrected read (R298). -/
def State.hCor (s : State) (h : Nat) : State := s.count (HBC_ECC_COR_ECC_COR h) (hbcPage h) 4

/-- An uncorrectable read (R298, R299, R304): counted, captured, source 0 and INT_STAT bit 3; the 64th of a pseudo-channel within
1 s marks it failed. -/
def State.hUncor (s : State) (h a : Nat) : State :=
  let s := s.count (HBC_ECC_UNCOR_ECC_UNCOR h) (hbcPage h) 4
  let s := (s.set (HBC_ERR_ADDR_LO_ERR_ADDR_LO h) (a % 2 ^ 32)).set (HBC_ERR_ADDR_HI_ERR_ADDR_HI h) (a / 2 ^ 32)
  let s := (s.raise (hbcPage h) 0 (addr := a)).setInt (hbcPage h) 3
  let x := s.hpc h (hbmPc a)
  let errs := (x.errs.filter fun t => decide (s.now - t < 1000000000)) ++ [s.now]
  let s := s.setHpc h (hbmPc a) { x with errs := errs }
  if 64 ≤ errs.length then s.markPc h (hbmPc a) else s

/-- The outcome of a read of address `a` (R298, R299): entries of the table extension on a failed pseudo-channel are handled as
uncorrectable reads. -/
def State.hRead (s : State) (h a : Nat) (ext : Bool) (ecc : Ecc) : State :=
  if ecc = .uncorrectable || (ext && s.pcFailed h (hbmPc a)) then s.hUncor h a
  else if ecc = .corrected then s.hCor h else s

/-- The page policy of R291 for an access to its row, given whether a queued request for the bank targets it. -/
def HbmBank.access (b : HbmBank) (row : Nat) (queued : Bool) : HbmBank :=
  let ctr := if b.opn && b.row == row then min 3 (b.ctr + 1) else if b.opn then b.ctr - 1 else b.ctr
  { ctr := ctr, opn := queued || decide (2 ≤ ctr), row := row }

/-- Carry out one line access of stack `h` whose other waiting requests are `rest` (R290, R291, R298, R302): the class counter, the
page policy, the end of power-down (R294), parity errors and the read or write. -/
def State.hServe (s : State) (h : Nat) (r : HReq) (rest : List HReq) : State :=
  let p := hbmPc r.addr
  let b := hbmBank r.addr
  let row := hbmRow r.addr
  let s := match r.cls with
    | .p => s.hCount64 h (HBC_P_LO_P_LO h).addr (HBC_P_HI_P_HI h).addr
    | .x => s.hCount64 h (HBC_X_LO_X_LO h).addr (HBC_X_HI_X_HI h).addr
    | .c => s.hCount64 h (HBC_C_LO_C_LO h).addr (HBC_C_HI_C_HI h).addr
    | .d => s.hCount64 h (HBC_D_LO_D_LO h).addr (HBC_D_HI_D_HI h).addr
  let queued := rest.any fun q => hbmPc q.addr == p && hbmBank q.addr == b && hbmRow q.addr == row
  let s := if s.get (HBC_STAT_PREDICT h) = 1 then s.setHbank h p b ((s.hbank h p b).access row queued) else s
  let s := s.setHpc h p { s.hpc h p with
    pd := false
    last := s.now }
  let s := if r.parity ≠ 0 then s.raise (hbcPage h) 3 (addr := r.addr) else s
  if 2 ≤ r.parity then s.hUncor h r.addr
  else match r.write with
    | some d => s.hbmStore r.addr (d.take (256 - r.addr % 256))
    | none => s.hRead h r.addr (r.cls == .x) r.ecc

/-- Key of a class's line count in the window. -/
def servedKey (h : Nat) (cl : HClass) : Nat := 4 * h + (match cl with | .p => 0 | .x => 1 | .c => 2 | .d => 3)

/-- Lines served to a class in the window: gx, gc, gd of R302. -/
def State.hServed (s : State) (h : Nat) (cl : HClass) : Nat := Tbl.get (fun _ => 0) s.hbc.served (servedKey h cl)

/-- The class that is served next (R302): the first of the six that has a request ready. -/
def State.hPick (s : State) (h : Nat) (q : List HReq) : Option HClass :=
  let ready (cl : HClass) := q.any fun r => r.cls == cl
  if ready .x && decide (s.hServed h .x < s.cfg (HBC_ARB_X_RES h)) then some .x
  else if ready .c && decide (s.hServed h .c < s.cfg (HBC_ARB_C_RES h)) then some .c
  else if ready .d && decide (s.hServed h .d < s.cfg (HBC_ARB_D_MAX h)) then some .d
  else if ready .p then some .p
  else if ready .x then some .x
  else if ready .c then some .c
  else none

/-- HBM_ACCESS (R289, R298, R300, R302): requests for lines of stack `h` arrive and are accepted while the stack is available; then
the oldest request of the chosen class is served. -/
def execHbmAccess (h : Fin 6) (arrivals : List HReq) (s : State) : Host.Outcome State Fault Refusal :=
  let new := if s.hAvail h then arrivals.filter fun r => hbmStack r.addr == h.val && decide (r.addr < hbmEnd) else []
  let q := s.hq h ++ new
  match s.hPick h q with
  | none => .next (s.setHq h q)
  | some cl => match q.find? fun r => r.cls == cl with
    | none => .next (s.setHq h q)
    | some r =>
      let rest := q.erase r
      let s := (s.setHq h rest).hServe h r rest
      .next { s with hbc := { s.hbc with served := Tbl.set (fun _ => 0) s.hbc.served (servedKey h cl) (s.hServed h cl + 1) } }

/-- HBM_ARB_WINDOW (R302): the counters of the window clear at each whole microsecond. -/
def execHbmArbWindow (s : State) : Host.Outcome State Fault Refusal := .next { s with hbc := { s.hbc with served := [] } }

/-- PAGE_IDLE_CLOSE (R291): a row kept open closes after 64 cycles with no request to its bank. -/
def execPageIdleClose (h : Fin 6) (pc : Fin 64) (bank : Fin 48) (s : State) : Host.Outcome State Fault Refusal :=
  if (s.hq h).any fun r => hbmPc r.addr == pc.val && hbmBank r.addr == bank.val then .next s
  else .next (s.setHbank h pc bank { s.hbank h pc bank with opn := false })

/-! ### Refresh and power-down (R292–R294, R297) -/

/-- POSTPONE as it acts: 0 as 1, 9–15 as 8. -/
def State.postpone (s : State) (h : Nat) : Nat := min 8 (max 1 (s.cfg (HBC_CFG_POSTPONE h)))

/-- The controller refreshes the stack itself: not while untrained, training, failed or in self-refresh (DEDUCED from R293, R295). -/
def State.hRefreshes (s : State) (h : Nat) : Bool := s.hState h == 2 || s.hState h == 3 || s.hState h == 4 || s.hState h == 6

/-- Largest debt of a stack's pseudo-channels: HBC_REF_STAT.DEBT_MAX. -/
def State.debtMax (s : State) (h : Nat) : Nat := (List.range 64).foldl (fun m p => max m (s.hpc h p).debt) 0

/-- REFRESH_TICK (R293, R294): the debt rises, or a forced refresh is issued, which ends power-down. -/
def execRefreshTick (h : Fin 6) (pc : Fin 64) (s : State) : Host.Outcome State Fault Refusal :=
  if !s.hRefreshes h then .next s
  else
    let x := s.hpc h pc
    if x.debt < s.postpone h then .next (s.setHpc h pc { x with debt := x.debt + 1 })
    else
      let s := s.setHpc h pc { x with
        pd := false
        last := s.now }
      .next (s.count (HBC_REF_STAT_FORCED h) (hbcPage h) 4)

/-- MAKEUP_REFRESH (R293, R297): an idle pseudo-channel that is not in power-down repays one refresh; a deferred re-centring of its
eyes takes place in it. -/
def execMakeupRefresh (h : Fin 6) (pc : Fin 64) (s : State) : Host.Outcome State Fault Refusal :=
  let x := s.hpc h pc
  if !s.hRefreshes h || s.hqueued h pc || x.pd || x.debt = 0 then .next s
  else .next (s.setHpc h pc { x with
    debt := x.debt - 1
    recentre := false
    last := s.now })

/-- POWER_DOWN_ENTRY (R294): PD_TIMER × 10 ns after the last access or refresh, with no request queued. -/
def execPowerDownEntry (h : Fin 6) (pc : Fin 64) (s : State) : Host.Outcome State Fault Refusal :=
  let x := s.hpc h pc
  if s.cfg (HBC_CFG_PD_EN h) = 1 && s.hRefreshes h && !s.hqueued h pc &&
      decide (max 1 (s.cfg (HBC_CFG_PD_TIMER h)) * 10 ≤ s.now - x.last) then
    .next (s.setHpc h pc { x with pd := true })
  else .next s

/-- EYE_RECENTRE (R297): every 100 ms in READY, each pseudo-channel's next make-up refresh re-centres its eyes. -/
def execEyeRecentre (h : Fin 6) (s : State) : Host.Outcome State Fault Refusal :=
  if s.hState h = 3 && s.elapsedUs (Tbl.get (fun _ => 0) s.hbc.eyeAt h) 100000 then
    let s := { s with hbc := { s.hbc with eyeAt := Tbl.set (fun _ => 0) s.hbc.eyeAt h s.now } }
    .next (forEach (List.range 64) (fun p s => s.setHpc h p { s.hpc h p with recentre := true }) s)
  else .next s

/-- HBM_TEMP_READ (R292, R304): the temperature of the stack's case, its peak, the refresh interval, and at 95 °C or above
INT_STAT bit 2 and source 2. -/
def execHbmTempRead (h : Fin 6) (t : BitVec 8) (s : State) : Host.Outcome State Fault Refusal :=
  let s := s.set (HBC_TEMP_TEMP h) t.toNat
  let s := s.set (HBC_TEMP_PEAK h) (max (s.get (HBC_TEMP_PEAK h)) t.toNat)
  let s := s.set (HBC_TEMP_HOT h) (b2n (decide (85 < t.toNat)))
  if 95 ≤ t.toNat then .next ((s.setInt (hbcPage h) 2).raise (hbcPage h) 2) else .next s

/-! ### Self-refresh (R295) -/

/-- A cause of self-refresh holds for stack `h` (R295): SREF_ENTER, safe state or the island-only state. -/
def State.srefCause (s : State) (h : Nat) : Bool := Tbl.get (fun _ => false) s.hbc.cmdRef h || s.safe || s.aon.only

/-- A stack goes into self-refresh (R295): the accesses in progress complete and every debt is repaid. -/
def State.srefGo (s : State) (h : Nat) : State :=
  let q := s.hq h
  let s := (s.setHq h []).setHState h 5
  let s := forEach q (fun r s => s.hServe h r []) s
  forEach (List.range 64) (fun p s => s.setHpc h p { s.hpc h p with
    debt := 0
    pd := false }) s

/-- Safe state or the island-only state begins (R295): every stack in READY or RECOVERING goes into self-refresh. -/
def State.srefAll (s : State) : State :=
  forEach (List.range 6) (fun h s => if s.hState h = 3 || s.hState h = 6 then s.srefGo h else s) s

/-- A cause has ended (R295, R301): a stack in self-refresh with no cause left goes through RECOVERING, after the retrain where a
block reset owes one. -/
def State.srefLeave (s : State) (h : Nat) : State :=
  if s.hState h = 5 && !s.srefCause h && !(Tbl.get (fun _ => false) s.hbc.retrain h) then s.setHState h 6 else s

/-- Every stack may leave self-refresh. -/
def State.srefLeaveAll (s : State) : State := forEach (List.range 6) (fun h s => s.srefLeave h) s

/-- A command of HBC_CMD is refused: CMD_ERR (R295–R297). -/
def State.hRefuse (s : State) (h : Nat) : State := s.set (HBC_STAT_CMD_ERR h) 1

/-- SREF_ENTER (R295): accepted in READY and RECOVERING. -/
def State.srefEnter (s : State) (h : Nat) : State :=
  if s.hState h = 3 || s.hState h = 6 then
    let s := { s with hbc := { s.hbc with cmdRef := Tbl.set (fun _ => false) s.hbc.cmdRef h true } }
    (((s.srefGo h).set (HBC_STAT_CMD_ERR h) 0).setInt (hbcPage h) 0)
  else (s.hRefuse h)

/-- SREF_EXIT (R295): accepted in SELF_REFRESH; ends only the cause that SREF_ENTER made. -/
def State.srefExit (s : State) (h : Nat) : State :=
  if s.hState h = 5 then
    let s := { s with hbc := { s.hbc with cmdRef := Tbl.set (fun _ => false) s.hbc.cmdRef h false } }
    (((s.srefLeave h).set (HBC_STAT_CMD_ERR h) 0).setInt (hbcPage h) 0)
  else (s.hRefuse h)

/-! ### Training, initialisation and test (R296, R297) -/

/-- HBC_TRAIN (R296): accepted in UNTRAINED or FAILED, and in READY while CTL.EN is live at 0; clears HBC_PC_FAIL; the content
of the stack is lost. -/
def State.hbcTrain (s : State) (h : Nat) : State :=
  let st := s.hState h
  if st = 0 || st = 7 || (st = 3 && s.cfg (ctlEn (hbcPage h)) == 0) then
    let s := s.withFailed fun s => ((s.set (HBC_PC_FAIL_LO_FAIL h) 0).set (HBC_PC_FAIL_HI_FAIL h) 0).set (HBC_STAT_PC_FAILED h) 0
    ((((s.hbmErase h).setHq h []).setHState h 1).set (HBC_STAT_CMD_ERR h) 0)
  else (s.hRefuse h)

/-- HBC_TEST (R297): accepted only in READY with CTL.EN live at 0; the content of the stack is lost. -/
def State.hbcTest (s : State) (h : Nat) : State :=
  if s.hState h = 3 && s.cfg (ctlEn (hbcPage h)) == 0 then
    ((((s.hbmErase h).setHq h []).setHState h 4).set (HBC_STAT_CMD_ERR h) 0)
  else (s.hRefuse h)

/-- TRAIN_DONE (R296): lanes repaired and pseudo-channels that could not be; INIT follows, or FAILED when none is usable. -/
def execTrainDone (h : Fin 6) (lanes : BitVec 8) (failed : BitVec 64) (s : State) : Host.Outcome State Fault Refusal :=
  if s.hState h ≠ 1 then .next s
  else
    let s := (s.set (HBC_LANES_LANES h) lanes.toNat).markPcs h failed
    if failed = BitVec.allOnes 64 then
      .next (((s.setHState h 7).set (HBC_STAT_RESULT h) 3).setInt (hbcPage h) 0)
    else .next ((s.setHState h 2).set (HBC_STAT_RESULT h) (if lanes = 0 && failed = 0 then 1 else 2))

/-- INIT_DONE (R296): every line holds zero data and the stack is READY; where a cause of self-refresh holds, it goes on into
self-refresh (R295, DEDUCED). -/
def execInitDone (h : Fin 6) (s : State) : Host.Outcome State Fault Refusal :=
  if s.hState h ≠ 2 then .next s
  else
    let s := (s.hbmErase h).setHState h 3
    let s := { s with hbc := { s.hbc with eyeAt := Tbl.set (fun _ => 0) s.hbc.eyeAt h s.now } }
    let s := if s.srefCause h then s.srefGo h else s
    .next (s.setInt (hbcPage h) 0)

/-- TEST_DONE (R297): each pseudo-channel with a failing line is marked failed; INIT follows. -/
def execTestDone (h : Fin 6) (failed : BitVec 64) (s : State) : Host.Outcome State Fault Refusal :=
  if s.hState h ≠ 4 then .next s
  else .next (((s.markPcs h failed).setHState h 2).set (HBC_STAT_RESULT h) (if failed = 0 then 1 else 4))

/-! ### Block reset and recovery (R301) -/

/-- The steps of a block reset of stack `h` after its registers have their reset values: `st` is the state that it found. -/
def State.hbcReset (s : State) (h st : Nat) : State :=
  let s := { s with hbc := { s.hbc with
    cmdRef := Tbl.set (fun _ => false) s.hbc.cmdRef h (st == 5 && Tbl.get (fun _ => false) s.hbc.cmdRef h)
    retrain := Tbl.set (fun _ => false) s.hbc.retrain h (st == 3 || st == 6 || st == 5) } }
  if st = 3 || st = 6 then s.srefGo h
  else if st = 5 || st = 7 || st = 0 then s.setHState h st
  else ((s.hbmErase h).setHq h []).setHState h 0

/-- RETRAIN_DONE (R301 steps 3 and 4): the short retrain that a block reset owes ends once no cause of self-refresh holds;
RESETTING ends when RECOVERING begins; a failed retrain leaves FAILED. -/
def execRetrainDone (h : Fin 6) (ok : Bool) (s : State) : Host.Outcome State Fault Refusal :=
  if s.hState h = 5 && Tbl.get (fun _ => false) s.hbc.retrain h && !s.srefCause h then
    let s := { s with hbc := { s.hbc with retrain := Tbl.set (fun _ => false) s.hbc.retrain h false } }
    .next ((s.setHState h (if ok then 6 else 7)).resetEnded [hbcPage h])
  else .next s

/-- RECOVER_DONE (R301): every line of the table, dump and capture areas has been read back; the stack is READY. -/
def execRecoverDone (h : Fin 6) (s : State) : Host.Outcome State Fault Refusal :=
  if s.hState h ≠ 6 then .next s
  else
    let s := s.setHState h 3
    .next { s with hbc := { s.hbc with eyeAt := Tbl.set (fun _ => 0) s.hbc.eyeAt h s.now } }

/-- The address of line `l` of stack `h` (R288). -/
def hbmLine (h l : Nat) : Nat := 256 * (6 * l + h)

/-- The first line of stack `h` above the packet region. -/
def scrubFirst (h : Nat) : Nat := (hbmSpillEnd / 256 - h + 5) / 6

/-- HBM_SCRUB (R299): the next line of the table, dump and capture areas is read, as an access of class C (R302), and written back
where it was corrected. -/
def execHbmScrub (h : Fin 6) (ecc : Ecc) (s : State) : Host.Outcome State Fault Refusal :=
  if s.get (HBC_SCRUB_EN h) = 1 && s.hState h = 3 then
    let l := max (scrubFirst h) (Tbl.get (fun _ => 0) s.hbc.scrubAt h)
    let nxt := if hbmEnd ≤ hbmLine h (l + 1) then scrubFirst h else l + 1
    let s := { s with hbc := { s.hbc with scrubAt := Tbl.set (fun _ => 0) s.hbc.scrubAt h nxt } }
    .next (s.hServe h { cls := .c, addr := hbmLine h l, ecc := ecc } (s.hq h))
  else .next s

end Sys2Proof.Machine
end

