-- ==== Sys2Proof/Machine/Cascade.lean ====
section
/-! DEFINITION. The cascade (16) and what the Ledger does in one (11 R249–R251, R254–R258): links, cells, reorder contexts,
acknowledgements, credits and reports; the cascade commit; drained slots and retirement. -/

namespace Sys2Proof.Machine

open Reg

/-! ### Messages (R360) -/

/-- Take the delivered CTRL message at the front if it has the given MTYPE. -/
def State.popMsg (s : State) (t : Nat) : Option (CtlMsg × State) :=
  match s.cly.inbox with
  | m :: r => if byteAt m.b 0 = t then some (m, { s with cly := { s.cly with inbox := r } }) else none
  | [] => none

/-- Take the delivered LINK message at the front if it has the given LTYPE: its link and bytes. -/
def State.popLink (s : State) (t : Nat) : Option (Nat × List Byte × State) :=
  match s.cly.linkIn with
  | (l, b) :: r => if byteAt b 0 = t then some (l, b, { s with cly := { s.cly with linkIn := r } }) else none
  | [] => none

/-- A device is the one accepted as master (R363). -/
def State.fromMaster (s : State) (d : Nat) : Bool := s.get CLY_MST_STAT_VALID == 1 && s.get CLY_MST_STAT_MASTER == d

/-- A message that only the master may send came from another device (R361). -/
def State.reject (s : State) : State := s.clyCount CLY_REJ_REJ

/-- Little-endian number of message bytes. -/
def CtlMsg.num (m : CtlMsg) (i n : Nat) : Nat := leNat (bytesAt m.b i n)

/-! ### Links (R347, R348, R358, R360) -/

/-- LINK_TRAINED (R346, R347): the FEC of an enabled link of a slice in MODE 9 is locked. -/
def execLinkTrained (l : Fin 256) (s : State) : Host.Outcome State Fault Refusal :=
  if s.get (CLY_LINK_CFG_EN (l / 32) (l % 32)) = 1 && s.portMode l == 9 && s.cfg (ctlEn clyPage) == 1 && !s.safe &&
      decide (s.linkState l < 2) then
    .next ((s.setLnk l { s.lnk l with
      good := 0
      helloAt := s.now }).setLink l 2)
  else .next s

/-- HELLO_SEND (R347, R360). -/
def execHelloSend (l : Fin 256) (s : State) : Host.Outcome State Fault Refusal :=
  if 2 ≤ s.linkState l then
    .next (s.linkMsg l ([1] ++ leBytes 2 (s.get CLY_ID_DEV_ID) ++ leBytes 1 (s.get CLY_ID_FABRIC + 2 * s.get CLY_ID_PLANE)))
  else .next s

/-- HELLO_RECEIVE (R347): the third good HELLO in a row from another device makes the link UP; the own ID sets LOOP. -/
def execHelloReceive (s : State) : Host.Outcome State Fault Refusal :=
  match s.popLink 1 with
  | none => .next s
  | some (l, b, s) =>
    let d := leNat (bytesAt b 1 2) % 2048
    let f := byteAt b 3
    let i := l / 32
    let j := l % 32
    if s.linkState l < 2 then .next s
    else if d = s.ownDev then .next ((s.set (CLY_LINK_STAT_LOOP i j) 1).setLnk l { s.lnk l with good := 0 })
    else
      let s := s.set (CLY_LINK_STAT_LOOP i j) 0
      let s := ((s.set (CLY_LINK_STAT_FAR_DEV i j) d).set (CLY_LINK_STAT_FAR_FABRIC i j) (f % 2)).set (CLY_LINK_STAT_FAR_PLANE i j) (f / 2 % 2)
      let n := (s.lnk l).good + 1
      let s := s.setLnk l { s.lnk l with
        good := n
        helloAt := s.now }
      .next (if 3 ≤ n then s.setLink l 3 else s)

/-- LINK_DOWN (R347): FEC lock is lost, or an UP link has heard no good HELLO for 30 µs. -/
def execLinkDown (l : Fin 256) (lockLost : Bool) (s : State) : Host.Outcome State Fault Refusal :=
  if lockLost || (s.linkState l == 3 && s.elapsedUs (s.lnk l).helloAt 30) then .next (s.setLink l 0) else .next s

/-- Safe state: every Clalys link becomes DOWN (R348). -/
def State.linksDown (s : State) : State := forEach links (fun l s => s.setLink l 0) s

/-- STOP_MESSAGE (R358). -/
def execStopMessage (s : State) : Host.Outcome State Fault Refusal :=
  match s.popLink 2 with
  | none => .next s
  | some (l, _, s) => .next (s.set (CLY_LINK_STAT_STOPPED (l / 32) (l % 32)) 1)

/-- GO_CELLS_MESSAGE (R358). -/
def execGoCellsMessage (s : State) : Host.Outcome State Fault Refusal :=
  match s.popLink 3 with
  | none => .next s
  | some (l, _, s) => .next (s.set (CLY_LINK_STAT_STOPPED (l / 32) (l % 32)) 0)

/-- A PING or PONG: the layout of its timestamps, bytes 4–15, is open (R360, log 4). -/
def State.stampMsg (s : State) (l lt : Nat) : State :=
  let a := s.fresh
  let b := a.2.fresh
  let c := b.2.fresh
  c.2.linkMsg l (leBytes 4 lt ++ leBytes 4 a.1.toNat ++ leBytes 4 b.1.toNat ++ leBytes 4 c.1.toNat)

/-- LINK_PING (R360): a PING leaves on a link. -/
def execLinkPing (l : Fin 256) (s : State) : Host.Outcome State Fault Refusal :=
  if 2 ≤ s.linkState l then .next ((s.setLnk l { s.lnk l with pingAt := some s.now }).stampMsg l 4) else .next s

/-- PING_MESSAGE (R360): a PING is answered with a PONG on the same link. -/
def execPingMessage (s : State) : Host.Outcome State Fault Refusal :=
  match s.popLink 4 with
  | none => .next s
  | some (l, _, s) => .next (s.stampMsg l 5)

/-- PONG_MESSAGE (R360): half the round trip less the far end's turnaround, which the PONG carries, in 1/256 ns. -/
def execPongMessage (turn : Nat) (s : State) : Host.Outcome State Fault Refusal :=
  match s.popLink 5 with
  | none => .next s
  | some (l, _, s) =>
    match (s.lnk l).pingAt with
    | none => .next s
    | some t =>
      let s := s.setLnk l { s.lnk l with pingAt := none }
      .next (s.set (CLY_LINK_DLY_DLY (l / 32) (l % 32)) (((s.now - t) * 256 - turn) / 2))

/-! ### Sending cells (R350) -/

/-- The TIME messages of a CTRL cell carry the time at which it is sent (18 R426). -/
def State.timed (s : State) (p : List Byte) : List Byte :=
  (List.range 16).foldl (fun p i =>
    if byteAt p (16 * i) = 4 then
      patchBytes p (16 * i + 2) (leBytes 2 (s.tb.frac / 2 ^ 24) ++ leBytes 4 s.tb.ns ++ leBytes 6 s.tb.sec)
    else p) p

/-- A cell leaves on a link. -/
def State.emitCell (s : State) (l : Nat) (c : Cell) : State :=
  let s := s.clyCount (CLY_LINK_CELLS_TX_CELLS_TX (l / 32) (l % 32))
  { s with cly := { s.cly with out := s.cly.out ++ [(l, c.bytes)] } }

/-- The next CTRL, CKPT or DATA cell of a link: CTRL and CKPT first, then DATA by descending class, in queue order (R350); no DATA cell
starts on a stopped link (R358). -/
def nextCell (q : List Cell) (stopped : Bool) : Option Cell :=
  match q.find? fun c => c.type != 1 with
  | some c => some c
  | none =>
    if stopped then none
    else q.foldl (fun (b : Option Cell) c => match b with | none => some c | some x => if x.cls < c.cls then some c else some x) none

/-- CELL_SEND (R350, R352, R354, R360): what waits is cut into cells, and a link sends its next one. -/
def execCellSend (l : Fin 256) (s : State) : Host.Outcome State Fault Refusal :=
  let s := s.packAll
  let x := s.lnk l
  if s.linkState l < 2 then .next s
  else match x.msgs with
    | m :: r =>
      .next ((s.setLnk l { x with msgs := r }).emitCell l { type := 3, src := s.ownDev, len := 16, payload := bytesAt m 0 256 })
    | [] =>
      if s.linkState l ≠ 3 then .next s
      else match nextCell x.cells (s.get (CLY_LINK_STAT_STOPPED (l / 32) (l % 32)) == 1) with
        | none => .next s
        | some c =>
          let s := s.setLnk l { x with cells := x.cells.erase c }
          let c := if c.type = 2 then { c with payload := s.timed c.payload } else c
          .next (s.emitCell l c).stageFlow

/-! ### Reorder contexts (R353, R355, R356) -/

/-- Key of a context: 16 × source + class, class 8 for CTRL. -/
def ctxKeyOf (c : Cell) : Nat := 16 * c.src + (if c.type = 1 then c.cls else 8)

/-- A reorder context. -/
def State.ctxOf (s : State) (k : Nat) : Reord := Tbl.get (fun _ => {}) s.cly.ctx k

/-- Replace a reorder context. -/
def State.setCtxOf (s : State) (k : Nat) (x : Reord) : State := { s with cly := { s.cly with ctx := Tbl.set (fun _ => {}) s.cly.ctx k x } }

/-- A frame of a slot is lost in the cascade (R356, R357): dropped with 0x01, its count lowered where its SOF cell raised it. The
bytes of a lost frame are not on die, which `remote` marks for the capture. -/
def State.loseFrame (s : State) (k : Nat) (b : Build) : State :=
  let known := decide (76 ≤ b.bytes.length)
  let n := s.newFrame { iport := if known then beNat (bytesAt b.bytes 74 2) % 512 else 0x1FF, eport := 0x1FF, vslot := b.vslot, gen := b.gen,
                        stamped := b.counted, post := true, stage := .dequeued, remote := some (k / 16) }
  (n.2.clyCount CLY_LOST_FRAMES_LOST_FRAMES).drop n.1 0x01

/-- A whole frame with its descriptor asks for a buffer (R352, 12 Table 12.2). -/
def State.frameArrived (s : State) (b : Build) : State :=
  let d := b.bytes
  let x := byteAt d 78
  let l := beNat (bytesAt d 80 2) % 16384
  let mc := bit x 5
  let id := beNat (bytesAt d 84 3)
  let n := s.newFrame { bytes := bytesAt d 96 l, iport := beNat (bytesAt d 74 2) % 512, vslot := b.vslot, gen := b.gen, stamped := true, post := true,
                        tc := x % 8, dp := x / 8 % 4, mcast := mc, group := if mc then id % 65536 else 0, voqid := if mc then 0 else id % 131072,
                        pflags := beNat (bytesAt d 82 2), t := beNat (bytesAt d 64 6) * 1000000000 + beNat (bytesAt d 70 4),
                        intent := bytesAt d 0 64, eport := beNat (bytesAt d 76 2) % 512, ended := true, fcs := some true, arrived := s.now }
  n.2.requestBuf n.1 18 l

/-- Parts of a checkpoint that have arrived whole are checked, stored and acknowledged (R365). -/
def State.ckptStore (s : State) : State :=
  let b := (List.range 16).flatMap fun i => bytesAt (Tbl.get (fun _ => []) s.cly.parts i) 0 256
  let seq := leNat (bytesAt b 0 4)
  if s.cly.parts.length = 16 && leNat (bytesAt b 4088 4) == (crc 0x04C11DB7 0xFFFFFFFF (b.take 4088)).toNat && leNat (bytesAt b 4092 4) == seq then
    let second := s.cly.valid == some false
    let dst := (s.rd CLY_CKPT_DST_LO).toNat / 4096 * 4096 + 2 ^ 32 * (s.rd CLY_CKPT_DST_HI).toNat + 4096 * b2n second
    let s := { s with cly := { s.cly with
      parts := []
      store0 := if second then s.cly.store0 else b
      store1 := if second then b else s.cly.store1
      valid := some second } }
    let s := ((s.set CLY_CKPT_STAT_VALIDSEQ (seq % 65536)).hostWrite dst (b.take 4092)).hostWrite (dst + 4092) (bytesAt b 4092 4)
    s.sendCtrl (s.get CLY_MST_STAT_MASTER) ([16, 0, 0, 0] ++ leBytes 4 seq)
  else { s with cly := { s.cly with parts := [] } }

/-- A CKPT cell reaches a standby (R365): part 15 ends a checkpoint. -/
def State.ckptPart (s : State) (c : Cell) : State :=
  if s.get CLY_MST_CFG_MROLE = 2 && s.fromMaster c.src && decide (c.part < 16) then
    let p := if c.part = 0 then [] else s.cly.parts
    let s := { s with cly := { s.cly with parts := Tbl.set (fun _ => []) p c.part c.payload } }
    if c.part = 15 then s.ckptStore else s
  else s

/-- The messages of a CTRL cell, in order; MTYPE 0 and values not in Table 16.4 are ignored. -/
def cellMsgs (c : Cell) : List CtlMsg :=
  ((List.range 16).map fun i => CtlMsg.mk c.src c.link c.t (bytesAt c.payload (16 * i) 16)).filter fun m =>
    byteAt m.b 0 != 0 && decide (byteAt m.b 0 ≤ 18)

/-- A released cell of context `k` (R356): a DATA cell adds to its frame, a CTRL cell delivers its messages. -/
def State.deliver (s : State) (k : Nat) (c : Cell) : State :=
  if c.type = 2 then { s with cly := { s.cly with inbox := s.cly.inbox ++ (if c.bad then [] else cellMsgs c) } }
  else if c.type = 4 then (if c.bad then s else s.ckptPart c)
  else
    let x := s.ctxOf k
    let start : Build := { vslot := c.vslot, gen := c.gen, counted := true }
    let b : Build × State :=
      if c.sof then
        (start, match x.build with | some b => if b.lost then s else s.loseFrame k b | none => s)
      else match x.build with
        | some b => (b, s)
        | none => ({ start with
            counted := false
            lost := true }, s.loseFrame k { start with counted := false })
    let s := b.2
    let nb : Build := { b.1 with
      bytes := b.1.bytes ++ c.payload.take c.len
      cells := b.1.cells + 1 }
    let s' := if c.bad && !nb.lost then s.loseFrame k nb else s
    let nb := if c.bad then { nb with lost := true } else nb
    let y := s'.ctxOf k
    if c.eof then
      let t := s'.setCtxOf k { y with build := none }
      if nb.lost then t else t.frameArrived nb
    else s'.setCtxOf k { y with build := some nb }

/-- Numbers from N on are skipped (R355, R356); a frame being put together loses a cell. -/
def State.skipSeq (s : State) (k n : Nat) : State :=
  let x := s.ctxOf k
  match x.n with
  | none => s
  | some m =>
    let s := s.clyCount CLY_SKIPS_SKIPS n
    let s := s.setCtxOf k { x with
      n := some ((m + n) % 2 ^ 32)
      depth := min 65536 (x.depth + n)
      skipped := x.skipped ++ [(m, n)]
      changed := true
      build := x.build.map fun b => { b with lost := true } }
    match x.build with
    | some b => if b.lost then s else s.loseFrame k b
    | none => s

/-- Release held cells in SEQ order from N (R356). -/
def State.release (s : State) (k : Nat) : Nat → State
  | 0 => s
  | fuel + 1 =>
    let x := s.ctxOf k
    match x.n with
    | none => s
    | some m =>
      match x.held.find? fun c => c.seq == m with
      | none => s
      | some c =>
        let s := s.setCtxOf k { x with
          n := some ((m + 1) % 2 ^ 32)
          depth := min 65536 (x.depth + 1)
          held := x.held.erase c
          changed := true }
        (s.deliver k c).release k fuel

/-- Advance N to `upto`, releasing the held cells on the way and skipping the numbers that are missing (R355). -/
def State.advanceN (s : State) (k upto : Nat) : Nat → State
  | 0 => s
  | fuel + 1 =>
    let s := s.release k (s.ctxOf k).held.length
    let x := s.ctxOf k
    match x.n with
    | none => s
    | some m =>
      let gap := (upto + 2 ^ 32 - m) % 2 ^ 32
      if gap = 0 || decide (2 ^ 31 ≤ gap) then s
      else
        let ds := (x.held.map fun c => (c.seq + 2 ^ 32 - m) % 2 ^ 32).filter fun d => decide (d < gap)
        (s.skipSeq k (ds.foldl min gap)).advanceN k upto fuel

/-- The timer of a context (R355, R356): it runs while cells are held and nothing is released, from when that began. -/
def State.ctxTimer (s : State) (k : Nat) (restart : Bool) : State :=
  let x := s.ctxOf k
  s.setCtxOf k { x with since := if x.held.isEmpty then none else if restart then some s.now else some (x.since.getD s.now) }

/-- Keep only the skipped ranges that reach into the last 65,536 numbers. -/
def State.ctxTrim (s : State) (k : Nat) : State :=
  let x := s.ctxOf k
  match x.n with
  | none => s
  | some m => s.setCtxOf k { x with skipped := x.skipped.filter fun (r : Nat × Nat) => decide ((m + 2 ^ 32 - (r.1 + r.2) % 2 ^ 32) % 2 ^ 32 < 65536) }

/-- A number before N by `e` is recorded as accepted: within the record and not skipped. -/
def Reord.recorded (x : Reord) (seq e : Nat) : Bool :=
  decide (e ≤ x.depth) && !(x.skipped.any fun r => decide ((seq + 2 ^ 32 - r.1) % 2 ^ 32 < r.2))

/-- A duplicate cell (R355). -/
def State.dupCell (s : State) (c : Cell) : State :=
  let s := s.clyCount CLY_DUP_CELLS_DUP_CELLS
  if c.type = 1 && c.eof then
    let f : Frame := { iport := 0x1FF, eport := 0x1FF, vslot := c.vslot, reason := 0x14, stage := .dequeued, remote := some c.src }
    (s.clyCount CLY_DUP_FRAMES_DUP_FRAMES).noteDrop 0x14 f
  else s

/-- A cell is accepted and held (R355); a frame counts on receipt of its SOF cell (R357). -/
def State.holdCell (s : State) (k : Nat) (c : Cell) : State :=
  let x := s.ctxOf k
  let s := if c.type = 1 && c.sof then s.postUp c.vslot 1 else s
  s.setCtxOf k { x with held := x.held ++ [c] }

/-- After a cell is held: held cells from N on are released. -/
def State.afterHold (s : State) (k : Nat) : State :=
  let before := (s.ctxOf k).n
  let s := s.release k ((s.ctxOf k).held.length)
  (s.ctxTimer k ((s.ctxOf k).n != before)).ctxTrim k

/-- A cell for this device meets its context (R355). -/
def State.takeCell (s : State) (k : Nat) (c : Cell) : State :=
  let x := s.ctxOf k
  if x.held.any fun h => h.seq == c.seq then s.dupCell c
  else match x.n with
    | none => (s.holdCell k c).ctxTimer k false
    | some m =>
      let d := (c.seq + 2 ^ 32 - m) % 2 ^ 32
      if d < 65536 then (s.holdCell k c).afterHold k
      else if d < 2 ^ 31 then
        ((s.advanceN k ((c.seq + 2 ^ 32 - 65535) % 2 ^ 32) (x.held.length + 2)).holdCell k c).afterHold k
      else
        let e := (m + 2 ^ 32 - c.seq) % 2 ^ 32
        if 65536 ≤ e then s.clyCount CLY_STALE_CELLS_STALE_CELLS
        else if x.recorded c.seq e then s.dupCell c
        else s.clyCount CLY_LATE_CELLS_LATE_CELLS

/-- A context loses its state (CLY source 1, block reset): its frames are lost. -/
def State.dropCtx (s : State) (k : Nat) : State :=
  let x := s.ctxOf k
  let s := s.setCtxOf k {}
  let s := match x.build with
    | some b => if b.lost then s else s.loseFrame k b
    | none => s
  forEach (x.held.filter fun c => c.type == 1 && c.sof) (fun c s =>
    s.loseFrame k { bytes := c.payload.take c.len, vslot := c.vslot, gen := c.gen, counted := true }) s

/-- A cell for another device is forwarded (R349, R350, R354): one hop more, on the plane on which a twin copy came. -/
def State.forwardCell (s : State) (l : Nat) (c : Cell) : State :=
  if 4 ≤ c.hops then s.clyCount CLY_HOPS_DROP_HOPS_DROP
  else s.spray { c with hops := c.hops + 1 } (if c.twin then some (s.plane l) else none)

/-- CELL_RECEIVE (R348, R349, R351, R355, R358): a received cell is checked, forwarded, held or discarded. -/
def execCellReceive (l : Fin 256) (b : List Byte) (err : CErr) (s : State) : Host.Outcome State Fault Refusal :=
  let i := l.val / 32
  let j := l.val % 32
  let c : Cell := { cellOf b with
    link := l.val
    t := s.tbNs
    bad := err == .staging }
  if s.safe || decide (s.linkState l < 2) || (c.type != 3 && s.linkState l != 3) then .next s
  else if byteAt b 15 ≠ hcrc (bytesAt b 0 15) then .next (s.clyCount (CLY_LINK_ERR_HCRC_ERR i j))
  else
    let s := s.clyCount (CLY_LINK_CELLS_RX_CELLS_RX i j)
    if c.type = 0 || 4 < c.type then .next (s.clyCount (CLY_LINK_ERR_HCRC_ERR i j))
    else if bits (beNat (bytesAt b 0 16)) 8 32 ≠ pcrc c.len c.payload then .next (s.clyCount (CLY_LINK_ERR_PCRC_ERR i j))
    else if c.type = 3 then .next { s with cly := { s.cly with linkIn := s.cly.linkIn ++ [(l.val, bytesAt c.payload 0 16)] } }
    else if c.type = 1 && decide (64512 ≤ s.dataStaged) then .next (s.clyCount CLY_OVERRUN_OVERRUN)
    else if c.dst ≠ s.ownDev then .next (s.forwardCell l c).stageFlow
    else
      let k := ctxKeyOf c
      let s := if err = .staging then s.raise clyPage 0 else s
      let s := if err = .context then (s.raise clyPage 1).dropCtx k else s
      .next (s.takeCell k c).stageFlow

/-- REORD_US as it acts. -/
def State.reordUs (s : State) : Nat := min 1000 (max 1 (s.get CLY_CFG_REORD_US))

/-- REORDER_SKIP (R356): after REORD_US the missing N is skipped. -/
def execReorderSkip (src : Fin 2048) (cls : Fin 9) (s : State) : Host.Outcome State Fault Refusal :=
  let k := 16 * src.val + cls.val
  let x := s.ctxOf k
  match x.n, x.since with
  | some _, some t =>
    if s.elapsedUs t s.reordUs then
      let s := s.skipSeq k 1
      let m := (s.ctxOf k).n
      let s := s.release k (s.ctxOf k).held.length
      .next ((s.ctxTimer k ((s.ctxOf k).n != m)).ctxTrim k).stageFlow
    else .next s
  | _, _ => .next s

/-- CONTEXT_START (R355): after REORD_US a context with no state starts at the earliest SEQ that it holds. -/
def execContextStart (src : Fin 2048) (cls : Fin 9) (s : State) : Host.Outcome State Fault Refusal :=
  let k := 16 * src.val + cls.val
  let x := s.ctxOf k
  match x.n, x.since with
  | none, some t =>
    if s.elapsedUs t s.reordUs then
      match x.held.find? fun c => x.held.all fun h => h.seq == c.seq || precedes c.seq h.seq with
      | none => .next s
      | some c => .next ((s.setCtxOf k { x with n := some c.seq }).afterHold k).stageFlow
    else .next s
  | _, _ => .next s

/-! ### Acknowledgements (R357) -/

/-- ACK_SEND (R357): each context that changed acknowledges the last SEQ released or skipped. -/
def execAckSend (s : State) : Host.Outcome State Fault Refusal :=
  .next (forEach ((s.cly.ctx.filter fun p => p.2.changed).map fun p => p.1) (fun k s =>
    let x := s.ctxOf k
    (s.setCtxOf k { x with changed := false }).sendCtrl (k / 16)
      ([3] ++ leBytes 3 (k % 16) ++ leBytes 4 ((x.n.getD 0 + 2 ^ 32 - 1) % 2 ^ 32))) s)

/-- ACK_MESSAGE (R357): the transit records that the SEQ covers end, and their drain counts fall. -/
def execAckMessage (s : State) : Host.Outcome State Fault Refusal :=
  match s.popMsg 3 with
  | none => .next s
  | some (m, s) =>
    let seq := m.num 4 4
    let hit (r : Transit) : Bool := r.dst == m.src && r.cls == byteAt m.b 1 && (r.seq == seq || precedes r.seq seq)
    let rs := s.cly.transit.filter hit
    let s := { s with cly := { s.cly with transit := s.cly.transit.filter fun r => !hit r } }
    .next (forEach rs (fun r s => s.postDown r.vslot) s)

/-! ### Reports and credits (R359) -/

/-- REPORT_REFRESH (R359): a remote VOQ that holds a frame repeats ON every 50 µs. -/
def execReportRefresh (v : Fin 131072) (s : State) : Host.Outcome State Fault Refusal :=
  match s.voqDest v.val with
  | none => .next s
  | some d =>
    if d.dev ≠ s.ownDev && !(s.voqQ v.val).isEmpty && s.elapsedUs (Tbl.get (fun _ => 0) s.voq.reportAt v.val) 50 then
      .next (s.reportVoq v.val true)
    else .next s

/-- REPORT_MESSAGE (R359, 14 R318). -/
def execReportMessage (s : State) : Host.Outcome State Fault Refusal :=
  match s.popMsg 1 with
  | none => .next s
  | some (m, s) => .next (s.setFlow (flowKey m.src (m.num 1 2 % 512) (byteAt m.b 3 % 8)) (bit (byteAt m.b 4) 0))

/-- CREDIT_MESSAGE (R359, 14 R321). -/
def execCreditMessage (s : State) : Host.Outcome State Fault Refusal :=
  match s.popMsg 2 with
  | none => .next s
  | some (m, s) =>
    match s.voqOfFlow m.src (m.num 1 2 % 512) (byteAt m.b 3 % 8) with
    | some v => .next (s.creditArrives v (byteAt m.b 4 * 1024))
    | none => .next (s.clyCount CLY_CR_NODEST_CR_NODEST)

/-! ### The reach table (R350) -/

/-- REACH_WRITE of CLY_RCH_CMD. -/
def State.reachWrite (s : State) : State :=
  let m := (List.range 8).foldl (fun (m : Nat) w => m + s.get (CLY_RCH_DATA_DATA w) * 2 ^ (32 * w)) 0
  { s with cly := { s.cly with reach := Tbl.set (fun _ => 0) s.cly.reach (s.get CLY_RCH_DEV_DEV) (BitVec.ofNat 256 m) } }

/-- REACH_READ of CLY_RCH_CMD. -/
def State.reachRead (s : State) : State :=
  let m := (s.reach (s.get CLY_RCH_DEV_DEV)).toNat
  forEach (List.range 8) (fun w s => s.set (CLY_RCH_DATA_DATA w) (m / 2 ^ (32 * w) % 2 ^ 32)) s

/-! ### The cascade commit (11 R254–R257, 16 R361, R366) -/

/-- The devices of LDG_CC_MASK other than this one. -/
def State.ccOthers (s : State) : List Nat :=
  (List.range 2048).filter fun d => bit (s.get (LDG_CC_MASK_DEV (d / 32))) (d % 32) && d != s.ownDev

/-- Change the cascade bookkeeping. -/
def State.setCc (s : State) (c : Cascade) : State := { s with ldg := { s.ldg with cc := c } }

/-- A checkpoint is due (R365). -/
def State.ckptDue (s : State) : State := { s with cly := { s.cly with ckDue := true } }

/-- The phase changes, for which the master sends a checkpoint (R365). -/
def State.ccPhase (s : State) (p : Nat) : State := (s.set LDG_CC_STAT_PHASE p).ckptDue

/-- The slot of the cascade commit. -/
def State.ccSlot (s : State) : Nat := s.get LDG_CC_STAT_SLOT

/-- This device holds the slot of the cascade commit PREPARED for an epoch. -/
def State.ccPrepared (s : State) (k ep : Nat) : Bool :=
  s.slotState k == .prepared && s.epoch k == ep && (s.txn 2).phase == .bound (some k)

/-- Phase 1 on one device (11 R255): the cause of a refusal, or 0 with the slot PREPARED and bound. -/
def State.ccPrepare (s : State) (k ep : Nat) : Nat × State :=
  if s.txnState 2 ≠ .opened then (1, s)
  else if s.slotState k ≠ .free then (2, s)
  else if s.jobRuns 2 then (3, s)
  else
    let s := (s.setTxnState 2 .committing).openSlot 2 k ep .prepared
    (0, (s.set LDG_CC_STAT_SLOT k).set LDG_CC_EPOCH_EPOCH ep)

/-- The bytes of a GO or ABORT (Table 16.4). -/
def State.ccMsg (s : State) (t : Nat) : List Byte :=
  leBytes 1 t ++ leBytes 3 s.ccSlot ++ leBytes 4 (s.get LDG_CC_EPOCH_EPOCH) ++
    (if t = 7 then leBytes 4 (s.get LDG_CC_TIME_LO_TIME) ++ leBytes 4 (s.get LDG_CC_TIME_HI_TIME) else [])

/-- A message to every other participating device. -/
def State.ccSend (s : State) (m : List Byte) (ds : List Nat) : State := forEach ds (fun d s => s.sendCtrl d m) s

/-- The master ends with a GO or ABORT once every device has answered DONE (11 R257, R361); its slot is then free after an ABORT. -/
def State.ccSettle (s : State) : State :=
  let c := s.ldg.cc
  if s.ccOthers.all fun d => c.doneDev.contains d then
    if c.abortSent then
      let s := if s.slotState s.ccSlot = .prepared then s.setSlot s.ccSlot .free else s
      (s.setCc { s.ldg.cc with abortSent := false }).ccPhase 0
    else if c.goSent && s.slotState s.ccSlot ≠ .prepared then (s.setCc { s.ldg.cc with goSent := false }).ccPhase 0
    else s
  else s

/-- The master sends ABORT (11 R257): its own binding is undone at once, its slot stays PREPARED until every device has answered. -/
def State.ccAbort (s : State) (result : Nat) : State :=
  let k := s.ccSlot
  let s := if s.ccPrepared k (s.get LDG_CC_EPOCH_EPOCH) then (s.unbindSlot k .prepared).endTxn 2 .rolledBack 2 else s
  let s := (s.set LDG_CC_STAT_RESULT result).setCc { s.ldg.cc with
    abortSent := true
    goPend := false
    ready := []
    doneDev := []
    lastSent := s.now }
  ((s.ccSend (s.ccMsg 8) s.ccOthers).ccPhase 2).ccSettle

/-- The master sends GO (11 R256). -/
def State.ccGo (s : State) : State :=
  let s := s.setCc { s.ldg.cc with
    goSent := true
    goPend := false
    doneDev := []
    lastSent := s.now }
  (s.ccSend (s.ccMsg 7) s.ccOthers).ccPhase 3

/-- Every device is READY (11 R256): T_c is chosen; with a standby, GO waits for the acknowledgement of its checkpoint (16 R366). -/
def State.ccAllReady (s : State) : State :=
  let c := s.ldg.cc
  if s.get LDG_CC_STAT_PHASE = 1 && !c.goPend && (s.ownDev :: s.ccOthers).all (fun d => c.ready.contains d) then
    let tc := s.tbNs + max 1 (s.get LDG_CC_CFG_LEAD_US) * 1000
    let s := (s.set LDG_CC_TIME_LO_TIME (tc % 1000000000)).set LDG_CC_TIME_HI_TIME (tc / 1000000000)
    if s.get CLY_CKPT_STBY_EN = 1 && s.get CLY_MST_STAT_SELF == 1 then
      (s.setCc { s.ldg.cc with
        goPend := true
        readyAt := s.now }).ckptDue
    else s.ccGo
  else s

/-- A PREPARE command (11 R255): on the master, while no cascade commit is in progress. -/
def State.ccCmdPrepare (s : State) : State :=
  if s.role ≠ 1 || s.get LDG_CC_STAT_PHASE ≠ 0 then s
  else
    let k := s.freeSlot.getD 0
    let ep := (s.get LDG_EPOCH_EPOCH + 1) % 2 ^ 32
    let s := ((s.set LDG_CC_STAT_SLOT k).set LDG_CC_EPOCH_EPOCH ep).set LDG_CC_STAT_RESULT 0
    let s := ((s.set LDG_CC_STAT_REF_DEV 0).set LDG_CC_STAT_REF_CAUSE 0).setCc { s.ldg.cc with
      ready := []
      doneDev := []
      goSent := false
      abortSent := false
      goPend := false
      started := s.now }
    let s := (s.ccSend ([5] ++ leBytes 3 k ++ leBytes 4 ep) s.ccOthers).ccPhase 1
    let p := s.ccPrepare k ep
    if p.1 = 0 then (p.2.setCc { p.2.ldg.cc with ready := [s.ownDev] }).ccAllReady
    else ((p.2.set LDG_CC_STAT_REF_DEV s.ownDev).set LDG_CC_STAT_REF_CAUSE p.1).ccAbort 2

/-- PREPARE_MESSAGE (11 R255, R361). -/
def execPrepareMessage (s : State) : Host.Outcome State Fault Refusal :=
  match s.popMsg 5 with
  | none => .next s
  | some (m, s) =>
    if !s.fromMaster m.src then .next s.reject
    else
      let p := s.ccPrepare (byteAt m.b 1 % 16) (m.num 4 4)
      let s := if p.1 = 0 then (p.2.set LDG_CC_STAT_RESULT 0).ccPhase 2 else p.2
      .next (s.sendCtrl m.src ([6] ++ leBytes 1 (byteAt m.b 1) ++ leBytes 1 p.1))

/-- READY_MESSAGE (11 R256, R257): a READY, or a refusal, which ends the commit REFUSED. -/
def execReadyMessage (s : State) : Host.Outcome State Fault Refusal :=
  match s.popMsg 6 with
  | none => .next s
  | some (m, s) =>
    if s.get LDG_CC_STAT_PHASE ≠ 1 || byteAt m.b 1 ≠ s.ccSlot then .next s
    else if byteAt m.b 2 = 0 then
      .next (s.setCc { s.ldg.cc with ready := m.src :: s.ldg.cc.ready }).ccAllReady
    else .next (((s.set LDG_CC_STAT_REF_DEV m.src).set LDG_CC_STAT_REF_CAUSE (byteAt m.b 2 % 4)).ccAbort 2)

/-- CC_PREP_TIMEOUT (11 R257, R259). -/
def execCcPrepTimeout (s : State) : Host.Outcome State Fault Refusal :=
  if s.role = 1 && s.get LDG_CC_STAT_PHASE == 1 && !s.ldg.cc.goPend && s.elapsedUs s.ldg.cc.started (max 1 (s.get LDG_CC_PREP_TO_TIMEOUT_US)) then
    .next ((s.raise ldgPage 1).ccAbort 3)
  else .next s

/-- The time base has reached a time given as seconds[31:0] and nanoseconds. -/
def State.reached (s : State) (sec ns : Nat) : Bool :=
  decide (sec < s.tb.sec % 2 ^ 32) || (s.tb.sec % 2 ^ 32 == sec && decide (ns ≤ s.tb.ns))

/-- A device commits its PREPARED slot (11 R256) and, as a member, answers DONE (R361). -/
def State.ccCommit (s : State) : State :=
  let k := s.ccSlot
  let s := (s.commitCycle 2 (some k)).set LDG_CC_STAT_RESULT 1
  if s.role = 1 then s.ccSettle
  else (s.ccPhase 0).sendCtrl (s.get CLY_MST_STAT_MASTER) ([9] ++ leBytes 1 k ++ leBytes 2 1 ++ leBytes 4 (s.get LDG_CC_EPOCH_EPOCH))

/-- T_c has come and the Ledger is free to commit. -/
def State.ccDue (s : State) : Bool :=
  s.get LDG_CC_STAT_PHASE == 3 && s.ccPrepared s.ccSlot (s.get LDG_CC_EPOCH_EPOCH) && s.ldg.switchInit.isNone &&
    s.reached (s.get LDG_CC_TIME_HI_TIME) (s.get LDG_CC_TIME_LO_TIME)

/-- GO_MESSAGE (11 R256, R361): the commit time, or a late commit at once; a completed epoch is answered with DONE. -/
def execGoMessage (s : State) : Host.Outcome State Fault Refusal :=
  match s.popMsg 7 with
  | none => .next s
  | some (m, s) =>
    let k := byteAt m.b 1 % 16
    let ep := m.num 4 4
    if !s.fromMaster m.src then .next s.reject
    else if s.ccPrepared k ep then
      if s.get LDG_CC_STAT_PHASE = 3 then .next s
      else
        let s := ((s.set LDG_CC_TIME_LO_TIME (m.num 8 4)).set LDG_CC_TIME_HI_TIME (m.num 12 4)).ccPhase 3
        if s.reached (m.num 12 4) (m.num 8 4) then
          let s := s.set LDG_CC_STAT_LATE 1
          .next (if s.ccDue then s.ccCommit else s)
        else .next s
    else if s.get LDG_CC_EPOCH_EPOCH = ep && s.get LDG_CC_STAT_RESULT == 1 then
      .next (s.sendCtrl m.src ([9] ++ leBytes 1 k ++ leBytes 2 1 ++ leBytes 4 ep))
    else .next s

/-- A scheduled retirement takes effect (11 R251). -/
def State.retire (s : State) (k : Nat) : State :=
  let s := (s.set (LDG_SLOT_RPRE_RPRE k) (s.get (LDG_SLOT_PRE_COUNT k))).set (LDG_SLOT_PRE_COUNT k) 0
  let s := (s.set (LDG_SLOT_STAT_GEN k) (1 - s.get (LDG_SLOT_STAT_GEN k))).setSlot k .retiring
  ((s.inc LDG_RETIRE_CNT_RETIRES).set LDG_SLOT_CMD_STAT_RESULT 1).set LDG_SLOT_CMD_STAT_SLOT k

/-- Why the oldest live slot may not be retired (11 R250): the RESULT code. -/
def State.retireRefusal (s : State) : Option Nat :=
  let k := s.oldestLive
  if s.slotState k ≠ .old then some 2
  else if s.get (LDG_SLOT_RPRE_RPRE k) ≠ 0 then some 3
  else if s.role = 2 then some 4 else none

/-- The RETIRE_OLDEST command (11 R250): at once on a standalone device, scheduled as a cascade commit is on a master. -/
def State.retireOldest (s : State) : State :=
  match s.retireRefusal with
  | some r => s.set LDG_SLOT_CMD_STAT_RESULT r
  | none =>
    if s.role = 1 then s.setCc { s.ldg.cc with retireAt := some (s.tbNs + max 1 (s.get LDG_CC_CFG_LEAD_US) * 1000) }
    else s.retire s.oldestLive

/-- CC_COMMIT_TIME (11 R250, R256): the time base reaches T_c, or the instant of a scheduled retirement. -/
def execCcCommitTime (s : State) : Host.Outcome State Fault Refusal :=
  match s.ldg.cc.retireAt with
  | some t =>
    if t ≤ s.tbNs then
      let s := s.setCc { s.ldg.cc with retireAt := none }
      .next (match s.retireRefusal with | some r => s.set LDG_SLOT_CMD_STAT_RESULT r | none => s.retire s.oldestLive)
    else .next (if s.ccDue then s.ccCommit else s)
  | none => .next (if s.ccDue then s.ccCommit else s)

/-- An ABORT command (11 R257): before GO only. -/
def State.ccCmdAbort (s : State) : State := if s.role = 1 && s.get LDG_CC_STAT_PHASE == 1 then s.ccAbort 4 else s

/-- ABORT_MESSAGE (11 R257, R361): the binding is undone, the slot is free, initiator 2 ends ROLLED_BACK; DONE is the answer. -/
def execAbortMessage (s : State) : Host.Outcome State Fault Refusal :=
  match s.popMsg 8 with
  | none => .next s
  | some (m, s) =>
    let k := byteAt m.b 1 % 16
    let ep := m.num 4 4
    if !s.fromMaster m.src then .next s.reject
    else
      let s := if s.ccPrepared k ep then
          (((s.unbindSlot k .free).endTxn 2 .rolledBack 2).set LDG_CC_STAT_RESULT 4).ccPhase 0 else s
      .next (s.sendCtrl m.src ([9] ++ leBytes 3 k ++ leBytes 4 ep))

/-- DONE_MESSAGE (R361). -/
def execDoneMessage (s : State) : Host.Outcome State Fault Refusal :=
  match s.popMsg 9 with
  | none => .next s
  | some (m, s) =>
    if m.num 4 4 = s.get LDG_CC_EPOCH_EPOCH then .next (s.setCc { s.ldg.cc with doneDev := m.src :: s.ldg.cc.doneDev }).ccSettle
    else .next s

/-- GO_REPEAT (R361): every 100 µs, to each device that has not answered DONE. -/
def execGoRepeat (s : State) : Host.Outcome State Fault Refusal :=
  let c := s.ldg.cc
  if (c.goSent || c.abortSent) && s.elapsedUs c.lastSent 100 then
    let s := s.setCc { c with lastSent := s.now }
    .next (s.ccSend (s.ccMsg (if c.goSent then 7 else 8)) (s.ccOthers.filter fun d => !c.doneDev.contains d)).ccSettle
  else .next s

/-! ### Drained slots (11 R249, R258) -/

/-- The slots that have drained on this device, as a mask. -/
def State.emptyMask (s : State) : Nat := (slots.map fun k => if s.empty k then 2 ^ k else 0).sum

/-- The master orders the release of every slot that has drained on every participating device (11 R258). -/
def State.ccRelease (s : State) : State :=
  forEach slots (fun k s =>
    let all := s.empty k && s.ccOthers.all fun d => s.ldg.cc.drained.any fun p => p.1 == d && bit p.2 k
    if !all then s
    else if s.isOldest k then (s.ccSend ([11] ++ leBytes 2 (2 ^ k)) s.ccOthers).drainSlot k
    else if s.slotState k = .drained then s else s.drainSlot k) s

/-- SLOT_DRAINED (11 R249, R258): a drained slot becomes DRAINED or SWEEPING; in a cascade it is reported to the master. -/
def execSlotDrained (k : Fin 16) (s : State) : Host.Outcome State Fault Refusal :=
  if s.role = 0 then .next (if s.empty k then s.drainSlot k else s)
  else if s.role = 1 then .next s.ccRelease
  else if s.emptyMask = s.ldg.cc.sentMask || s.get CLY_MST_STAT_VALID = 0 then .next s
  else
    let m := s.emptyMask
    .next ((s.setCc { s.ldg.cc with sentMask := m }).sendCtrl (s.get CLY_MST_STAT_MASTER) ([10] ++ leBytes 2 m))

/-- DRAIN_MESSAGE (11 R258). -/
def execDrainMessage (s : State) : Host.Outcome State Fault Refusal :=
  match s.popMsg 10 with
  | none => .next s
  | some (m, s) =>
    let ds := s.ldg.cc.drained.filter fun p => p.1 != m.src
    let s := s.setCc { s.ldg.cc with drained := ds ++ [(m.src, m.num 1 2)] }
    .next (if s.role = 1 then s.ccRelease else s)

/-- RELEASE_MESSAGE (11 R258, R361): the slots of the mask are swept. -/
def execReleaseMessage (s : State) : Host.Outcome State Fault Refusal :=
  match s.popMsg 11 with
  | none => .next s
  | some (m, s) =>
    if !s.fromMaster m.src then .next s.reject
    else .next (forEach slots (fun k s =>
      if bit (m.num 1 2) k && s.empty k then
        (((s.setSlot k .sweeping).acsClearSlot k).setCc { s.ldg.cc with sentMask := s.ldg.cc.sentMask &&& (65535 - 2 ^ k) })
      else s) s)

end Sys2Proof.Machine
end

