-- ==== Sys2Proof/Machine/Master.lean ====
section
/-! DEFINITION. The master device, its standby and remote accesses (16 R362–R369): claims, announcements, checkpoints, takeover,
handover and rehearsal. -/

namespace Sys2Proof.Machine

open Reg

/-! ### Remote accesses (R362) -/

/-- A remote access ends with a RESULT (R362, R370). -/
def State.rwEnd (s : State) (r : Nat) : State := ((s.set CLY_RW_STAT_RUNNING 0).set CLY_RW_STAT_RESULT r).setInt clyPage 5

/-- Send REGWR or REGRD of the access in progress. -/
def State.rwSend (s : State) : State :=
  let s := { s with cly := { s.cly with rwAt := s.now } }
  s.sendCtrl (s.get CLY_RW_DEV_DEV)
    (leBytes 1 (if s.cly.rwRead then 13 else 12) ++ leBytes 3 s.cly.rwTag ++ leBytes 4 (s.get CLY_RW_ADDR_ADDR) ++
      (if s.cly.rwRead then [] else leBytes 4 (s.get CLY_RW_DATA_DATA)))

/-- A command of CLY_RW_CMD: NOT_MASTER, BUSY, or the access starts. -/
def State.rwStart (s : State) (read : Bool) : State :=
  if s.get CLY_RW_STAT_RUNNING = 1 then s.set CLY_RW_STAT_RESULT 2
  else if s.get CLY_MST_STAT_SELF ≠ 1 then s.rwEnd 4
  else
    let s := { s with cly := { s.cly with
      rwTag := (s.cly.rwTag + 1) % 2 ^ 16
      rwTries := 0
      rwRead := read } }
    ((s.set CLY_RW_STAT_RUNNING 1).set CLY_RW_STAT_RESULT 0).rwSend

/-- REMOTE_RESEND (R362): every 50 µs, up to 3 times; then TIMEOUT. -/
def execRemoteResend (s : State) : Host.Outcome State Fault Refusal :=
  if s.get CLY_RW_STAT_RUNNING = 1 && s.elapsedUs s.cly.rwAt 50 then
    if s.cly.rwTries < 3 then .next ({ s with cly := { s.cly with rwTries := s.cly.rwTries + 1 } }).rwSend
    else .next (s.rwEnd 3)
  else .next s

/-- REGACK_MESSAGE (R362): the answer of the access in progress. -/
def execRegackMessage (s : State) : Host.Outcome State Fault Refusal :=
  match s.popMsg 14 with
  | none => .next s
  | some (m, s) =>
    if s.get CLY_RW_STAT_RUNNING = 1 && m.src == s.get CLY_RW_DEV_DEV && m.num 1 2 == s.cly.rwTag then
      let s := if s.cly.rwRead && byteAt m.b 3 = 0 then s.set CLY_RW_DATA_DATA (m.num 8 4) else s
      .next (s.rwEnd (if byteAt m.b 3 = 0 then 1 else 5))
    else .next s

/-! ### Announcements (R363, R364) -/

/-- The devices that announcements go to: those whose reach entry is not empty (R363). -/
def State.reachDevs (s : State) : List Nat := (s.cly.reach.map fun p => p.1).filter fun d => d != s.ownDev

/-- Initiator 2's transaction is rolled back if it is OPEN or DOOMED (R363). -/
def State.rollBack2 (s : State) : State :=
  match s.txnState 2 with
  | .opened => s.endTxn 2 .rolledBack 2
  | .doomed => s.endTxn 2 .rolledBack 2
  | _ => s

/-- This device is deposed (R364). -/
def State.depose (s : State) : State :=
  let s := (((s.set CLY_MST_STAT_SELF 0).set CLY_MST_STAT_DEPOSED 1).set CLY_MST_CFG_MROLE 0).set LDG_CC_CFG_ROLE 2
  let s := (s.clyCount CLY_DEPOSALS_DEPOSALS).setInt clyPage 3
  if s.get CLY_RW_STAT_RUNNING = 1 then s.rwEnd 4 else s

/-- Claim `c` of device `i` becomes the accepted one (R363, R370); the last TAG was that of the master before (R362, DEDUCED). -/
def State.setMaster (s : State) (i c : Nat) : State :=
  let other := !s.fromMaster i
  let changed := s.get CLY_MST_CUR_CLAIM != c
  let s := ((s.set CLY_MST_STAT_MASTER i).set CLY_MST_STAT_VALID 1).set CLY_MST_CUR_CLAIM c
  let s := if other then s.rollBack2.setInt clyPage 1 else s
  let s := if i = s.ownDev then s.set CLY_MST_STAT_SELF 1 else if s.get CLY_MST_STAT_SELF = 1 then s.depose else s
  let s := { s with cly := { s.cly with
    heardAt := s.now
    lastTag := if other then none else s.cly.lastTag } }
  if changed then s.ckptDue else s

/-- Whether announcement (`c`, `i`) is accepted (R363): from the current master, one that beats it, or any while there is none. -/
def State.accepts (s : State) (i c : Nat) : Bool :=
  s.get CLY_MST_STAT_VALID == 0 || s.get CLY_MST_STAT_MASTER == i || precedes (s.get CLY_MST_CUR_CLAIM) c ||
    (s.get CLY_MST_CUR_CLAIM == c && decide (i < s.get CLY_MST_STAT_MASTER))

/-- A MASTER message to every device of the reach table. -/
def State.announce (s : State) (c rel : Nat) : State :=
  forEach s.reachDevs (fun d s => s.sendCtrl d (leBytes 4 15 ++ leBytes 4 c ++ leBytes 1 rel))
    { s with cly := { s.cly with annAt := some s.now } }

/-- HB_US as it acts. -/
def State.hbUs (s : State) : Nat := max 10 (s.get CLY_MST_CFG_HB_US)

/-- MASTER_ANNOUNCE (R348, R363): at enable, then every HB_US; the announcing device weighs its own announcement as any other. -/
def execMasterAnnounce (s : State) : Host.Outcome State Fault Refusal :=
  let due := match s.cly.annAt with | none => true | some t => s.elapsedUs t s.hbUs
  if s.get CLY_MST_CFG_MROLE = 1 && s.cfg (ctlEn clyPage) == 1 && !s.safe && due then
    let c := if s.get CLY_MST_STAT_SELF = 1 then s.get CLY_MST_CUR_CLAIM else s.get CLY_MST_CLAIM_CLAIM
    let s := s.announce c 0
    .next (if s.accepts s.ownDev c then s.setMaster s.ownDev c else s)
  else .next s

/-! ### Checkpoints (R365, R366) -/

/-- PHASE of a checkpoint: 2 once GO is decided, 1 while preparing, else 0 (Table 16.5). -/
def State.ckptPhase (s : State) : Nat :=
  if s.ldg.cc.goPend || s.get LDG_CC_STAT_PHASE = 3 then 2 else if s.get LDG_CC_STAT_PHASE = 0 then 0 else 1

/-- The bytes of a checkpoint with a SEQ and the software section (Table 16.5). -/
def State.ckptBytes (s : State) (seq : Nat) (sw : List Byte) : List Byte :=
  let n := min 3768 (s.get CLY_CKPT_CFG_SW_LEN)
  let b := leBytes 4 seq ++ leBytes 4 (s.get CLY_MST_CUR_CLAIM) ++ leBytes 4 (s.get LDG_CC_EPOCH_EPOCH) ++ leBytes 1 s.ckptPhase ++
    leBytes 3 s.ccSlot ++ leBytes 4 (s.get LDG_CC_TIME_LO_TIME) ++ leBytes 4 (s.get LDG_CC_TIME_HI_TIME) ++ List.replicate 40 0 ++
    ((List.range 64).flatMap fun w => leBytes 4 (s.get (LDG_CC_MASK_DEV w))) ++ bytesAt (sw.take n) 0 3768
  b ++ leBytes 4 (crc 0x04C11DB7 0xFFFFFFFF b).toNat ++ leBytes 4 seq

/-- The last checkpoint leaves as 16 CKPT cells, part 15 last (R354, R365). -/
def State.ckptCells (s : State) : State :=
  let d := s.get CLY_CKPT_STBY_STBY
  let b := s.cly.ckpt
  let s := { s with cly := { s.cly with
    ckAt := s.now
    ckAcked := false } }
  forEach (List.range 16) (fun i s =>
    let q := s.takeSeq (16 * d + 8)
    q.2.sendCell { type := 4, dst := d, src := s.ownDev, seq := q.1, part := i, payload := bytesAt b (256 * i) 256 } true) s

/-- CHECKPOINT_SEND (R365, R368): on its period, on a change, or as the final one of a HANDOVER; `sw` is the software section that the host's
memory gave. -/
def execCheckpointSend (sw : Fetched) (s : State) : Host.Outcome State Fault Refusal :=
  let final := s.cly.ho == 1 && s.get LDG_CC_STAT_PHASE == 0
  let period := max 1 (s.get CLY_CKPT_CFG_PERIOD_MS) * 1000
  if s.get CLY_MST_STAT_SELF = 1 && s.get CLY_CKPT_STBY_EN == 1 && (s.cly.ckDue || final || s.elapsedUs s.cly.ckAt period) then
    match (if s.get CLY_CKPT_CFG_SW_LEN = 0 then .bytes [] else sw) with
    | .failed => .next (s.dmaErr (s.hostAddr CLY_CKPT_SRC_LO))
    | .bytes b =>
      let seq := (s.cly.ckSeq + 1) % 2 ^ 32
      .next ({ s with cly := { s.cly with
        ckSeq := seq
        ckDue := false
        ho := if final then 2 else s.cly.ho
        ckpt := s.ckptBytes seq b } }).ckptCells
  else .next s

/-- CHECKPOINT_RESEND (R365): not acknowledged within 100 µs. -/
def execCheckpointResend (s : State) : Host.Outcome State Fault Refusal :=
  if s.get CLY_MST_STAT_SELF = 1 && s.get CLY_CKPT_STBY_EN == 1 && !s.cly.ckAcked && s.elapsedUs s.cly.ckAt 100 then .next s.ckptCells
  else .next s

/-- The old master hands over (R368 steps 3 and 5). -/
def State.handOver (s : State) : State :=
  let s := (s.announce (s.get CLY_MST_CUR_CLAIM) 1).set CLY_MST_CFG_MROLE 2
  let s := (s.set CLY_MST_STAT_SELF 0).set LDG_CC_CFG_ROLE 2
  let s := { s with cly := { s.cly with
    ho := 0
    heardAt := s.now } }
  (s.set CLY_MST_RESULT_RESULT 1).setInt clyPage 4

/-- CKPT_ACK_MESSAGE (R365, R366, R368): the standby holds the checkpoint; a GO or a HANDOVER that waits for it goes on. -/
def execCkptAckMessage (s : State) : Host.Outcome State Fault Refusal :=
  match s.popMsg 16 with
  | none => .next s
  | some (m, s) =>
    let seq := m.num 4 4
    if m.src ≠ s.get CLY_CKPT_STBY_STBY then .next s
    else
      let s := s.set CLY_CKPT_STAT_ACKED (seq % 65536)
      if seq ≠ s.cly.ckSeq then .next s
      else
        let s := { s with cly := { s.cly with ckAcked := true } }
        if s.ldg.cc.goPend && byteAt s.cly.ckpt 12 == 2 then .next s.ccGo
        else if s.cly.ho = 2 then .next s.handOver
        else .next s

/-- STBY_LOST (R366, R370): no acknowledgement within 1 ms of READY from every device; ABORT instead of GO. -/
def execStbyLost (s : State) : Host.Outcome State Fault Refusal :=
  if s.ldg.cc.goPend && s.elapsedUs s.ldg.cc.readyAt 1000 then
    .next ((((s.set CLY_MST_STAT_STBY_LOST 1).setInt clyPage 6).raise clyPage 3).ccAbort 4)
  else .next s

/-! ### Takeover (R367) -/

/-- The latest valid checkpoint (R365). -/
def State.checkpoint (s : State) : Option (List Byte) :=
  s.cly.valid.map fun second => if second then s.cly.store1 else s.cly.store0

/-- The claim that a takeover forms (R367 step 3). -/
def State.nextClaim (s : State) : Nat :=
  ((match s.checkpoint with | some b => leNat (bytesAt b 4 4) | none => s.get CLY_MST_CUR_CLAIM) + 1) % 2 ^ 32

/-- Steps 3 to 6 of Table 16.6. -/
def State.takeOver (s : State) : State :=
  let c := s.nextClaim
  let s := ((s.set CLY_MST_CFG_MROLE 1).set LDG_CC_CFG_ROLE 1).set CLY_CKPT_STBY_EN 0
  let s := (s.setMaster s.ownDev c).announce c 0
  match s.checkpoint with
  | none => s
  | some b =>
    let s := forEach (List.range 64) (fun w s => s.set (LDG_CC_MASK_DEV w) (leNat (bytesAt b (64 + 4 * w) 4))) s
    let ph := byteAt b 12
    if ph = 0 then s
    else
      let s := ((s.set LDG_CC_STAT_SLOT (byteAt b 13 % 16)).set LDG_CC_EPOCH_EPOCH (leNat (bytesAt b 8 4))).setCc { s.ldg.cc with doneDev := [] }
      if ph = 1 then s.ccAbort 4
      else
        let s := ((s.set LDG_CC_TIME_LO_TIME (leNat (bytesAt b 16 4))).set LDG_CC_TIME_HI_TIME (leNat (bytesAt b 20 4)))
        let late := s.get LDG_CC_STAT_PHASE ≠ 3 && s.ccPrepared s.ccSlot (s.get LDG_CC_EPOCH_EPOCH) &&
          s.reached (s.get LDG_CC_TIME_HI_TIME) (s.get LDG_CC_TIME_LO_TIME)
        let s := s.ccGo
        let s := if late then s.set LDG_CC_STAT_LATE 1 else s
        if s.ccDue then s.ccCommit else s

/-- A rehearsal in progress ends with a RESULT (R369, R370). -/
def State.rehEnd (s : State) (r dev us : Nat) : State :=
  let s := { s with cly := { s.cly with rehWait := [] } }
  (((s.set CLY_MST_RESULT_RESULT r).set CLY_MST_RESULT_DEV dev).set CLY_MST_RESULT_DUR_US (min us 65535)).setInt clyPage 4

/-- A rehearsal is in progress. -/
def State.rehearsing (s : State) : Bool := !s.cly.rehWait.isEmpty

/-- TAKEOVER (R367, R369, R370): the standby has missed MISS announcements of its master. -/
def execTakeover (s : State) : Host.Outcome State Fault Refusal :=
  let us := max 1 (s.get CLY_MST_CFG_MISS) * s.hbUs
  if s.get CLY_MST_CFG_MROLE = 2 && s.get CLY_MST_STAT_VALID == 1 && s.cfg (ctlEn clyPage) == 1 && s.elapsedUs s.cly.heardAt us then
    let s := if s.rehearsing then s.rehEnd 6 0 0 else s
    let s := (((s.set CLY_MST_STAT_TOOK_OVER 1).setInt clyPage 2).clyCount CLY_TAKEOVERS_TAKEOVERS).raise clyPage 2
    .next s.takeOver
  else .next s

/-- MASTER_MESSAGE (R363, R364, R368): an announcement is accepted or ignored; RELEASE makes the standby take over at once, with the old
master as its standby. -/
def execMasterMessage (s : State) : Host.Outcome State Fault Refusal :=
  match s.popMsg 15 with
  | none => .next s
  | some (m, s) =>
    let c := m.num 4 4
    if !s.accepts m.src c then .next s
    else
      let s := s.setMaster m.src c
      if bit (byteAt m.b 8) 0 && s.get CLY_MST_CFG_MROLE == 2 then
        .next ((s.takeOver.set CLY_CKPT_STBY_STBY m.src).set CLY_CKPT_STBY_EN 1)
      else .next s

/-! ### Handover and rehearsal (R368, R369) -/

/-- A HANDOVER command (R368): on the master; it waits for a cascade commit in progress. -/
def State.handoverCmd (s : State) : State :=
  if s.get CLY_MST_STAT_SELF = 1 then
    ({ s with cly := { s.cly with
      ho := 1
      hoAt := s.now } }).set CLY_MST_RESULT_RESULT 7
  else s

/-- HANDOVER_TIMEOUT (R368): a cascade commit has been in progress for 10 ms. -/
def execHandoverTimeout (s : State) : Host.Outcome State Fault Refusal :=
  if s.cly.ho = 1 && s.get LDG_CC_STAT_PHASE ≠ 0 && s.elapsedUs s.cly.hoAt 10000 then
    .next ((({ s with cly := { s.cly with ho := 0 } }).set CLY_MST_RESULT_RESULT 5).setInt clyPage 4)
  else .next s

/-- The devices of a checkpoint's mask other than this one. -/
def State.ckptDevs (s : State) (b : List Byte) : List Nat :=
  (List.range 2048).filter fun d => bit (byteAt b (64 + d / 8)) (d % 8) && d != s.ownDev

/-- A REHEARSE command (R369). -/
def State.rehearseCmd (s : State) : State :=
  if s.get CLY_MST_CFG_MROLE ≠ 2 then s.rehEnd 4 0 0
  else match s.checkpoint with
    | none => s.rehEnd 2 0 0
    | some b =>
      let tag := (s.cly.rehTag + 1) % 2 ^ 16
      let ds := s.ckptDevs b
      let c := s.nextClaim
      let s := { s with cly := { s.cly with
        rehTag := tag
        rehAt := s.now
        rehWait := ds } }
      let s := (s.ccSend (leBytes 1 17 ++ leBytes 3 tag ++ leBytes 4 c) ds).set CLY_MST_RESULT_RESULT 7
      if ds.isEmpty then s.rehEnd 1 0 0 else s

/-- PROBE_MESSAGE (R369): answered, and nothing changes. -/
def execProbeMessage (s : State) : Host.Outcome State Fault Refusal :=
  match s.popMsg 17 with
  | none => .next s
  | some (m, s) => .next (s.sendCtrl m.src ([18] ++ bytesAt m.b 1 2))

/-- PROBE_ACK_MESSAGE (R369): the last answer ends the rehearsal OK. -/
def execProbeAckMessage (s : State) : Host.Outcome State Fault Refusal :=
  match s.popMsg 18 with
  | none => .next s
  | some (m, s) =>
    if s.rehearsing && m.num 1 2 == s.cly.rehTag && s.cly.rehWait.contains m.src then
      let w := s.cly.rehWait.filter fun d => d != m.src
      let s := { s with cly := { s.cly with rehWait := w } }
      .next (if w.isEmpty then s.rehEnd 1 0 ((s.now - s.cly.rehAt) / 1000) else s)
    else .next s

/-- REHEARSE_TIMEOUT (R369): a device has not answered for 1 ms; the lowest silent one is named. -/
def execRehearseTimeout (s : State) : Host.Outcome State Fault Refusal :=
  if s.rehearsing && s.elapsedUs s.cly.rehAt 1000 then
    .next (s.rehEnd 3 (s.cly.rehWait.foldl min 2047) ((s.now - s.cly.rehAt) / 1000))
  else .next s

end Sys2Proof.Machine
end

