-- ==== Sys2Proof/Machine/HostLink.lean ====
section
/-! DEFINITION. The host link (17 R371–R386, R397, R398): doorbells, rings, fetching, inject, punt and completion records. -/

namespace Sys2Proof.Machine

open Reg

/-! ### Rings (R374–R377) -/

/-- Replace a submission ring. -/
def State.setSring (s : State) (n : Nat) (r : SRing) : State :=
  { s with hif := { s.hif with sr := Tbl.set (fun _ => {}) s.hif.sr n r } }

/-- Entries of a submission ring: 2^LOGSZ. -/
def SRing.size (r : SRing) : Nat := 2 ^ r.logsz

/-- Fill of a submission ring (R375). -/
def SRing.fill (r : SRing) : Nat := (r.tail + 2 ^ 16 - r.head) % 2 ^ 16

/-- A doorbell is ignored (R375, R376). -/
def State.dbErr (s : State) : State := (s.count HIF_DB_ERR_DB_ERR hifPage 7).setInt hifPage 0

/-- SUBMISSION_DOORBELL (R375): ring number `n` by its address, the word written. -/
def execSubmissionDoorbell (n : Fin 2048) (w : Word) (s : State) : Host.Outcome State Fault Refusal :=
  let r := s.sring n
  let t := bits w.toNat 0 16
  if s.resetting hifPage then .next s
  else if bits w.toNat 16 16 ≠ n.val || !r.en || decide (r.size - r.fill < (t + 2 ^ 16 - r.tail) % 2 ^ 16) then .next s.dbErr
  else .next (s.setSring n { r with tail := t })

/-- COMPLETION_DOORBELL (R376, R385, R397): the records passed are consumed; the timestamp queue may go on (R386). -/
def execCompletionDoorbell (n : Fin 2048) (w : Word) (s : State) : Host.Outcome State Fault Refusal :=
  let r := s.cring n
  let h := bits w.toNat 0 16
  let d := (h + 2 ^ 16 - r.head) % 2 ^ 16
  if s.resetting hifPage then .next s
  else if bits w.toNat 16 16 ≠ n.val || !r.en || decide (r.fill < d) then .next s.dbErr
  else .next (s.setCring n { r with
    head := h
    born := r.born.drop d }).tsDrain

/-- The record of an RXBUF entry (Table 17.3): FLAGS, ring, index, bytes written, the entry's COOKIE and the frame's bytes 12–15. -/
def rxRecord (flags ring idx n : Nat) (entry info : List Byte) : List Byte :=
  leBytes 1 5 ++ leBytes 1 flags ++ leBytes 2 ring ++ leBytes 2 idx ++ leBytes 2 n ++ bytesAt entry 4 4 ++ bytesAt info 0 4

/-- The record of an RXBUF entry that carries no frame (R377, R382): the frame's fields are free (log 4). -/
def State.rxNoFrame (s : State) (cq flags ring idx : Nat) (entry : List Byte) : State :=
  let w := s.fresh
  w.2.formReserved cq (rxRecord flags ring idx 0 entry (leBytes 3 w.1.toNat ++ [0]))

/-- A disabled RXBUF ring returns the entries that it has cached (R377). -/
def State.returnCache (s : State) (n : Nat) : State :=
  let r := s.sring n
  forEach r.cache (fun e t => t.rxNoFrame r.cq 4 n e.1 e.2) (s.setSring n { r with cache := [] })

/-- A 64-bit value of two data words. -/
def State.ringWord64 (s : State) (i : Nat) : Nat :=
  (s.rd (HIF_RING_DATA i)).toNat + 2 ^ 32 * (s.rd (HIF_RING_DATA (i + 1))).toNat

/-- The submission ring that DATA0–7 describe (Table 17.5), over the ring's own position. -/
def State.ringSub (s : State) (r : SRing) : SRing :=
  let w2 := (s.rd (HIF_RING_DATA 2)).toNat
  let w3 := (s.rd (HIF_RING_DATA 3)).toNat
  { r with
    base := s.ringWord64 0 / 64 * 64
    en := bit w2 0
    inject := !bit w2 1
    logsz := bits w2 2 4
    eng := bits w2 6 4
    slice := bits w2 10 4
    cq := bits w2 16 11
    weight := bits w3 0 8
    burst := bits w3 8 7 }

/-- The completion ring that DATA0–7 describe (Table 17.6). -/
def State.ringCpl (s : State) (r : CRing) : CRing :=
  let w2 := (s.rd (HIF_RING_DATA 2)).toNat
  { r with
    base := s.ringWord64 0 / 64 * 64
    en := bit w2 0
    logsz := bits w2 1 4
    thresh := bits w2 16 16
    timer := bits (s.rd (HIF_RING_DATA 3)).toNat 0 16
    wb := s.ringWord64 4 / 4 * 4 }

/-- End of a ring command (R377, R398). -/
def State.ringResult (s : State) (r : Nat) : State :=
  let t := s.set HIF_RING_STAT_RESULT r
  if r = 1 then t else t.setInt hifPage 6

/-- LOGSZ lies in 6–15. -/
def logszOk (n : Nat) : Bool := decide (6 ≤ n) && decide (n ≤ 15)

/-- A WRITE of a submission ring (R377). -/
def State.writeSub (s : State) (n : Nat) : State :=
  let o := s.sring n
  let r := s.ringSub o
  if o.en && ({ r with
      weight := o.weight
      burst := o.burst
      en := o.en } != o) then s.ringResult 2
  else if !logszOk r.logsz || (r.en && !o.en && !(s.cring r.cq).en) ||
      (r.en && !o.en && r.inject && s.hif.sr.any fun x => x.1 != n && x.2.en && x.2.inject && x.2.slice != r.slice) then s.ringResult 3
  else if r.en && !o.en then
    (s.setSring n { r with
      head := 0
      tail := 0
      err := false }).ringResult 1
  else if o.en && !r.en then ((s.setSring n r).returnCache n).ringResult 1
  else (s.setSring n r).ringResult 1

/-- A WRITE of a completion ring (R377). -/
def State.writeCpl (s : State) (n : Nat) : State :=
  let o := s.cring n
  let r := s.ringCpl o
  if o.en && ({ r with
      thresh := o.thresh
      timer := o.timer
      en := o.en } != o) then s.ringResult 2
  else if o.en && !r.en && ((s.hif.sr.any fun x => x.2.en && x.2.cq == n) || o.r != 0) then s.ringResult 2
  else if !logszOk r.logsz then s.ringResult 3
  else if r.en && !o.en then
    (s.setCring n { r with
      head := 0
      tail := 0
      born := [] }).ringResult 1
  else (s.setCring n r).ringResult 1

/-- The ring WRITE command; a ring that it enables may take a waiting timestamp record (R386). -/
def State.ringWrite (s : State) : State :=
  (if s.get HIF_RING_SEL_CQ = 1 then s.writeCpl (s.get HIF_RING_SEL_INDEX) else s.writeSub (s.get HIF_RING_SEL_INDEX)).tsDrain

/-- Load DATA0–7. -/
def State.loadRing (s : State) (l : List Nat) : State :=
  forEach (List.range 8) (fun i t => t.wr (HIF_RING_DATA i) (BitVec.ofNat 32 (l.getD i 0))) s

/-- The ring READ command (Tables 17.5 and 17.6). -/
def State.ringRead (s : State) : State :=
  let n := s.get HIF_RING_SEL_INDEX
  let t :=
    if s.get HIF_RING_SEL_CQ = 1 then
      let r := s.cring n
      s.loadRing [r.base, r.base / 2 ^ 32, b2n r.en + r.logsz * 2 + r.thresh * 2 ^ 16, r.timer, r.wb, r.wb / 2 ^ 32,
        r.head + r.tail * 2 ^ 16, r.hold.length + r.r * 2 ^ 16]
    else
      let r := s.sring n
      s.loadRing [r.base, r.base / 2 ^ 32,
        b2n r.en + b2n (!r.inject) * 2 + r.logsz * 4 + r.eng * 64 + r.slice * 1024 + r.cq * 2 ^ 16,
        r.weight + r.burst * 256 + b2n r.err * 2 ^ 31, r.head + r.tail * 2 ^ 16, r.cache.length]
  t.ringResult 1

/-! ### Fetching (R378) -/

/-- Places that completion ring `c` permits to reserve (R385). -/
def CRing.permits (r : CRing) : Nat := if r.stop then 0 else r.free + 32 - r.r

/-- Entries of an RXBUF ring cached, or fetched and on their way. -/
def SRing.cached (r : SRing) : Nat := r.cache.length + r.fetched.length

/-- A submission ring is eligible (R378). -/
def State.fetchable (s : State) (r : SRing) : Bool :=
  r.en && r.fill != 0 && (s.cring r.cq).permits != 0 && (r.inject || decide (r.cached < 16))

/-- The rings bound to an engine. -/
def State.boundRings (s : State) (e : Nat) : List (Nat × SRing) := s.hif.sr.filter fun x => x.2.eng == e

/-- The next ring of an engine with credit, after the ring that it visited last, wrapping after 2,047. -/
def State.nextRing (s : State) (e : Nat) : Option Nat :=
  let p := Tbl.get (fun _ => 0) s.hif.engP e
  let l := ((s.boundRings e).filter fun x => s.fetchable x.2 && x.2.credit != 0).map fun x => x.1
  (l.find? fun r => decide (p < r)).or l.head?

/-- A new round: every ring bound to the engine has its WEIGHT as credit; 0 acts as 1. -/
def State.newRound (s : State) (e : Nat) : State :=
  forEach (s.boundRings e) (fun x t => t.setSring x.1 { x.2 with credit := max 1 x.2.weight }) s

/-- One visit of ring `n` by its engine. -/
def State.visitRing (s : State) (n : Nat) : State :=
  let r := s.sring n
  let c := s.cring r.cq
  let k := min (min (min 64 (max 1 r.burst)) r.fill) c.permits
  let k := if r.inject then k else min k (16 - r.cached)
  let new := (List.range k).map fun i => Fetch.mk ((r.head + i) % 2 ^ 16) r.inject r.cq r.slice
  let t := s.setSring n { r with
    head := (r.head + k) % 2 ^ 16
    credit := r.credit - 1
    fetched := r.fetched ++ new }
  let t := { t with hif := { t.hif with engP := Tbl.set (fun _ => 0) t.hif.engP r.eng n } }
  t.setCring r.cq { c with reserved := c.reserved + k }

/-- RING_FETCH (R378, R385): one visit of fetch engine `e`. -/
def execRingFetch (e : Fin 16) (s : State) : Host.Outcome State Fault Refusal :=
  if s.get (ctlEn hifPage) ≠ 1 then .next s
  else
    match s.nextRing e with
    | some n => .next (s.visitRing n)
    | none =>
      if (s.boundRings e).any fun x => s.fetchable x.2 then
        let t := s.newRound e
        match t.nextRing e with
        | some n => .next (t.visitRing n)
        | none => .next t
      else .next s

/-! ### Entries (R379, R380, R382) -/

/-- The bytes `[i, i + n)` of an entry are zero. -/
def zeroAt (e : List Byte) (i n : Nat) : Bool := (bytesAt e i n).all fun b => b == 0

/-- LEN of an entry. -/
def entryLen (e : List Byte) : Nat := leNat (bytesAt e 2 2)

/-- ADDR of an entry. -/
def entryAddr (e : List Byte) : Nat := leNat (bytesAt e 8 8)

/-- INDIR of an INJECT entry. -/
def entryIndir (e : List Byte) : Bool := bit (byteAt e 1) 0

/-- BYPASS of an INJECT entry. -/
def entryBypass (e : List Byte) : Bool := bit (byteAt e 1) 1

/-- MCAST of a BYPASS entry. -/
def entryMcast (e : List Byte) : Bool := bit (byteAt e 19) 5

/-- NFRAG of an INJECT entry. -/
def entryFrags (e : List Byte) : Nat := leNat (bytesAt e 22 2)

/-- An INJECT entry passes its check (R379, Table 17.1). -/
def injectOk (e : List Byte) : Bool :=
  byteAt e 0 == 1 && decide (byteAt e 1 < 4) && decide (60 ≤ entryLen e) && decide (entryLen e ≤ 15996) &&
    (if entryBypass e then
       decide (leNat (bytesAt e 16 3) < if entryMcast e then 2 ^ 16 else 2 ^ 17) && decide (byteAt e 19 < 64)
     else zeroAt e 16 4) &&
    decide (byteAt e 20 < 8) && zeroAt e 21 1 &&
    (if entryIndir e then decide (1 ≤ entryFrags e) && decide (entryFrags e ≤ 64) else zeroAt e 22 2) && zeroAt e 24 8

/-- An RXBUF entry passes its check (R382, Table 17.2). -/
def rxbufOk (e : List Byte) : Bool := byteAt e 0 == 2 && zeroAt e 1 1 && decide (64 ≤ entryLen e) && zeroAt e 16 16

/-- A bad entry is counted (R379). -/
def State.badEnt (s : State) : State := (s.count HIF_BADENT_BADENT hifPage 7).setInt hifPage 1

/-- An entry's reservation ends without a record. -/
def State.unreserve (s : State) (c : Nat) : State :=
  let r := s.cring c
  s.setCring c { r with reserved := r.reserved - 1 }

/-- An accepted INJECT entry asks for its buffer (R380). -/
def State.acceptInject (s : State) (n : Nat) (x : Fetch) (e : List Byte) : State :=
  let f := s.newFrame { iport := 256, iclass := byteAt e 20, slice := x.slice }
  let t := f.2.requestBuf f.1 16 (entryLen e + 4)
  { t with hif := { t.hif with injects := t.hif.injects ++ [Inject.mk n x.cq x.idx e f.1] } }

/-- ENTRY_FETCHED (R378, R379, R382): the next entry fetched by ring `n` arrives, or its read fails. -/
def execEntryFetched (n : Fin 2048) (e : Fetched) (s : State) : Host.Outcome State Fault Refusal :=
  let r := s.sring n
  match r.fetched with
  | [] => .next s
  | x :: rest =>
    let t := s.setSring n { r with fetched := rest }
    match e with
    | .failed =>
      .next (((t.setSring n { r with
        fetched := rest
        en := false
        err := true }).unreserve x.cq).returnCache n |>.dmaErr (r.base + 32 * (x.idx % r.size)))
    | .bytes b =>
      let b := bytesAt b 0 32
      if x.inject then
        if injectOk b then .next (t.acceptInject n x b) else .next (t.badEnt.injectRecord x.cq n x.idx 1 0 b)
      else if !rxbufOk b then .next (t.badEnt.rxNoFrame x.cq 8 n x.idx b)
      else if !r.en then .next (t.rxNoFrame x.cq 4 n x.idx b)
      else .next (t.setSring n { r with
        fetched := rest
        cache := r.cache ++ [(x.idx, b)] })

/-- A fragment table keeps its rules (R379): 16-byte alignment, lengths of 1 or more that add up to LEN, zero bytes. -/
def fragsOk (e t : List Byte) : Bool :=
  let k := List.range (entryFrags e)
  entryAddr e % 16 == 0 && (k.all fun i => decide (1 ≤ leNat (bytesAt t (16 * i + 8) 4)) && zeroAt t (16 * i + 12) 4) &&
    (k.map fun i => leNat (bytesAt t (16 * i + 8) 4)).sum == entryLen e

/-- An accepted entry ends without a frame: its buffer is freed and its record formed (R380). -/
def State.endInject (s : State) (x : Inject) (status : Nat) : State :=
  ({ s with hif := { s.hif with injects := s.hif.injects.filter fun y => y.frame != x.frame } }.endPassage x.frame).injectRecord
    x.cq x.ring x.idx status 0 x.entry

/-- The data of an accepted entry is in its buffer (R380): the frame gains its FCS and its head enters the head queue. -/
def State.injectFrame (s : State) (x : Inject) (b : List Byte) : State :=
  let e := x.entry
  let byp := entryBypass e
  let b := bytesAt b 0 (entryLen e)
  let d := leNat (bytesAt e 16 3)
  let s := s.modFrame x.frame fun f => { f with
    bytes := b ++ fcsOf b
    ended := true
    fcs := some true
    t := s.tbNs
    tf := s.tb.frac / 2 ^ 24
    bypass := byp
    mcast := byp && entryMcast e
    group := if byp && entryMcast e then d else 0
    voqid := if byp && !entryMcast e then d else 0
    tc := bits (byteAt e 19) 0 3
    dp := bits (byteAt e 19) 3 2 }
  let s := { s with hif := { s.hif with injects := s.hif.injects.filter fun y => y.frame != x.frame } }
  ((s.enterHeadQ x.frame).injectRecord x.cq x.ring x.idx 0 0 e).count HIF_INJ_FRAMES_INJ_FRAMES hifPage 7

/-- INJECT_DATA_READ (R380): the data of the oldest INJECT entry whose buffer is granted is read, with its fragment table where it has
one; `frag` names the fragment whose read failed. -/
def execInjectDataRead (table data : Fetched) (frag : Fin 64) (s : State) : Host.Outcome State Fault Refusal :=
  match s.hif.injects.find? fun x => (s.frame x.frame).buf.isSome with
  | none => .next s
  | some x =>
    let a := entryAddr x.entry
    let done (s : State) (at' : Nat) : State :=
      match data with
      | .bytes b => s.injectFrame x b
      | .failed => (s.endInject x 2).dmaErr at'
    if !entryIndir x.entry then .next (done s a)
    else
      match table with
      | .failed => .next ((s.endInject x 2).dmaErr a)
      | .bytes t =>
        if fragsOk x.entry t then .next (done s (leNat (bytesAt t (16 * frag.val) 8))) else .next ((s.endInject x 1).badEnt)

/-! ### Punting (R381, R382) -/

/-- Egress queue of port 256. -/
def hostQ : Nat := eqKey 256 0

/-- A frame leaves port 256's egress queue. -/
def State.leaveHostQ (s : State) (id : Nat) : State := (s.setEqQ hostQ ((s.eqQ hostQ).filter fun i => i != id)).refreshXoff 256

/-- One cached entry takes bytes of the head frame (R382): the host buffer, the record, and at the frame's end its counters. -/
def State.puntEntry (s : State) (id n idx : Nat) (entry : List Byte) : State :=
  let f := s.frame id
  let b := f.txBody
  let k := min (entryLen entry) (b.length - f.punted)
  let last := f.punted + k = b.length
  let flags := b2n (f.punted = 0) + 2 * b2n last
  let info := leBytes 2 (f.iport % 512) ++ leBytes 1 (f.tc % 8 + 8 * (f.dp % 4)) ++ [0]
  let s := s.hostWrite (entryAddr entry) (bytesAt b f.punted k)
  let s := s.formReserved (s.sring n).cq (rxRecord flags n idx k entry info)
  if last then
    (((s.leaveHostQ id).portCnt 256 8).portCnt 256 9 (b.length + 4)).count HIF_PUNT_FRAMES_PUNT_FRAMES hifPage 7 |>.endPassage id
  else s.modFrame id fun f => { f with punted := f.punted + k }

/-- PUNT_DELIVER (R382, R398): the head frame of port 256 fills the next cached entry of its TC's ring; `bad` is an uncorrectable
error of the cached entry, which is lost. -/
def execPuntDeliver (bad : Bool) (s : State) : Host.Outcome State Fault Refusal :=
  let s := s.purgeBad 256
  match s.eqQ hostQ with
  | [] => .next s
  | id :: _ =>
    let n := s.get (HIF_PUNT_MAP_RING ((s.frame id).tc % 8))
    let r := s.sring n
    match r.cache with
    | [] => .next s
    | (idx, e) :: rest =>
      if !s.hostPortUp || !(s.cring r.cq).canTake then .next s
      else
        let s := s.setSring n { r with cache := rest }
        if bad then .next ((s.unreserve r.cq).raise hifPage 1) else .next (s.puntEntry id n idx e)

/-- PUNT_FLUSH (R381): while port 256 is down the frame at the head of its queue is discarded. -/
def execPuntFlush (s : State) : Host.Outcome State Fault Refusal :=
  match s.eqQ hostQ with
  | [] => .next s
  | id :: _ =>
    if s.hostPortUp then .next s
    else .next ((((s.leaveHostQ id).endPassage id).count HIF_PUNT_FLUSH_PUNT_FLUSH hifPage 7).setInt hifPage 5)

/-! ### Records (R384, R397) -/

/-- The tail writeback of a ring (R384): TAIL and the ring number. -/
def State.tailWriteback (s : State) (c : Nat) : State :=
  let r := s.cring c
  if r.wbDue then (s.setCring c { r with wbDue := false }).hostWrite r.wb (leBytes 2 r.tail ++ leBytes 2 c) else s

/-- RECORD_WRITE (R384, R385, R386, R398): the oldest held record of a ring takes a free place; `bad` is an uncorrectable error of the hold,
which loses the record. -/
def execRecordWrite (c : Fin 2048) (bad : Bool) (s : State) : Host.Outcome State Fault Refusal :=
  let r := s.cring c
  match r.hold with
  | [] => .next s
  | rec' :: rest =>
    if s.get (ctlEn hifPage) ≠ 1 || r.free = 0 then .next s
    else if bad then .next ((s.setCring c { r with hold := rest }).raise hifPage 1).tsDrain
    else
      let t := s.hostWrite (r.base + 16 * (r.tail % r.size)) rec'
      .next (t.setCring c { r with
        hold := rest
        tail := (r.tail + 1) % 2 ^ 16
        wbDue := r.wb != 0
        born := r.born ++ [s.now] }).tsDrain

/-- TAIL_WRITEBACK (R384). -/
def execTailWriteback (c : Fin 2048) (s : State) : Host.Outcome State Fault Refusal :=
  .next (if s.get (ctlEn hifPage) = 1 then s.tailWriteback c else s)

/-- COMPLETION_TIMER (R397): the ring's source follows the age of its oldest record. -/
def execCompletionTimer (c : Fin 2048) (s : State) : Host.Outcome State Fault Refusal := .next (s.setCring c (s.cring c))

/-! ### The link (R371, R394) -/

/-- PCIE_LINK_TRAINED (R371): the link is in L0 at its speed code, lanes and mode. -/
def execPcieLinkTrained (speed : Fin 6) (width : Fin 5) (flit : Bool) (s : State) : Host.Outcome State Fault Refusal :=
  .next ((((s.set HIF_LINK_STAT_SPEED (speed.val + 1)).set HIF_LINK_STAT_WIDTH (2 ^ width.val)).set HIF_LINK_STAT_FLIT (b2n flit)).set HIF_LINK_STAT_LPM 0)

/-- PCIE_DSTATE_CHANGE (R371, R394): the function moves between D0 and D3hot; `pme` is PME_En. -/
def execPcieDstateChange (d3 pme : Bool) (s : State) : Host.Outcome State Fault Refusal :=
  .next { (s.set HIF_LINK_STAT_DSTATE (if d3 then 3 else 0)) with hif := { s.hif with pmeEn := pme } }

/-- PCIE_L1_ENTRY (R371): the idle link enters L0p, L1 or an L1 substate. -/
def execPcieL1Entry (lpm : Fin 3) (s : State) : Host.Outcome State Fault Refusal :=
  .next (if s.get HIF_LINK_STAT_SPEED = 0 then s else s.set HIF_LINK_STAT_LPM (lpm.val + 1))

end Sys2Proof.Machine
end

