-- ==== Sys2Proof/Machine/Icu.lean ====
section
/-! DEFINITION. The interrupt controller (17 R387–R396, R399): sources, targets, messages, claims and ends of interrupt. -/

namespace Sys2Proof.Machine

open Reg

/-- ICU page 0 (17). -/
def icuPage : Nat := 0x50000

/-- A source. -/
def State.isrc (s : State) (n : Nat) : ISrc := Tbl.get (fun _ => {}) s.icu.src n

/-- Replace a source; a pending source whose TARGET delivers nowhere sets SRC_ERR (R390, R399). -/
def State.setIsrc (s : State) (n : Nat) (x : ISrc) : State :=
  let o := s.isrc n
  let bad (y : ISrc) : Bool := y.p && y.bound.isNone && decide (256 < y.tgt)
  let t := { s with icu := { s.icu with src := Tbl.set (fun _ => {}) s.icu.src n x } }
  if bad x && !(bad o && o.tgt == x.tgt) then t.setInt icuPage 1 else t

/-- A target; 256 is the island. -/
def State.itgt (s : State) (t : Nat) : ITgt := Tbl.get (fun _ => {}) s.icu.tgt t

/-- Replace a target. -/
def State.setItgt (s : State) (t : Nat) (x : ITgt) : State := { s with icu := { s.icu with tgt := Tbl.set (fun _ => {}) s.icu.tgt t x } }

/-- A source is level (Table 17.4). -/
def levelSource (n : Nat) : Bool := decide (n < 0xE00)

/-- A source is deliverable to target `t` (R390, R391, R396). -/
def ISrc.candidate (x : ISrc) (t : Nat) : Bool := x.p && x.en && (match x.bound with | some b => b == t | none => x.tgt == t)

/-- The candidate of a target with the highest PRIO, the lowest number among equals (R391, R392). -/
def State.candidate (s : State) (t : Nat) : Option Nat :=
  s.icu.src.foldl (fun (a : Option Nat) x =>
    if !x.2.candidate t then a
    else match a with
      | none => some x.1
      | some b => if (s.isrc b).prio < x.2.prio then some x.1 else a) none

/-- A target is masked or asleep (R394): the island target is asleep while the island's fast clock is stopped. -/
def State.targetHeld (s : State) (t : Nat) : Bool := if t = 256 then !s.aon.fast else (s.itgt t).mask || (s.itgt t).sleep

/-- SOURCE_MESSAGE (R388, R394): the next ASSERT or DEASSERT reaches the ICU; an ASSERT of an enabled source takes the link back to L0. -/
def execSourceMessage (s : State) : Host.Outcome State Fault Refusal :=
  match s.icuMsgs with
  | [] => .next s
  | (n, lvl) :: rest =>
    let s := { s with icuMsgs := rest }
    let x := s.isrc n
    let t := s.setIsrc n { x with
      raw := lvl
      p := x.p || (lvl && x.en) }
    .next (if lvl && x.en then t.set HIF_LINK_STAT_LPM 0 else t)

/-- A write of ICU_PEND_SET (R389). -/
def State.pendSet (s : State) (n : Nat) (clr : Bool) : State :=
  let x := s.isrc n
  if clr then s.setIsrc n { x with
    p := false
    bound := none }
  else s.setIsrc n { x with p := true }

/-- A write of ICU_SRC_CFG for a source (R388, R390, R395): setting EN while RAW is 1 sets P. -/
def State.sourceConfig (s : State) (n : Nat) (w : Word) : State :=
  let x := s.isrc n
  let en := bit w.toNat 0
  s.setIsrc n { x with
    en := en
    prio := bits w.toNat 1 4
    tgt := bits w.toNat 5 9
    p := x.p || (en && !x.en && x.raw) }

/-- An uncorrectable error in the state of sources and targets (R399). -/
def State.icuLost (s : State) (srcs : List (Fin 4096)) (tgts : List (Fin 257)) : State :=
  if srcs.isEmpty && tgts.isEmpty then s
  else
    let s := forEach srcs (fun n s =>
      let x := s.isrc n
      s.setIsrc n { x with
        p := x.p || x.en
        bound := none }) s
    let s := forEach tgts (fun t s => s.setItgt t { s.itgt t with msgOut := false }) s
    s.raise icuPage 0

/-- Target `t` may emit a message (R391, R393, R394). -/
def State.mayEmit (s : State) (t : Nat) : Bool :=
  let x := s.itgt t
  s.get (ctlEn icuPage) == 1 && !s.targetHeld t && !x.msgOut && x.insvc.isNone && x.sample.isNone &&
    (t == 256 || s.get HIF_LINK_STAT_LPM == 0)

/-- MESSAGE_EMIT (R373, R391, R394, R399): an idle target with a candidate emits its message; the tail writeback of a ring that is its
cause goes before. -/
def execMessageEmit (t : Fin 257) (srcs : List (Fin 4096)) (tgts : List (Fin 257)) (s : State) : Host.Outcome State Fault Refusal :=
  let s := s.icuLost srcs tgts
  match s.candidate t with
  | none => .next s
  | some n =>
    if !s.mayEmit t then .next s
    else
      let s := if decide (0x600 ≤ n) && decide (n < 0xE00) then s.tailWriteback (n - 0x600) else s
      let s := s.setIsrc n { s.isrc n with bound := some t.val }
      let x := s.itgt t
      let s := s.setItgt t { x with msgOut := true }
      let s := if t.val = 256 then s else s.hostWrite (x.addr / 4 * 4) (leBytes 4 x.data.toNat)
      .next (s.count ICU_MSGS_MSGS icuPage 2)

/-- A claim on target `t` (R392): the word that ICU_CLAIM returns. -/
def State.claim (s : State) (t : Nat) : Word × State :=
  let x := s.itgt t
  match (if x.insvc.isNone then s.candidate t else none) with
  | none => (0x1000, s.setItgt t { x with msgOut := false })
  | some n =>
    let s := s.setIsrc n { s.isrc n with
      p := false
      bound := none }
    (BitVec.ofNat 32 n, s.setItgt t { x with
      insvc := some n
      msgOut := false })

/-- Store the word that a read of initiator `i` returns. -/
def State.answerRead (s : State) (i : Nat) (w : Word) : State := { s with rdata := Tbl.set (fun _ => 0) s.rdata i w }

/-- A write of ICU_EOI of target `t` (R393). -/
def State.eoi (s : State) (t n : Nat) : State :=
  let x := s.itgt t
  if x.insvc = some n then
    s.setItgt t { x with
      insvc := none
      sample := if levelSource n then some n else none }
  else (s.count ICU_EOI_ERR_EOI_ERR icuPage 2).setInt icuPage 0

/-- The condition of a level source, as its block senses it (Table 17.4, R397). -/
def State.sensed (s : State) (n : Nat) : Bool :=
  if n < 0x600 then
    decide (n % 64 < blockPages (n / 64)) && s.irqLevel (blockBase (n / 64) + 0x1000 * (n % 64))
  else if n < 0xE00 then (s.cring (n - 0x600)).asserts s.now else false

/-- SAMPLE_ANSWER (R393, R395): the answer to a target's sample request arrives. -/
def execSampleAnswer (t : Fin 257) (s : State) : Host.Outcome State Fault Refusal :=
  let x := s.itgt t
  match x.sample with
  | none => .next s
  | some n =>
    let s := s.setItgt t { x with sample := none }
    .next (if s.sensed n then s.setIsrc n { s.isrc n with p := true } else s)

/-- WAITING of a target (R394). -/
def State.waiting (s : State) (t : Nat) : Bool := s.targetHeld t && (s.candidate t).isSome

/-- TARGET_WAKE (R394): a held target with a candidate raises wake: the island's fast clock starts, or the function in D3hot sends
PM_PME. -/
def execTargetWake (t : Fin 257) (s : State) : Host.Outcome State Fault Refusal :=
  if !s.waiting t then .next s
  else if t.val = 256 then .next (if s.get SEC_STAT_ISLAND_OK = 1 then { s with aon := { s.aon with fast := true } } else s)
  else if s.get HIF_LINK_STAT_DSTATE = 3 && s.hif.pmeEn then .next { s with hif := { s.hif with pmes := s.hif.pmes + 1 } }
  else .next s

end Sys2Proof.Machine
end

