-- ==== Sys2Proof/Machine/Counters.lean ====
section
/-! DEFINITION. Counters and the capture ring (18 R400–R418, R429, R430). -/

namespace Sys2Proof.Machine

open Reg

/-- CNT page 0. -/
def cntPage : Nat := 0x90000
/-- CAP page 0. -/
def capPage : Nat := 0xA0000

/-! ### Programmable counters (R400–R406) -/

/-- A programmable counter. -/
def State.prog (s : State) (n : Nat) : Prog := Tbl.get (fun _ => {}) s.cnt.prog n

/-- Replace a programmable counter. -/
def State.setProg (s : State) (n : Nat) (x : Prog) : State := { s with cnt := { s.cnt with prog := Tbl.set (fun _ => {}) s.cnt.prog n x } }

/-- MODE of a counter; 3 acts as 0. -/
def Prog.mode (x : Prog) : Nat := bits x.cfg0.toNat 0 2 % 3
/-- TYPE of a counter. -/
def Prog.type (x : Prog) : Nat := bits x.cfg0.toNat 2 4
/-- ARG of a counter. -/
def Prog.arg (x : Prog) : Nat := bits x.cfg0.toNat 6 16
/-- INST of a counter. -/
def Prog.inst (x : Prog) : Nat := bits x.cfg1.toNat 0 6
/-- ANY of a counter. -/
def Prog.any (x : Prog) : Bool := bit x.cfg1.toNat 6
/-- PORTF of a counter. -/
def Prog.portf (x : Prog) : Nat := bits x.cfg1.toNat 7 9
/-- PF_EN of a counter. -/
def Prog.pfEn (x : Prog) : Bool := bit x.cfg1.toNat 16

/-- The largest value of a programmable counter. -/
def progMax : Nat := 2 ^ 48 - 1

/-- A counter adds `n` occurrences; reaching the maximum sets SAT and INT_STAT bit 2 (R403). -/
def State.addProg (s : State) (n k : Nat) : State :=
  let x := s.prog n
  let v := min (x.value + k) progMax
  let sat := v == progMax
  let t := s.setProg n { x with
    value := v
    sat := x.sat || sat }
  if sat && !x.sat then t.setInt cntPage 2 else t

/-- A counter's selection counts an event (Table 18.1). -/
def Prog.counts (x : Prog) : CEvent → Bool
  | .drop r p => x.type == 1 && bits x.arg 0 8 == r && (!x.pfEn || x.portf == p)
  | .int n b => x.type == 2 && bits x.arg 0 11 == n && bits x.arg 11 5 == b
  | .fault n i => x.type == 3 && bits x.arg 0 12 == n && (x.any || x.inst == i)

/-- The state of a selected condition (Table 18.1). -/
def State.condition (s : State) (x : Prog) : Bool :=
  let a := x.arg
  let p := bits a 0 9
  match x.type with
  | 5 => if p < 256 then s.portUp p else p == 256 && s.hostPortUp
  | 6 => s.ovl.cyc.contains (bits a 0 3)
  | 7 => decide (p < 256) && s.get (pausedFld p (bits a 9 3)) == 1
  | 8 => s.get (WKS_STAT_STATE (bits a 0 6)) == 2
  | 9 => s.linkState (bits a 0 8) == 3
  | 10 => s.get ⟨HIF_HOLD_STOP (bits a 0 11 / 32), bits a 0 11 % 32, 1⟩ == 1
  | _ => false

/-- A type is a condition type. -/
def condType (t : Nat) : Bool := decide (5 ≤ t) && decide (t ≤ 10)

/-- One sample of the condition lines (R400, R402). -/
def State.sampleProg (s : State) (n : Nat) : State :=
  let x := s.prog n
  if !condType x.type then s
  else
    let c := s.condition x
    let t := if c && (x.mode = 2 || (x.mode = 1 && !x.prev)) then s.addProg n 1 else s
    t.setProg n { t.prog n with prev := c }

/-- An uncorrectable error in counter storage (R429). -/
def State.badProg (s : State) (n : Nat) : State := (s.setProg n { s.prog n with
    value := 0
    sat := true }).raise cntPage 0 (addr := n)

/-- COUNTER_REPORT (R400–R403, R429): the next event report is counted, or the condition lines are sampled in one time-base cycle; `bad`
names a counter whose storage has an uncorrectable error. -/
def execCounterReport (sample : Bool) (bad : Option (Fin 4096)) (s : State) : Host.Outcome State Fault Refusal :=
  let s := match bad with
    | some n => s.badProg n
    | none => s
  let on := s.cfg (ctlEn cntPage) = 1
  if sample then
    let t := if on then forEach (s.cnt.prog.map fun x => x.1) (fun n t => t.sampleProg n) s else s
    .next { t with ovl := { t.ovl with cyc := [] } }
  else
    match s.reports with
    | [] => .next s
    | e :: rest =>
      let t := { s with reports := rest }
      .next (if on then forEach ((s.cnt.prog.filter fun x => x.2.mode != 0 && x.2.counts e).map fun x => x.1) (fun n t => t.addProg n 1) t else t)

/-- The counter WRITE command (R405). -/
def State.counterWrite (s : State) (clear : Bool) : State :=
  let n := s.get CNT_SEL_INDEX
  let x := { s.prog n with
    cfg0 := s.rd CNT_CFG0 &&& 0x3FFFFF
    cfg1 := s.rd CNT_CFG1 &&& 0x1FFFF }
  let x := { x with prev := condType x.type && s.condition x }
  s.setProg n (if clear then { x with
    value := 0
    sat := false } else x)

/-- The counter READ command (R405). -/
def State.counterRead (s : State) : State :=
  let x := s.prog (s.get CNT_SEL_INDEX)
  (s.wr CNT_CFG0 x.cfg0).wr CNT_CFG1 x.cfg1

/-- COUNT_LOOKUP (R406, R429). -/
def execCountLookup (k : Nat) (bad : Bool) (s : State) : Host.Outcome State Fault Refusal :=
  match s.lookup k .count with
  | none => .next s
  | some l =>
    let w := beNat (bytesAt l.key 0 2)
    if s.cfg (ctlEn cntPage) ≠ 1 then .next (s.answer k (errRes 2))
    else if l.key.length ≠ 4 || l.tid ≠ 0 || 4096 ≤ w then .next (s.answer k (errRes 1))
    else
      let s := if bad then s.badProg w else s
      let x := s.prog w
      if x.type ≠ 4 || x.mode = 0 then .next (s.answer k missRes)
      else .next ((s.addProg w (if x.mode = 1 then beNat (bytesAt l.key 2 2) else 1)).answer k (mkRes 1 0 0 0 0))

/-! ### Counter pages (R404, R408, R409) -/

/-- A 64-bit count as the pages show a programmable counter: SAT in bit 63. -/
def Prog.word (x : Prog) : Nat := x.value + b2n x.sat * 2 ^ 63

/-- The count at byte offset `8 * i` of a counter page (Table 18.3). -/
def State.pageCount (s : State) (page i : Nat) : Nat :=
  if page < 256 then (if i < 16 then (s.prog (16 * page + i)).word else 0)
  else if page < 514 then
    let p := page - 256
    if i < 16 then (if i < 13 then Tbl.get (fun _ => 0) s.cnt.port (16 * p + i) else 0)
    else if decide (p < 256) && decide (32 ≤ i) && decide (i < 64) then Tbl.get (fun _ => 0) s.cnt.queue (32 * p + (i - 32)) else 0
  else if page = 514 then (if i < 256 then Tbl.get (fun _ => 0) s.cnt.drop i else 0)
  else 0

/-- COUNTER_PAGE_READ (R404, R408, R409): a 32-bit read of word `w` of a counter page, or a 64-bit read from an even word; the bytes read
are in `rbytes`. -/
def execCounterPageRead (page : Fin 4096) (w : Fin 1024) (wide : Bool) (s : State) : Host.Outcome State Fault Refusal :=
  let v := s.pageCount page (w.val / 2)
  let cap := Tbl.get (fun _ => none) s.cnt.pageCap page.val
  let setCap (s : State) (c : Option (Nat × Word)) : State := { s with cnt := { s.cnt with pageCap := Tbl.set (fun _ => none) s.cnt.pageCap page.val c } }
  if wide then .next { s with rbytes := leBytes 8 (if w.val % 2 = 0 then v else 0) }
  else if w.val % 2 = 0 then
    .next (setCap { s with rbytes := leBytes 4 v } (some (w.val / 2, BitVec.ofNat 32 (v / 2 ^ 32))))
  else
    match cap with
    | some c =>
      if c.1 = w.val / 2 then .next (setCap { s with rbytes := leBytes 4 c.2.toNat } none)
      else .next { s with rbytes := leBytes 4 (v / 2 ^ 32) }
    | none => .next { s with rbytes := leBytes 4 (v / 2 ^ 32) }

/-! ### Dumps (R410–R413, R429) -/

/-- Bytes of a dump slot (R411). -/
def dumpSize : Nat := 0x44000

/-- SECT of the dumps. -/
def State.dumpSect (s : State) : Nat := s.get CNT_DUMP_CFG_SECT

/-- The header of a dump (Table 18.4). -/
def State.dumpHeader (s : State) (seq : Nat) : List Byte :=
  leBytes 4 0x44554D50 ++ leBytes 4 seq ++ leBytes 4 s.tb.ns ++ leBytes 4 s.tb.sec ++ leBytes 2 (s.tb.sec / 2 ^ 32) ++ leBytes 1 s.dumpSect ++ [0] ++
    leBytes 2 s.ownDev ++ List.replicate 42 0

/-- A sample record of a dump (Table 18.4). -/
def State.dumpSample (s : State) (n : Nat) : List Byte :=
  let x : Smp := Tbl.get (fun _ => {}) s.sch.smpLast n
  leBytes 4 x.depth ++ leBytes 4 x.soj ++ leBytes 4 x.lat ++ leBytes 8 x.sum ++ leBytes 4 x.count ++ leBytes 4 (s.sch.smpEnd % 1000000000) ++
    leBytes 4 (s.sch.smpEnd / 1000000000)

/-- The sections of a dump with their offsets (Table 18.4). -/
def State.dumpSections (s : State) : List (Nat × List Byte) :=
  let sec (i o : Nat) (b : List Byte) : List (Nat × List Byte) := if bit s.dumpSect i then [(o, b)] else []
  sec 0 0x1000 ((List.range 4096).flatMap fun n => leBytes 8 (s.prog n).word) ++
  sec 1 0x9000 ((List.range 256).flatMap fun r => leBytes 8 (Tbl.get (fun _ => 0) s.cnt.drop r)) ++
  sec 2 0xA000 ((List.range (258 * 16)).flatMap fun k => leBytes 8 (if k % 16 < 13 then Tbl.get (fun _ => 0) s.cnt.port k else 0)) ++
  sec 3 0x13000 ((List.range 8192).flatMap fun k => leBytes 8 (Tbl.get (fun _ => 0) s.cnt.queue k)) ++
  sec 4 0x23000 ((List.range 4096).flatMap fun n => s.dumpSample n)

/-- Bytes of a dump go to their memory: the counter dump area or host memory. -/
def State.dumpWrite (s : State) (host : Bool) (a : Nat) (b : List Byte) : State := if host then s.hostWrite a b else s.hbmStore a b

/-- A dump is not made or ends early (R413). -/
def State.dumpFail (s : State) : State := (s.inc CNT_DUMP_ERR_FAILS).setInt cntPage 3

/-- The SEQ after `n`, skipping 0 (R412). -/
def nextSeq (n : Nat) : Nat := if (n + 1) % 2 ^ 32 = 0 then 1 else (n + 1) % 2 ^ 32

/-- PERIOD_MS; 0 acts as 1. -/
def State.dumpMs (s : State) : Nat := max 1 (s.get CNT_DUMP_CFG_PERIOD_MS)

/-- DUMP_INSTANT (R410–R413): a dump begins: COMMIT 0, then the header and the sections of this instant. -/
def execDumpInstant (s : State) : Host.Outcome State Fault Refusal :=
  if s.cfg (ctlEn cntPage) ≠ 1 || s.get CNT_DUMP_CFG_EN ≠ 1 || s.tb.ns % (s.dumpMs * 1000000) ≠ 0 then .next s
  else if s.cnt.dump.isSome then .next ((s.inc CNT_DUMP_ERR_SKIPS).setInt cntPage 1)
  else
    let host := s.get CNT_DUMP_CFG_DEST = 1
    let n := if host then s.get CNT_DUMP_NSLOT_NSLOT else s.cfg HBC_REGION_CFG_STAT_U * 0x4000000 / dumpSize
    if n = 0 || (!host && !s.stacksUp) then .next s.dumpFail
    else
      let seq := nextSeq s.cnt.seq
      let addr := (s.rd CNT_DUMP_ADDR_LO).toNat / 4096 * 4096 + 2 ^ 32 * (s.rd CNT_DUMP_ADDR_HI).toNat
      let base := (if host then addr else s.dumpBase) + seq % n * dumpSize
      let t := (s.dumpWrite host (base + 0x43000) (leBytes 8 0)).dumpWrite host base (s.dumpHeader seq)
      let t := forEach s.dumpSections (fun x t => t.dumpWrite host (base + x.1) x.2) t
      .next { t with cnt := { t.cnt with
        dump := some { base := base, seq := seq, host := host }
        seq := seq } }

/-- DUMP_COMMIT (R412, R413, R429): the last write of a dump; `ok` false is a host write error. -/
def execDumpCommit (ok : Bool) (s : State) : Host.Outcome State Fault Refusal :=
  match s.cnt.dump with
  | none => .next s
  | some d =>
    let t := { s with cnt := { s.cnt with dump := none } }
    if d.host && !ok then .next (t.dumpFail.raise cntPage 1)
    else if !d.host && !s.stacksUp then .next t.dumpFail
    else .next (((t.dumpWrite d.host (d.base + 0x43000) (leBytes 4 d.seq ++ leBytes 4 0)).set CNT_DUMP_STAT_SEQ d.seq).setInt cntPage 0)

/-! ### The capture ring (R414–R418, R430) -/

/-- A CAP counter rises; reaching its maximum sets INT_STAT bit 2. -/
def State.capCount (s : State) (f : Fld) : State := s.count f capPage 2

/-- Units of the capture area (R414). -/
def State.capUnits (s : State) : Nat := s.cfg HBC_REGION_CFG_CAP_U * 2097152

/-- A record is lost (R418). -/
def State.capLost (s : State) : State :=
  let t := (s.capCount CAP_LOST_LOST).setInt capPage 0
  { t with cap := { t.cap with lost := true } }

/-- A trigger takes the event (R415, Table 18.1's port filter). -/
def State.trigTakes (s : State) (t : Nat) (e : CapEvent) : Bool :=
  let ty := s.get (CAP_TRIG_CFG_TYPE t)
  match e.prog with
  | some p => p == t && ty == 1
  | none =>
    let r := e.reason
    let port := if r = 0x10 || r = 0x12 || r = 0x17 then e.frame.eport else e.frame.iport
    ty == 2 && s.get (CAP_TRIG_CFG_REASON t) == r && (s.get (CAP_TRIG_CFG_PF_EN t) == 0 || s.get (CAP_TRIG_CFG_PORTF t) == port)

/-- The bytes of a frame that a capture sees (R417): as received, or after the egress edits; none when they are not on die. -/
def CapEvent.bytes (e : CapEvent) : Option (List Byte) :=
  let f := e.frame
  if e.egress then
    let b := f.edited ++ (f.bytes.take (f.len - 4)).drop f.cut
    some (b ++ fcsOf b)
  else if f.remote.isSome || (f.spill != .none && f.buf.isNone) then none
  else some f.bytes

/-- L of Table 18.5. -/
def CapEvent.l (e : CapEvent) : Nat := match e.bytes with
  | some b => b.length
  | none => e.frame.len

/-- EPORT of a record: known from the dequeue on. -/
def CapEvent.eport (e : CapEvent) : Nat :=
  if e.egress || e.frame.stage == .dequeued || e.reason == 0x10 then e.frame.eport % 512 else 0x1FF

/-- The record of an event (Table 18.5), with LOST_BEFORE and SEQ still zero. -/
def capRecord (t snap : Nat) (e : CapEvent) : List Byte :=
  let f := e.frame
  let n := match e.bytes with | some _ => snap | none => 0
  let b := e.bytes.getD []
  let trunc := e.bytes.isSome && decide (32 * snap < e.l)
  let flags := b2n trunc + 4 * b2n e.egress + 8 * b2n e.bytes.isNone
  leBytes 1 (1 + n) ++ leBytes 1 t ++ leBytes 1 (if e.prog.isSome then 0 else e.reason) ++ leBytes 1 flags ++
    leBytes 4 (e.t / 1000000000) ++ leBytes 4 (e.t % 1000000000) ++ leBytes 2 (f.iport % 512) ++ leBytes 2 e.eport ++ leBytes 2 (e.l % 2 ^ 14) ++
    leBytes 1 (f.tc % 8 + 8 * (f.dp % 4) + 32 * b2n f.mcast) ++ leBytes 1 (f.vslot % 16) ++ leBytes 4 0 ++ leBytes 4 (min (e.t - f.t) 0xFFFFFFFF) ++
    bytesAt e.cookie 0 4 ++ bytesAt (b.take (32 * snap)) 0 (32 * n)

/-- A trigger fires (R416, R418): suppressed in its period, lost, or queued. -/
def State.fire (s : State) (t : Nat) (e : CapEvent) : State :=
  let us := max 1 (s.get (CAP_TRIG_LIM_PERIOD_US t))
  let sec := e.t / 1000000000
  let k := e.t % 1000000000 / 1000 / us
  let p := Tbl.get (fun _ => (0, 0, 0)) s.cap.per t
  let n := if p.1 = sec && p.2.1 = k then p.2.2 else 0
  let max' := s.get (CAP_TRIG_LIM_MAXREC t)
  if max' ≠ 0 && max' ≤ n then s.capCount (CAP_TRIG_SUPP_SUPP t)
  else
    let s := { s with cap := { s.cap with per := Tbl.set (fun _ => (0, 0, 0)) s.cap.per t (sec, k, n + 1) } }
    if 4096 ≤ s.cap.q.length || s.capUnits = 0 then s.capLost
    else { s with cap := { s.cap with q := s.cap.q ++ [capRecord t (min 8 (s.get (CAP_TRIG_CFG_SNAP t))) e] } }.capCount (CAP_TRIG_CNT_RECS t)

/-- CAPTURE_TRIGGER (R415, R416, R418): the next event meets the triggers; of several that match a drop the lowest-numbered fires. -/
def execCaptureTrigger (s : State) : Host.Outcome State Fault Refusal :=
  match s.capEv with
  | [] => .next s
  | e :: rest =>
    let t := { s with capEv := rest }
    if s.cfg (ctlEn capPage) ≠ 1 then .next t
    else match (List.range 16).find? fun i => s.trigTakes i e with
      | some i => .next (t.fire i e)
      | none => .next t

/-- Add `d` units to a ring pointer (R414). -/
def ptrAdd (n off lap d : Nat) : Nat × Nat := ((off + d) % n, if n ≤ off + d then 1 - lap else lap)

/-- Units of the ring in use (R414). -/
def State.capUsed (s : State) : Nat :=
  let n := s.capUnits
  let w := s.get CAP_WR_OFF
  let r := s.get CAP_RD_OFF
  if w = r then (if s.get CAP_WR_LAP = s.get CAP_RD_LAP then 0 else n) else (w + n - r % n) % n

/-- `n` free bytes (log 4). -/
def State.freshBytes (s : State) : Nat → List Byte × State
  | 0 => ([], s)
  | n + 1 =>
    let w := s.fresh
    let r := w.2.freshBytes n
    (BitVec.ofNat 8 w.1.toNat :: r.1, r.2)

/-- Write units at CAP_WR, which moves past them. -/
def State.capPut (s : State) (b : List Byte) : State :=
  let w := s.get CAP_WR_OFF
  let p := ptrAdd s.capUnits w (s.get CAP_WR_LAP) (b.length / 32)
  ((s.hbmStore (s.capBase + 32 * w) b).set CAP_WR_OFF p.1).set CAP_WR_LAP p.2

/-- The next queued record is written or lost (R418). -/
def State.capWrite (s : State) (b : List Byte) : State :=
  let n := s.capUnits
  let len := b.length / 32
  let left := n - s.get CAP_WR_OFF
  let pad := if left < len then left else 0
  if n = 0 || !s.stacksUp || (s.get CAP_CFG_FULL = 0 && n - s.capUsed < len + pad) then s.capLost
  else
    let s := if pad = 0 then s
      else
        let fb := s.freshBytes (32 * pad - 2)
        fb.2.capPut (leBytes 1 pad ++ leBytes 1 0xFF ++ fb.1)
    let seq := s.get CAP_SEQ_SEQ
    let b := patchBytes b 20 (leBytes 4 seq)
    let b := if s.cap.lost then patchBytes b 3 (leBytes 1 (byteAt b 3 + 2)) else b
    let s := { s with cap := { s.cap with lost := false } }
    let s := ((s.capPut b).set CAP_SEQ_SEQ ((seq + 1) % 2 ^ 32)).capCount CAP_RECS_RECS
    if n ≤ 2 * s.capUsed then s.setInt capPage 1 else s

/-- CAPTURE_WRITE (R418, R430): the Scrivener writes the next queued record; `bad` is an uncorrectable error of the queue. -/
def execCaptureWrite (bad : Bool) (s : State) : Host.Outcome State Fault Refusal :=
  match s.cap.q with
  | [] => .next s
  | b :: rest =>
    let t := { s with cap := { s.cap with q := rest } }
    if bad then .next (t.capLost.raise capPage 0) else .next (t.capWrite b)

end Sys2Proof.Machine
end

