-- ==== Sys2Proof/Machine/Time.lean ====
section
/-! DEFINITION. The time base, PPS, SyncE outputs and time across a cascade (18 R419–R432). -/

namespace Sys2Proof.Machine

open Reg

/-- TIM page 0. -/
def timPage : Nat := 0x80000

/-- TIM CTL.EN is live at 1 (R431). -/
def State.timOn (s : State) : Bool := s.cfg (ctlEn timPage) == 1

/-! ### The time base (R419–R421) -/

/-- The time base as one number in units of 2⁻⁴⁰ ns. -/
def State.tbFull (s : State) : Nat := s.tbNs * 2 ^ 40 + s.tb.frac

/-- Load the time base from a number in units of 2⁻⁴⁰ ns; seconds are 48 bits wide. -/
def State.setTb (s : State) (n : Nat) : State :=
  { s with tb := { sec := n / 2 ^ 40 / 1000000000 % 2 ^ 48, ns := n / 2 ^ 40 % 1000000000, frac := n % 2 ^ 40 } }

/-- What the slew in progress adds in the next nanosecond (R427): equal parts over its time. -/
def Tim.part (x : Tim) : Int :=
  if x.slewI < x.slewN then x.slew * (x.slewI + 1 : Nat) / x.slewN - x.slew * x.slewI / x.slewN else 0

/-- One nanosecond of the model's time. One cycle of the time base (R419): 1 ns, FREQ × 2⁻⁴⁰ ns, and the part of a slew; it stands still in
reset and without its reference clock (23 R508). -/
def State.tick (s : State) : State :=
  if s.held || s.refLost then { s with now := s.now + 1 }
  else
    let d : Int := 2 ^ 40 + sgn 32 (s.rd TIM_FREQ).toNat + s.tim.part
    let t := s.setTb ((s.tbFull : Int) + d).toNat
    { t with
      now := s.now + 1
      tim := { s.tim with slewI := min (s.tim.slewI + 1) s.tim.slewN } }

/-- The SET command (R421). -/
def State.timeSet (s : State) : State :=
  let ns := (s.rd TIM_ARG_NS).toNat
  if 999999999 < ns then s.set TIM_CMD_CMD_ERR 1
  else
    { (s.set TIM_CMD_CMD_ERR 0) with tb := { sec := (s.rd TIM_ARG_SLO).toNat + 2 ^ 32 * s.get TIM_ARG_SHI_SEC, ns := ns, frac := s.get TIM_ARG_SHI_FRAC * 2 ^ 24 } }

/-- The STEP command (R421). -/
def State.timeStep (s : State) : State :=
  let n := (s.tbFull : Int) + sgn 32 (s.rd TIM_ARG_NS).toNat * 2 ^ 40
  if n < 0 then s.set TIM_CMD_CMD_ERR 1 else (s.setTb n.toNat).set TIM_CMD_CMD_ERR 0

/-- The word of TIM_NOW_SHI. -/
def State.nowShi (s : State) : Word := BitVec.ofNat 32 (s.tb.sec / 2 ^ 32 + s.tb.frac / 2 ^ 24 * 2 ^ 16)

/-- Capture a word for an initiator: `k` is 0 for TIM_NOW_SLO, 1 for TIM_NOW_SHI, 2 for TIM_PPS_IN_SLO (R420). -/
def State.setTimCap (s : State) (i k : Nat) (w : Option Word) : State :=
  { s with tim := { s.tim with cap := Tbl.set (fun _ => none) s.tim.cap (4 * i + k) w } }

/-- A read of TIM_NOW_NS by initiator `i` (R420). -/
def State.timeRead (s : State) (i : Nat) : Word × State :=
  (BitVec.ofNat 32 s.tb.ns, (s.setTimCap i 0 (some (BitVec.ofNat 32 s.tb.sec))).setTimCap i 1 (some s.nowShi))

/-- A read of TIM_NOW_SLO, TIM_NOW_SHI or TIM_PPS_IN_SLO: the captured word, given up, or else the current one (R420). -/
def State.timCapRead (s : State) (i k : Nat) (cur : Word) : Word × State :=
  match Tbl.get (fun _ => none) s.tim.cap (4 * i + k) with
  | some w => (w, s.setTimCap i k none)
  | none => (cur, s)

/-- A read of TIM_PPS_IN_NS (R420). -/
def State.ppsInRead (s : State) (i : Nat) : Word × State := (s.rd TIM_PPS_IN_NS, s.setTimCap i 2 (some (s.rd TIM_PPS_IN_SLO)))

/-! ### PLL, PPS and SyncE (R422, R424, R425) -/

/-- TIME_PLL_LOCK (R422). -/
def execTimePllLock (s : State) : Host.Outcome State Fault Refusal := .next (s.set TIM_STAT_LOCKED 1)

/-- PLL_LOCK_LOSS (R422, R432). -/
def execPllLockLoss (s : State) : Host.Outcome State Fault Refusal :=
  .next (if s.get TIM_STAT_LOCKED = 1 then ((s.set TIM_STAT_LOCKED 0).setInt timPage 1).raise timPage 0 else s)

/-- PPS_IN_EDGE (R424): the edge is timestamped, less IN_DLY. -/
def execPpsInEdge (s : State) : Host.Outcome State Fault Refusal :=
  if s.get TIM_PPS_CFG_IN_EN = 1 then
    let t := ((s.tbNs : Int) - sgn 16 (s.get TIM_PPS_OFS_IN_DLY)).toNat
    .next (((s.wr TIM_PPS_IN_NS (BitVec.ofNat 32 (t % 1000000000))).wr TIM_PPS_IN_SLO (BitVec.ofNat 32 (t / 1000000000))).setInt timPage 0)
  else .next s

/-- The PPS output works (R424, R431). -/
def State.ppsOn (s : State) : Bool := s.timOn && s.get TIM_PPS_CFG_OUT_EN == 1

/-- The level of PPS_OUT (R424, R431). -/
def State.ppsOut (s : State) : Bool := s.ppsOn && s.tim.pps.isSome

/-- WIDTH_MS in nanoseconds: 0 acts as 1, above 999 as 999. -/
def State.ppsWidth (s : State) : Nat := min 999 (max 1 (s.get TIM_PPS_CFG_WIDTH_MS)) * 1000000

/-- PPS_OUT_EDGE (R424): PPS_OUT rises at each whole second plus OUT_OFS and falls WIDTH_MS later; it is low while it is disabled. -/
def execPpsOutEdge (s : State) : Host.Outcome State Fault Refusal :=
  let put (p : Option Nat) : State := { s with tim := { s.tim with pps := p } }
  if !s.ppsOn then .next (put none)
  else
    match s.tim.pps with
    | none => .next (if ((s.tbNs : Int) - sgn 16 (s.get TIM_PPS_OFS_OUT_OFS)) % 1000000000 = 0 then put (some s.tbNs) else s)
    | some t => .next (if t + s.ppsWidth ≤ s.tbNs then put none else s)

/-- The port that uses lane `l`, if its slice's mode makes ports. -/
def State.lanePort (s : State) (l : Nat) : Option Nat :=
  let n := (modeInfo (s.portMode l)).1
  if n = 0 then none else some (l / 16 * 16 + l % 16 / n * n)

/-- The port of an output's lane is up. -/
def State.synceUp (s : State) (n : Nat) : Bool :=
  match s.lanePort (if n = 0 then s.get TIM_SYNCE_LANE0 else s.get TIM_SYNCE_LANE1) with
  | some p => s.portUp p
  | none => false

/-- EN of an output. -/
def State.synceEn (s : State) (n : Nat) : Bool := (if n = 0 then s.get TIM_SYNCE_EN0 else s.get TIM_SYNCE_EN1) == 1

/-- The squelch bit of an output. -/
def synceSq (n : Nat) : Fld := if n = 0 then TIM_STAT_SQ0 else TIM_STAT_SQ1

/-- SYNCE_SQUELCH (R425, R432): an output's lane loses lock (`lost`), or its port is down. -/
def execSynceSquelch (n : Fin 2) (lost : Bool) (s : State) : Host.Outcome State Fault Refusal :=
  .next (if s.synceEn n && (lost || !s.synceUp n) && s.get (synceSq n) = 0 then (s.set (synceSq n) 1).setInt timPage 4 else s)

/-- SYNCE_RESTORE (R425): 100 ms after the lane has lock again and its port is up, the output returns. -/
def execSynceRestore (n : Fin 2) (s : State) : Host.Outcome State Fault Refusal :=
  .next (if s.synceUp n then s.set (synceSq n) 0 else s)

/-! ### Time across a cascade (R426, R427) -/

/-- ROLE; 3 acts as 0. -/
def State.timRole (s : State) : Nat := s.get TIM_CFG_ROLE % 3

/-- TIME_US; 0 acts as 1. -/
def State.timeUs (s : State) : Nat := max 1 (s.get TIM_CASC_TIME_US)

/-- TIME_SEND (R426): TIME goes to the far end of each UP link; a CTRL cell takes the time at which it is sent. -/
def execTimeSend (s : State) : Host.Outcome State Fault Refusal :=
  let role := s.timRole
  if !s.timOn || role = 0 || !s.elapsedUs s.tim.sentAt s.timeUs then .next s
  else
    let d := if role = 1 then 0 else min 15 (s.get TIM_STAT_DEPTH + 1)
    let t := forEach (links.filter fun l => s.linkState l == 3) (fun l t =>
      t.sendCtrl (t.get (CLY_LINK_STAT_FAR_DEV (l / 32) (l % 32))) (bytesAt (leBytes 1 4 ++ leBytes 1 d) 0 16)) s
    .next { t with tim := { t.tim with sentAt := s.now } }

/-- The link that a follower takes time from (R427): the lowest DEPTH below 15 among UP links heard within 3 × TIME_US, then the lowest
link number. -/
def State.timeLink (s : State) : Option Nat :=
  s.tim.heard.foldl (fun (a : Option Nat) x =>
    match x.2 with
    | none => a
    | some h =>
      if h.1 = 15 || s.linkState x.1 ≠ 3 || decide (3 * s.timeUs * 1000 < s.now - h.2) then a
      else match a with
        | none => some x.1
        | some b => match Tbl.get (fun _ => none) s.tim.heard b with
          | some g => if h.1 < g.1 then some x.1 else a
          | none => some x.1) none

/-- A signed number cut to 32 bits by saturation. -/
def sat32 (x : Int) : Int := max (-(2 ^ 31)) (min (2 ^ 31 - 1) x)

/-- The 32-bit word of a signed number. -/
def word32 (x : Int) : Word := BitVec.ofInt 32 x

/-- The servo on a message from the followed link (R427): `e` in 2⁻¹⁶ ns. -/
def State.servo (s : State) (e : Int) : State :=
  let s := s.wr TIM_OFFSET (word32 (sat32 e))
  if s.get TIM_CFG_STEP_THR * 65536 < e.natAbs then (s.setTb ((s.tbFull : Int) + e * 2 ^ 24).toNat).setInt timPage 3
  else
    let s := { s with tim := { s.tim with
      slew := e / 2 ^ s.get TIM_CFG_KP_SH * 2 ^ 24
      slewN := s.timeUs * 1000
      slewI := 0 } }
    s.wr TIM_FREQ (word32 (sat32 (sgn 32 (s.rd TIM_FREQ).toNat + e / 2 ^ s.get TIM_CFG_KI_SH)))

/-- TIME_MESSAGE (R426, R427): the TIME message delivered next; a follower steps or slews its time base. -/
def execTimeMessage (s : State) : Host.Outcome State Fault Refusal :=
  match s.popMsg 4 with
  | none => .next s
  | some (m, s) =>
    if !s.timOn || s.timRole ≠ 2 then .next s
    else
      let d := byteAt m.b 1 % 16
      let ts := (leNat (bytesAt m.b 8 6) * 1000000000 + leNat (bytesAt m.b 4 4)) * 2 ^ 16 + leNat (bytesAt m.b 2 2)
      let dly := s.get (CLY_LINK_DLY_DLY (m.link / 32) (m.link % 32))
      let s : State := { (s.set TIM_STAT_HOLDOVER 0) with tim := { s.tim with
        heard := Tbl.set (fun _ => none) s.tim.heard m.link (some (d, s.now))
        lastAt := s.now } }
      if s.timeLink = some m.link then
        .next (((s.set TIM_STAT_LINK m.link).set TIM_STAT_DEPTH d).servo (((ts + dly * 256 : Nat) : Int) - (m.t * 2 ^ 16 : Nat)))
      else .next s

/-- TIME_HOLDOVER (R427): no TIME from any link for 1 ms. -/
def execTimeHoldover (s : State) : Host.Outcome State Fault Refusal :=
  if s.timOn && s.timRole = 2 && s.get TIM_STAT_HOLDOVER = 0 && s.elapsedUs s.tim.lastAt 1000 then
    .next ((s.set TIM_STAT_HOLDOVER 1).setInt timPage 2)
  else .next s

end Sys2Proof.Machine
end

