-- ==== Sys2Proof/Machine/Security.lean ====
section
/-! DEFINITION. The security block (21): container checks, SEC commands, graph payloads, fuses, attestation and the boot ROM. -/

namespace Sys2Proof.Machine

open Reg

/-- The SEC page. -/
def secPage : Nat := 0x20000

/-! ### Fuses (R477, R479, R480) -/

/-- Counter fuses that are blown (R479): those blown when the device came up, or what SVN_ADVANCE has made of them. -/
def State.fuseSvn (s : State) : Nat := s.sec.svn.getD (min 64 Config.svnAtStart.toNat)

/-- Key slots whose revoke fuse is blown, in bits 3:0 (R480). -/
def State.fuseRevoked (s : State) : Nat := s.sec.revoked ||| Config.revokedAtStart.toNat

/-- The anti-rollback counter as checks read it: 64 after an uncorrectable fuse read (R477, R479). -/
def State.svn (s : State) : Nat := if s.sec.badFuses then 64 else s.fuseSvn

/-- The revoked key slots in bits 3:0: all of them after an uncorrectable fuse read (R477, R480). -/
def State.revokedSlots (s : State) : Nat := if s.sec.badFuses then 15 else s.fuseRevoked

/-! ### Container checks (R471–R473) -/

/-- The largest PAYLOAD_LEN of a KIND (Table 21.1). -/
def payloadLimit (k : Nat) : Nat := if k = 1 then 524288 else if k = 2 then 262144 else 16777215 - 256

/-- A little-endian header field of `n` bytes. -/
def leAt (c : List Byte) (i n : Nat) : Nat := leNat (bytesAt c i n)

/-- The KIND that a container carries. -/
def contKind (c : List Byte) : Nat := byteAt c 6

/-- Check 1 of Table 21.2. -/
def formatOk (c : List Byte) : Bool :=
  decide (256 ≤ c.length) && leAt c 0 4 == 0x4E4B4B41 && leAt c 4 2 == 1 && ((bytesAt c 0x14 44).all fun b => b == 0) &&
    ((bytesAt c 0xC0 64).all fun b => b == 0) && decide (1 ≤ contKind c) && decide (contKind c ≤ 4) && decide (byteAt c 7 ≤ 3) &&
    decide (leAt c 8 4 ≤ 64) && decide (leAt c 12 4 ≤ payloadLimit (contKind c)) && c.length == 256 + leAt c 12 4

/-- The signed message: the container with SIG zero (R472). -/
def signedMessage (c : List Byte) : List Byte := patchBytes c 0x80 (List.replicate 64 0)

/-- The cause with which a fetched container fails, 0 when it passes (Table 21.2); after a failed known-answer test every check fails
with CAUSE 5 (R477). -/
def State.verify (s : State) (expect : Nat) (c : List Byte) : Nat :=
  let key := bytesAt c 0x40 64
  if s.sec.katFail then 5
  else if !formatOk c then 1
  else if contKind c ≠ expect then 2
  else if bit s.revokedSlots (byteAt c 7) || Config.sm3 key != Config.keyDigest (byteAt c 7) then 3
  else if leAt c 8 4 < s.svn then 4
  else if !Config.sm2Verify key (signedMessage c) (bytesAt c 0x80 64) then 5 else 0

/-- A check has ended with a cause: the counters, and SEC_FAIL, INT_STAT bit 1 and source 0 on a failure (R473). -/
def State.recordCheck (s : State) (kind cause : Nat) : State :=
  let s := s.count SEC_CNT_CHECKS secPage 3
  if cause = 0 then s
  else ((((s.count SEC_CNT_FAILS secPage 3).set SEC_FAIL_KIND kind).set SEC_FAIL_CAUSE cause).setInt secPage 1).raise secPage 0

/-- The verifier checks a container for a requester that expects a kind (none: a kind that the container carries when it is 2 or 4, R511):
the bytes when it passes, and the cause. The KIND recorded is the container's; a failed fetch of an unknown kind leaves it free. -/
def State.checkContainer (s : State) (expect : Option Nat) (len : Nat) (c : Fetched) : Option (List Byte) × Nat × State :=
  match c with
  | .failed =>
    (match expect with
     | some k => (none, 6, s.recordCheck k 6)
     | none =>
       let r := s.fresh
       (none, 6, r.2.recordCheck (r.1.toNat % 8) 6))
  | .bytes l =>
    let b := bytesAt l 0 len
    let k := match expect with
      | some k => k
      | none => if contKind b = 2 then 2 else 4
    let cause := s.verify k b
    (if cause = 0 then some b else none, cause, s.recordCheck (contKind b % 8) cause)

/-- The image of a container that passed (R472). -/
def imageOf (c : List Byte) : SecImg :=
  { digest := Config.sm3 (signedMessage c)
    slot := byteAt c 7
    svn := leAt c 8 4
    ver := leAt c 16 4 }

/-! ### The island image (R451, R511) -/

/-- An ISLAND container that passed is loaded: ISLAND_OK, and domain 57 runs (R511). -/
def State.loadIsland (s : State) (c : List Byte) : State :=
  { (s.set SEC_STAT_ISLAND_OK 1) with
    sec := { s.sec with island := some (imageOf c) }
    aon := { s.aon with fast := true } }

/-! ### Graph payloads (R474, R475) -/

/-- One staged item of a graph payload: a graph-memory entry for the slices `sls`, or a staged register of a PRS page. -/
inductive GRec where
  | entry (sls : List Nat) (m idx : Nat) (v : BitVec 288)
  | reg (a : Nat) (w : Word)
  deriving DecidableEq, Repr

/-- An address names a staged register of a PRS page (R474). -/
def prsStaged (a : Nat) : Bool := a % 4 == 0 && blockOf a == 21 && assigned a && rwsMask a != 0

/-- The items of the record at the start of a payload and the bytes after it; none when it breaks a rule of R474. -/
def graphRecord (p : List Byte) : Option (List GRec × List Byte) :=
  let w := leAt p 0 4
  let idx := bits w 0 12
  let m := bits w 12 2
  let n := bits w 20 12
  let d := p.drop 4
  let size := if bit w 15 then 8 * n else 4 * gmemWords m * n
  if p.length < 4 || n = 0 || d.length < size then none
  else if bit w 15 then
    let l := (List.range n).map fun j => GRec.reg (leAt d (8 * j) 4) (BitVec.ofNat 32 (leAt d (8 * j + 4) 4))
    if bits w 0 15 ≠ 0 || !((List.range n).all fun j => prsStaged (leAt d (8 * j) 4)) then none else some (l, d.drop size)
  else if gmemSize m < idx + n then none
  else
    let sls := if bit w 14 then List.range 16 else [bits w 16 4]
    let b := 4 * gmemWords m
    some ((List.range n).map (fun j => GRec.entry sls m (idx + j) (BitVec.ofNat 288 (leAt d (b * j) b))), d.drop size)

/-- The items of `n` records that fill a byte string exactly (R474). -/
def graphRecords : Nat → List Byte → Option (List GRec)
  | 0, p => if p.isEmpty then some [] else none
  | n + 1, p =>
    match graphRecord p with
    | none => none
    | some (l, r) => (graphRecords n r).map fun t => l ++ t

/-- The items of a GRAPH payload (R474). -/
def graphItems (p : List Byte) : Option (List GRec) :=
  if p.length < 16 || leAt p 0 4 ≠ 0x5247504A || leAt p 8 8 ≠ 0 then none else graphRecords (leAt p 4 4) (p.drop 16)

/-- One item is staged in the transaction of initiator 4 (R475, 05 R118, 02 R42). -/
def State.stageItem (s : State) (r : GRec) : State :=
  match r with
  | .entry sls m idx v => s.stageGmem 4 sls m idx v
  | .reg a w => if s.inReset a && decide (0x80 ≤ a % 0x1000) then s else s.stageWord 4 a (w &&& rwsMask a)

/-- A GRAPH container that passed is applied as one transaction of initiator 4 (R475). -/
def State.applyGraph (s : State) (c : List Byte) : State :=
  match graphItems (c.drop 256) with
  | none => s.secEnd 3
  | some items =>
    if s.txnState 4 ≠ .idle then s.secEnd 4
    else
      let s := forEach items (fun r s => s.stageItem r) (s.txnBegin 4)
      let ok := s.txnState 4 == .opened
      let s := s.txnCommit 4
      if ok then { s with sec := { s.sec with graphPend := some (imageOf c).digest } } else s.secEnd 4

/-! ### SEC commands (R478–R480, R511, R512) -/

/-- A command is accepted in the present STATE (R512): only RECOVER while FAILED, every other one while READY. -/
def State.secAccepts (s : State) (c : Nat) : Bool :=
  s.get (ctlEn secPage) == 1 && (if c = 5 then s.get SEC_STAT_STATE == 3 else s.get SEC_STAT_STATE == 2)

/-- The digest of an image as a report holds it: 32 bytes, zero when there is none. -/
def digest32 (d : List Byte) : List Byte := bytesAt d 0 32

/-- Bytes 0–191 of the attestation report at the formation cycle (Table 21.5). -/
def State.reportBytes (s : State) : List Byte :=
  let run := Tbl.get (fun _ => ({} : Image)) s.cst.bufs (s.get CST_STAT_RUN_BUF)
  let img (i : Option SecImg) : List Byte := digest32 ((i.map SecImg.digest).getD [])
  leBytes 2 0x5441 ++ leBytes 1 1 ++ leBytes 1 s.svn ++ leBytes 1 s.revokedSlots ++ leBytes 1 (s.get SEC_STAT_STATE) ++
    leBytes 1 (b2n (s.get CST_STAT_STATE != 0) + 2 * s.get SEC_STAT_ISLAND_OK) ++ [0] ++ leBytes 8 Config.serial.toNat ++
    leBytes 4 s.tb.sec ++ leBytes 4 s.tb.ns ++ ((List.range 8).flatMap fun k => leBytes 4 (s.rd (SEC_NONCE k)).toNat) ++
    img s.sec.boot ++ img s.sec.island ++ digest32 run.digest ++ digest32 s.sec.graph ++ leBytes 4 (s.get CST_RUN_VER_VERSION) ++ leBytes 4 0

/-- SVN_ADVANCE is refused with this argument (R479). -/
def State.svnRefused (s : State) (v : Nat) : Bool :=
  decide (v ≤ s.svn) || decide (64 < v) || decide ((s.sec.boot.map SecImg.svn).getD 0 < v)

/-- REVOKE is refused for this slot (R480): the running BOOT image's, or the last that is not revoked. -/
def State.revokeRefused (s : State) (k : Nat) : Bool :=
  (s.sec.boot.map SecImg.slot) == some k || (List.range 4).all fun j => j == k || bit s.revokedSlots j

/-- A SEC command takes hold: BUSY, with the argument and length that it works on. -/
def State.secBusy (s : State) (c arg : Nat) : State :=
  { (s.set SEC_STAT_BUSY 1) with sec := { s.sec with
    cmd := c
    arg := arg
    len := s.get SEC_SRC_LEN_LEN } }

/-- A write of SEC_CMD (R512): 1 LOAD, 2 ATTEST, 3 SVN_ADVANCE, 4 REVOKE, 5 RECOVER; other codes are no command. -/
def State.secCommand (s : State) (c : Nat) : State :=
  if c = 0 || 5 < c then s
  else if s.get SEC_STAT_BUSY = 1 then (s.set SEC_RESULT_RESULT 6).set SEC_RESULT_CMD_ERR 1
  else if !s.secAccepts c then s.set SEC_RESULT_CMD_ERR 1
  else
    let s := s.set SEC_RESULT_CMD_ERR 0
    let arg := s.get SEC_SVN_ARG_ARG
    if c = 2 then { (s.secBusy 2 0) with sec := { (s.secBusy 2 0).sec with report := s.reportBytes } }
    else if c = 3 then (if s.svnRefused arg then s.secEnd 5 else s.secBusy 3 arg)
    else if c = 4 then (if s.revokeRefused (arg % 4) then s.secEnd 5 else s.secBusy 4 (arg % 4))
    else if s.get SEC_SRC_LEN_LEN = 0 then s.secEnd 8 else s.secBusy c 0

/-- A BOOT container that passed starts; BOOT_SRC names where it came from (R476, R478). -/
def State.startBoot (s : State) (c : List Byte) (src : Nat) : State :=
  { (s.set SEC_STAT_BOOT_SRC src) with sec := { s.sec with boot := some (imageOf c) } }

/-- The container of a LOAD has been checked (R475, R511). -/
def State.loadChecked (s : State) (c : Fetched) : State :=
  match s.checkContainer none s.sec.len c with
  | (none, cause, s) => s.secEnd (if cause = 6 then 8 else 2)
  | (some b, _, s) => if contKind b = 2 then (s.loadIsland b).secEnd 1 else s.applyGraph b

/-- The container of a RECOVER has been checked (R478): a passing one starts, and the boot ROM goes on from step 4. -/
def State.recoverChecked (s : State) (c : Fetched) : State :=
  match s.checkContainer (some 1) s.sec.len c with
  | (none, cause, s) => s.secEnd (if cause = 6 then 8 else 2)
  | (some b, _, s) => ((s.startBoot b 3).set SEC_STAT_STATE 1).secEnd 1

/-- The fetch of a SEC command's container failed; one from host memory counts as a failed host read (17 R398). -/
def State.secFetched (s : State) (flash : Bool) (c : Fetched) : State :=
  match c with
  | .bytes _ => s
  | .failed => if flash then s else s.dmaErr (s.hostAddr SEC_SRC_LO)

/-- CONTAINER_CHECK (21 R472, R473): the container of the SEC command in progress has been fetched and checked. RECOVER ignores FLASH. -/
def execContainerCheck (c : Fetched) (s : State) : Host.Outcome State Fault Refusal :=
  if s.sec.cmd = 1 && s.sec.graphPend.isNone then .next ((s.secFetched (s.get SEC_SRC_LEN_FLASH == 1) c).loadChecked c)
  else if s.sec.cmd = 5 then .next ((s.secFetched false c).recoverChecked c)
  else .next s

/-- A fuse command has blown `n` of its fuses (R479, R480). -/
def State.blow (s : State) (n : Nat) : State :=
  if s.sec.cmd = 3 then { s with sec := { s.sec with svn := some (max s.fuseSvn (min s.sec.arg (s.fuseSvn + n))) } }
  else if s.sec.cmd = 4 && n ≠ 0 then { s with sec := { s.sec with revoked := s.sec.revoked ||| 2 ^ s.sec.arg } }
  else s

/-- FUSE_COMMAND_DONE (21 R479, R480): every fuse of the command has been blown. -/
def execFuseCommandDone (s : State) : Host.Outcome State Fault Refusal :=
  .next (if s.sec.cmd = 3 || s.sec.cmd = 4 then (s.blow 64).secEnd 1 else s)

/-- SEC_REPORT takes 256 bytes. -/
def State.setReport (s : State) (b : List Byte) : State :=
  forEach (List.range 64) (fun k s => s.wr (SEC_REPORT k) (BitVec.ofNat 32 (leAt b (4 * k) 4))) s

/-- ATTEST_REPORT_SIGNED (21 R482): bytes 0–191 are signed; unreadable identity-key fuses end it with NOKEY and a report of 0. -/
def execAttestReportSigned (keyBad : Bool) (s : State) : Host.Outcome State Fault Refusal :=
  if s.sec.cmd ≠ 2 then .next s
  else if keyBad then .next ((s.setReport []).secEnd 7)
  else .next ((s.setReport (s.sec.report ++ bytesAt (Config.sm2Sign s.sec.report) 0 64)).secEnd 1)

/-! ### The boot ROM (R476, R477) -/

/-- A directory's MAGIC and CRC hold (R476). -/
def dirOk (d : Fetched) : Bool :=
  match d with
  | .failed => false
  | .bytes b => leAt b 0 4 == 0x5249444A && BitVec.ofNat 32 (leAt b 52 4) == crc Config.dirPoly Config.dirSeed (bytesAt b 0 52)

/-- LENGTH of a kind's entry in a directory; 0 when the entry or the directory does not hold (R476). -/
def dirLen (d : Fetched) (kind : Nat) : Nat :=
  match d with
  | .failed => 0
  | .bytes b => if dirOk d then leAt b (4 + 12 * (kind - 1) + 4) 4 else 0

/-- The ROM checks the container of a kind in one directory: its bytes when it passes. An absent entry is no check. -/
def State.romCheck (s : State) (kind : Nat) (dir c : Fetched) : Option (List Byte) × State :=
  if dirLen dir kind = 0 then (none, s)
  else
    let r := s.checkContainer (some kind) (dirLen dir kind) c
    (r.1, r.2.2)

/-- The ROM tries a kind in the first directory that holds and then in the other: the bytes that pass, and whether they came from
directory 1 (R476). -/
def State.romLoad (s : State) (kind : Nat) (dir0 dir1 c0 c1 : Fetched) : Option (List Byte × Bool) × State :=
  let swap := !dirOk dir0
  let a := if swap then s.romCheck kind dir1 c1 else s.romCheck kind dir0 c0
  match a.1 with
  | some b => (some (b, swap), a.2)
  | none =>
    let r := if swap then a.2.romCheck kind dir0 c0 else a.2.romCheck kind dir1 c1
    (r.1.map fun b => (b, !swap), r.2)

/-- The boot ends in READY or FAILED (R483). -/
def State.bootEnd (s : State) (st : Nat) : State := (s.set SEC_STAT_STATE st).setInt secPage 0

/-- Steps 4 and 5 of Table 21.3. -/
def State.romIsland (s : State) (dir0 dir1 isl0 isl1 : Fetched) : State :=
  match s.romLoad 2 dir0 dir1 isl0 isl1 with
  | (some (b, _), t) => (t.loadIsland b).bootEnd 2
  | (none, t) => t.bootEnd 2

/-- Steps 1 to 5 of Table 21.3 with the failures of Table 21.4. -/
def State.romBoot (s : State) (fuseErr katFail : Bool) (dir0 dir1 boot0 boot1 isl0 isl1 : Fetched) : State :=
  let s := { (s.set SEC_STAT_STATE 1) with sec := { s.sec with
    badFuses := fuseErr
    katFail := katFail } }
  let s := if fuseErr then s.raise secPage 1 else s
  if katFail then (s.raise secPage 2).bootEnd 3
  else
    match s.romLoad 1 dir0 dir1 boot0 boot1 with
    | (none, t) => (t.raise secPage 3).bootEnd 3
    | (some (b, d), t) => (t.startBoot b (if d then 2 else 1)).romIsland dir0 dir1 isl0 isl1

/-- BOOT_ROM (21 R476–R478): the ROM runs its steps after a reset, or goes on from step 4 after a RECOVER. -/
def execBootRom (fuseErr katFail : Bool) (dir0 dir1 boot0 boot1 isl0 isl1 : Fetched) (s : State) : Host.Outcome State Fault Refusal :=
  if s.held then .next s
  else if s.get SEC_STAT_STATE = 0 then .next (s.romBoot fuseErr katFail dir0 dir1 boot0 boot1 isl0 isl1)
  else if s.get SEC_STAT_STATE = 1 then .next (s.romIsland dir0 dir1 isl0 isl1)
  else .next s

end Sys2Proof.Machine
end

