-- ==== Sys2Proof/Machine/Clear.lean ====
section
/-! DEFINITION. What every reset does to the registers of pages (02 R37, R48): reset values but for the kept fields, and the discarding of
staged words. -/

namespace Sys2Proof.Machine

open Reg

/-- The blocks of several instances, whose page is an instance (02 Table 2.2). -/
def perInstance (b : Nat) : Bool := b == 11 || b == 15 || b == 20 || b == 21 || b == 23

/-- The pages of a block reset (19 R440): the instance's page, or every page of a block of one instance. -/
def resetPages (b inst : Nat) : List Nat :=
  if perInstance b then [blockBase b + 0x1000 * inst] else (List.range (blockPages b)).map fun i => blockBase b + 0x1000 * i

/-- The bits of the word at an address that a block reset keeps (R37): RESET_CAUSE; the running image and CST_WVER; WKS_RERUN and the
workshop's state, which is the island's (06 R137); HBC_PC_FAIL, the HBC counters and the fixed areas; the fixed pool counts, the free
counts and INIT; the counters of SYS page 1 (15 R344). -/
def State.keptMask (s : State) (a : Nat) : Word :=
  let all : Word := 0xFFFFFFFF
  let o := a % 0x1000
  if o = 0x24 then all
  else match blockOf a with
    | 0 => if pageIndex a = 1 && ((0x84 ≤ o && o < 0x98) || (0x100 ≤ o && o < 0x178)) then all else 0
    | 11 =>
      if o = 0x90 then 0x007F0000
      else if o = 0x94 || o = 0x98 || o = 0xA4 || o = 0xA8 || (0xC0 ≤ o && o < 0xE0) then all
      else if o = 0xA0 then 0xFFFF0000
      else if o = 0x100 then (if s.get HBC_REGION_STAT_FIXED = 1 then 0xFFFF else 0)
      else if o = 0x104 then 0x01FF0001 else 0
    | 13 =>
      if o = 0x88 then 1
      else if o = 0x94 then all
      else if 0x100 ≤ o && o % 0x20 = 0 then (if s.buf.fixed then 0xFFF else 0)
      else if 0x100 ≤ o && o % 0x20 = 4 then all else 0
    | 19 => if (0x98 ≤ o && o < 0xA4) || (0x400 ≤ o && o < 0x500) then all else if o = 0x84 then 0x100 else 0
    | 20 => if o = 0x120 then all else if o = 0x80 then 3 else 0
    | _ => 0

/-- Every register of the pages at its reset word but for the bits of `keep`; values of slots, words not yet switched to and held _LO words
of the pages are gone (R37). -/
def State.clearRegs (s : State) (pgs : List Nat) (keep : Nat → Word) : State :=
  let hit (a : Nat) : Bool := pgs.contains (pageOf a)
  { s with
    regs := s.regs.filterMap fun p =>
      if hit p.1 then
        (let w := mergeRws (keep p.1) (resetWord p.1) p.2
         if w = resetWord p.1 then none else some (p.1, w))
      else some p
    unsw := s.unsw.filter fun p => !hit p.1
    slotVals := s.slotVals.filter fun p => !hit (p.1 % 2 ^ 28)
    loHold := s.loHold.filter fun p => !hit p.1 }

/-- A block reset takes hold of pages (R37): their interrupt lines fall, their registers take reset values, RESETTING is 1 and
RESET_CAUSE gains a bit. -/
def State.clearPages (s : State) (pgs : List Nat) (cause : Nat) : State :=
  let s := forEach pgs (fun pg s => s.withIrq pg fun s => s.wr (pg + 0x14) 0) s
  let s := s.clearRegs pgs s.keptMask
  let s := forEach pgs (fun pg s => (s.set (statResetting pg) 1).set ⟨pg + 0x24, cause, 1⟩ 1) s
  s.fltSettle

end Sys2Proof.Machine
end

