-- ==== Sys2Proof/Machine/Operands.lean ====
section
/-! DEFINITION. The micro-word (07 R142–R152): its slots and fields, its operand forms, and the frame area that its field slot reads and
writes. -/

namespace Sys2Proof.Machine

/-- An ALU slot (Table 7.5). -/
structure UAlu where
  op : Nat
  dst : Nat
  sa : Nat
  sb : Nat
  bimm : Bool
  sf : Bool
  pos : Nat
  wid : Nat
  deriving DecidableEq, Repr

/-- A micro-word by its slots (Table 7.1): sequencer, two ALU slots, field, lookup and edit slots, and IMM. -/
structure UWord where
  seq : Nat
  target : Nat
  cond : Nat
  cneg : Bool
  creg : Nat
  bpos : Nat
  alu0 : UAlu
  alu1 : UAlu
  fop : Nat
  freg : Nat
  breg : Nat
  off : Nat
  bit0 : Nat
  width : Nat
  lop : Nat
  tid : Nat
  ldst : Nat
  koff : Nat
  klen : Nat
  kreg : Nat
  eop : Nat
  elen : Nat
  eoff : Nat
  eoff2 : Nat
  imm : Word
  deriving DecidableEq, Repr

/-- The ALU slot at bit `b` of a micro-word. -/
def decodeAlu (w b : Nat) : UAlu :=
  { op := bits w b 6, dst := bits w (b + 6) 5, sa := bits w (b + 11) 6, sb := bits w (b + 17) 6, bimm := bit w (b + 23), sf := bit w (b + 24),
    pos := bits w (b + 25) 5, wid := bits w (b + 30) 5 + 1 }

/-- The fields of a micro-word (Tables 7.1, 7.2, 7.5, 7.7, 7.8, 7.9); reserved bits are ignored. -/
def decodeUWord (v : BitVec 256) : UWord :=
  let w := v.toNat
  { seq := bits w 0 4, target := bits w 4 13, cond := bits w 17 5, cneg := bit w 22, creg := bits w 23 5, bpos := bits w 28 5,
    alu0 := decodeAlu w 40, alu1 := decodeAlu w 76,
    fop := bits w 112 2, freg := bits w 114 5, breg := bits w 119 5, off := bits w 124 10, bit0 := bits w 134 3, width := bits w 137 5 + 1,
    lop := bits w 144 4, tid := bits w 148 8, ldst := bits w 156 3, koff := bits w 159 10, klen := bits w 169 7, kreg := bits w 176 5,
    eop := bits w 184 3, elen := bits w 187 8, eoff := bits w 195 10, eoff2 := bits w 205 10,
    imm := BitVec.ofNat 32 (bits w 216 32) }

/-! ### Registers and operands (R143, R144, R149) -/

/-- A general register; G0 reads 0. -/
def Ctx.gr (x : Ctx) (i : Nat) : Word := if i = 0 then 0 else x.g.getD i 0

/-- Write a general register; writes to G0 are discarded. -/
def Ctx.setG (x : Ctx) (i : Nat) (v : Word) : Ctx := if i = 0 then x else { x with g := x.g.set i v }

/-- The value of a result register; never issued reads 0. -/
def Ctx.lval (x : Ctx) (r : Nat) : BitVec 128 :=
  match x.l.getD r .never with
  | .result v => v
  | _ => 0

/-- An ALU operand (R144): a general register or a word of a result register. -/
def Ctx.opnd (x : Ctx) (v : Nat) : Word :=
  if v < 32 then x.gr v else BitVec.ofNat 32 (bits (x.lval ((v - 32) / 4)).toNat (32 * ((v - 32) % 4)) 32)

/-- A result register whose lookup is outstanding. -/
def Ctx.isOut (x : Ctx) (r : Nat) : Bool := x.l.getD r .never == .outstanding

/-- Lookups of the thread that are outstanding. -/
def Ctx.outCount (x : Ctx) : Nat := (x.l.filter fun r => r == .outstanding).length

/-- Whether an ALU operation reads operand A (Table 7.6). -/
def readsA (op : Nat) : Bool := decide (2 ≤ op)

/-- Whether an ALU operation reads operand B (Table 7.6). -/
def readsB (op : Nat) : Bool := (decide (1 ≤ op) && decide (op ≤ 7)) || op == 12 || op == 13 || op == 14

/-- The result register, if any, that operand `v` needs and whose result has not arrived. -/
def Ctx.pendingOpnd (x : Ctx) (v : Nat) : Option Nat := if 32 ≤ v && x.isOut ((v - 32) / 4) then some ((v - 32) / 4) else none

/-- The result register that an ALU slot waits for (R149). -/
def Ctx.aluWait (x : Ctx) (a : UAlu) : Option Nat :=
  ((if readsA a.op then x.pendingOpnd a.sa else none)).or (if readsB a.op && !a.bimm then x.pendingOpnd a.sb else none)

/-! ### The frame area (06 R121, R122, 07 R151) -/

/-- Bytes of the frame area that the pass may not write (Table 6.2). -/
def readOnly (egress : Bool) (a : Nat) : Bool :=
  a == 0x232 || a == 0x234 || a == 0x235 || a == 0x23C || a == 0x23D || (egress && (a == 0x236 || a == 0x238 || a == 0x239 || a == 0x23A))

/-- Reason codes that only the device sets (06 R132). -/
def deviceOnly (r : Nat) : Bool := (decide (1 ≤ r) && decide (r ≤ 9)) || (decide (0x0E ≤ r) && decide (r ≤ 0x12)) || r == 0x14 || r == 0x15 || r == 0x17 || r == 0x18

/-- A byte of the frame area; addresses are taken modulo 1,024. -/
def Ctx.byte (x : Ctx) (a : Nat) : Nat := byteAt x.area (a % 1024)

/-- Write a byte of the frame area: read-only bytes and device-only REASON codes are discarded. -/
def Ctx.setByte (x : Ctx) (a b : Nat) : Ctx :=
  let a := a % 1024
  if readOnly x.egress a || (a == 0x236 && deviceOnly (b % 256)) then x else { x with area := x.area.set a (BitVec.ofNat 8 b) }

/-- Consecutive bytes of the frame area. -/
def Ctx.bytesFrom (x : Ctx) (a n : Nat) : List Byte := (List.range n).map fun i => BitVec.ofNat 8 (x.byte (a + i))

/-- Write consecutive bytes of the frame area. -/
def Ctx.setBytes (x : Ctx) (a : Nat) : List Byte → Ctx
  | [] => x
  | b :: r => (x.setByte a b.toNat).setBytes (a + 1) r

/-- The field address of a word (R151). -/
def Ctx.fieldAddr (x : Ctx) (u : UWord) : Nat := (u.off + (x.gr u.breg).toNat % 1024) % 1024

/-- The 40 bits from the field address, network order. -/
def Ctx.field40 (x : Ctx) (a : Nat) : Nat := beNat (x.bytesFrom a 5)

/-- Value of a LOAD (R151). -/
def Ctx.loadVal (x : Ctx) (u : UWord) : Word :=
  BitVec.ofNat 32 (bits (x.field40 (x.fieldAddr u)) (40 - u.bit0 - u.width) u.width)

/-- Effect of a STORE of `v` (R151): only the bytes that the field touches are written. -/
def Ctx.store (x : Ctx) (u : UWord) (a : Nat) (v : Word) : Ctx :=
  let sh := 40 - u.bit0 - u.width
  let old := x.field40 a
  let m := (2 ^ u.width - 1) * 2 ^ sh
  let new := old - (old &&& m) + bits v.toNat 0 u.width * 2 ^ sh
  (List.range 5).foldl (fun (y : Ctx) i => if bits m (8 * (4 - i)) 8 = 0 then y else y.setByte (a + i) (bits new (8 * (4 - i)) 8)) x

/-- The key of a word's lookup (R152), read at the start of the issue. -/
def Ctx.lookupKey (x : Ctx) (u : UWord) : List Byte := x.bytesFrom (u.koff + (x.gr u.kreg).toNat % 1024) u.klen

end Sys2Proof.Machine
end

