-- ==== Sys2Proof/Machine/Flags.lean ====
section
/-! DEFINITION. The ALU of the journeymen (07 R147, R150): results, flags and conditions. -/

namespace Sys2Proof.Machine

/-- A result with its flags Z, N, C, V (R150). -/
structure AluRes where
  val : Word
  z : Bool
  n : Bool
  c : Bool
  v : Bool
  deriving DecidableEq, Repr

/-- The flags of a result with its carry and overflow (R150). -/
def aluRes (r : Word) (c v : Bool) : AluRes := ⟨r, r == 0, r.getLsbD 31, c, v⟩

/-- Index of the lowest 1 bit; 32 for 0 (FFS). -/
def lowestBit (a : Word) : Nat := ((List.range 32).find? fun i => a.getLsbD i).getD 32

/-- INS: bits `[pos+wid-1:pos]` of A replaced by the low bits of B; bits above 31 are dropped. -/
def insBits (a b : Word) (pos wid : Nat) : Word :=
  let m : Word := BitVec.ofNat 32 ((2 ^ wid - 1) * 2 ^ pos)
  (a &&& ~~~m) ||| (BitVec.ofNat 32 (bits b.toNat 0 wid * 2 ^ pos) &&& m)

/-- An ALU operation other than NOP (Table 7.6): C is the carry out of ADD and, for SUB, A ≥ B; V the signed overflow of both; for
every other operation C and V are 0. -/
def aluOp (op : Nat) (a b : Word) (pos wid : Nat) : AluRes :=
  if op = 1 then aluRes b false false
  else if op = 2 then aluRes (a + b) (decide (2 ^ 32 ≤ a.toNat + b.toNat)) (decide (a.toInt + b.toInt ≠ (a + b).toInt))
  else if op = 3 then aluRes (a - b) (decide (b.toNat ≤ a.toNat)) (decide (a.toInt - b.toInt ≠ (a - b).toInt))
  else if op = 4 then aluRes (a &&& b) false false
  else if op = 5 then aluRes (a ||| b) false false
  else if op = 6 then aluRes (a ^^^ b) false false
  else if op = 7 then aluRes (a &&& ~~~b) false false
  else if op = 8 then aluRes (a <<< pos) false false
  else if op = 9 then aluRes (a >>> pos) false false
  else if op = 10 then aluRes (a.sshiftRight pos) false false
  else if op = 11 then aluRes (BitVec.ofNat 32 (bits a.toNat pos wid)) false false
  else if op = 12 then aluRes (insBits a b pos wid) false false
  else if op = 13 then aluRes (if a.toNat ≤ b.toNat then a else b) false false
  else if op = 14 then aluRes (if a.toNat ≤ b.toNat then b else a) false false
  else aluRes (BitVec.ofNat 32 (lowestBit a)) false false

/-- The result of an ALU slot on the state at the start of the issue (R145); `none` for NOP. -/
def Ctx.aluSlot (x : Ctx) (u : UAlu) (imm : Word) : Option AluRes :=
  if u.op = 0 then none else some (aluOp u.op (x.opnd u.sa) (if u.bimm then imm else x.opnd u.sb) u.pos u.wid)

/-- The writes of an ALU slot: its register, and the flags when SF is 1. -/
def Ctx.putAlu (x : Ctx) (u : UAlu) (r : Option AluRes) : Ctx :=
  match r with
  | none => x
  | some r =>
    let y := x.setG u.dst r.val
    if u.sf then { y with
      z := r.z
      n := r.n
      c := r.c
      v := r.v } else y

/-- STATUS of a result register (R152). -/
def Ctx.lstatus (x : Ctx) (r : Nat) : Nat := bits (x.lval r).toNat 0 2

/-- A condition before CNEG (Table 7.4), on the state at the start of the word (R147). -/
def Ctx.condition (x : Ctx) (u : UWord) : Bool :=
  let k := u.cond
  if k = 0 then true
  else if k = 1 then x.z
  else if k = 2 then x.n
  else if k = 3 then x.c
  else if k = 4 then x.v
  else if k = 5 then !x.c
  else if k = 6 then !x.c || x.z
  else if k = 7 then x.n != x.v
  else if k = 8 then x.n != x.v || x.z
  else if k = 9 then (x.gr u.creg).getLsbD u.bpos
  else if k = 10 then x.egress
  else if k < 24 then x.lstatus (k - 16) == 1
  else x.lstatus (k - 24) == 3

/-- The condition of a BRANCH or CCALL with CNEG applied. -/
def Ctx.taken (x : Ctx) (u : UWord) : Bool := x.condition u != u.cneg

end Sys2Proof.Machine
end

