-- ==== Sys2Proof/Machine/Microcode.lean ====
section
/-! DEFINITION. The issue of a micro-word (07 R145–R155) and the end of a pass (06 R132, R139, 07 R154). -/

namespace Sys2Proof.Machine

open Reg

/-- The CST page (07). -/
def cstPage : Nat := 0x500000

/-! ### Micro-word errors (R155) -/

/-- The word's SEQ uses its condition (R146). -/
def UWord.conditional (u : UWord) : Bool := u.seq == 2 || u.seq == 5

/-- The result register that a condition reads (Table 7.4). -/
def UWord.condReg (u : UWord) : Option Nat := if u.conditional && decide (16 ≤ u.cond) then some ((u.cond - 16) % 8) else none

/-- A stack fault of the word (CAUSE 6): CALL or a taken CCALL with a full stack, RETURN with an empty one (R148). -/
def Ctx.stackFault (x : Ctx) (u : UWord) : Bool :=
  (u.seq == 6 && x.stack.isEmpty) ||
    (decide (4 ≤ x.stack.length) &&
      (u.seq == 4 || (u.seq == 5 && !(match u.condReg with | some r => x.isOut r | none => false) && x.taken u)))

/-- The causes that depend only on the fetched word (Table 7.10), with the stack fault where it is known beside EOP 7. -/
def Ctx.earlyCause (x : Ctx) (u : UWord) : Option Nat :=
  if 10 ≤ u.seq then some 1
  else if u.conditional && 11 ≤ u.cond && u.cond ≤ 15 then some 2
  else if 16 ≤ u.alu0.op || 16 ≤ u.alu1.op then some 3
  else if 9 ≤ u.lop then some 4
  else if 1 ≤ u.lop && (u.klen = 0 || 80 < u.klen) then some 5
  else if u.eop = 7 then some (if x.stackFault u then 6 else 8)
  else none

/-- PUSH or POP beyond its limits, or a third CKSUM4 (R153); `d` is the frame length less the FCS. -/
def Ctx.editFault (x : Ctx) (u : UWord) (d : Nat) : Bool :=
  x.egress &&
    ((u.eop == 1 && u.elen != 0 && (decide (384 < x.hl + u.elen) || decide (16128 < x.hl + u.elen + d - min 256 d + 4))) ||
     (u.eop == 2 && decide (x.hl < u.elen)) || (u.eop == 3 && decide (2 ≤ x.cksum.length)))

/-- The causes judged when the word would issue (Table 7.10). -/
def Ctx.lateCause (x : Ctx) (u : UWord) (d : Nat) : Option Nat :=
  if x.stackFault u then some 6 else if x.editFault u d then some 7 else none

/-- What the word waits for (R133, R149, R152); `room` tells whether the journeyman may send another lookup and `acsFull` whether the
quarter's search queue is full (10 R233). -/
def Ctx.mustWait (x : Ctx) (u : UWord) (room acsFull : Bool) : WaitFor :=
  match ((x.aluWait u.alu0).or (x.aluWait u.alu1)).or (u.condReg.filter fun r => x.isOut r) with
  | some r => .reg r
  | none =>
    if u.lop = 0 then .none
    else if x.isOut u.ldst then .reg u.ldst
    else if 8 ≤ x.outCount || !room then .slot
    else if u.lop = 5 && acsFull then .search
    else .none

/-! ### The effect of a word (R145) -/

/-- The next address and return stack (Table 7.3). -/
def Ctx.nextPc (x : Ctx) (u : UWord) : Nat × List Nat :=
  let inc := (x.pc + 1) % 8192
  if u.seq = 1 then (u.target, x.stack)
  else if u.seq = 2 then (if x.taken u then u.target else inc, x.stack)
  else if u.seq = 3 then (u.target / 16 * 16 + bits ((x.gr u.creg).toNat >>> u.bpos) 0 4, x.stack)
  else if u.seq = 4 || (u.seq = 5 && x.taken u) then (u.target, inc :: x.stack)
  else if u.seq = 6 then (x.stack.headD 0, x.stack.drop 1)
  else (inc, x.stack)

/-- The field slot's effect, with the registers and area of the start of the issue (R151). -/
def Ctx.fieldSlot (old x : Ctx) (u : UWord) : Ctx :=
  let a := old.fieldAddr u
  if u.fop = 1 then x.setG u.freg (old.loadVal u)
  else if u.fop = 2 then x.store u a (old.gr u.freg)
  else if u.fop = 3 then x.setBytes a (old.bytesFrom ((old.gr u.freg).toNat % 1024) u.width)
  else x

/-- The edit slot's effect in an egress pass (R153). -/
def Ctx.editSlot (x : Ctx) (u : UWord) : Ctx :=
  if !x.egress then x
  else if u.eop = 1 && u.elen ≠ 0 then
    { x with
      area := List.replicate u.elen 0 ++ x.area.take x.hl ++ x.area.drop (x.hl + u.elen)
      hl := x.hl + u.elen }
  else if u.eop = 2 && u.elen ≠ 0 then
    { x with
      area := (x.area.take x.hl).drop u.elen ++ x.area.drop (x.hl - u.elen)
      hl := x.hl - u.elen }
  else if u.eop = 3 then { x with cksum := x.cksum ++ [u.eoff] }
  else if u.eop = 4 then { x with oneStep := some (false, u.eoff, u.eoff2) }
  else if u.eop = 5 then { x with oneStep := some (true, u.eoff, u.eoff2) }
  else if u.eop = 6 then { x with twoStep := true }
  else x

/-- A word that issues (R145): reads as at the start, then the writes of ALU0, ALU1, field and edit slots in order; the result
register of its lookup becomes outstanding. -/
def Ctx.applyWord (x : Ctx) (u : UWord) : Ctx :=
  let n := x.nextPc u
  let y := (x.putAlu u.alu0 (x.aluSlot u.alu0 u.imm)).putAlu u.alu1 (x.aluSlot u.alu1 u.imm)
  let y := (Ctx.fieldSlot x y u).editSlot u
  { y with
    pc := n.1
    stack := n.2
    issues := x.issues + 1
    l := if u.lop = 0 then y.l else y.l.set u.ldst .outstanding }

/-! ### Checksums (R153, R154) -/

/-- The header checksum of IPv4 over bytes whose checksum field counts as 0. -/
def ipChecksum (b : List Byte) : Nat :=
  let w := (List.range (b.length / 2)).map fun i => if i = 5 then 0 else beNat (bytesAt b (2 * i) 2)
  let s := w.sum
  let s := s % 65536 + s / 65536
  let s := s % 65536 + s / 65536
  65535 - s

/-- A CKSUM4 request carried out at the end of the pass. -/
def Ctx.checksum (x : Ctx) (off : Nat) : Ctx :=
  let n := x.byte off % 16 * 4
  if n < 20 || x.hl < off + n then x
  else x.setBytes (off + 10) (beBytes 2 (ipChecksum (x.bytesFrom off n)))

/-! ### Contexts of a workshop -/

/-- Key of context `c` of workshop `w`. -/
def ctxKey (w c : Nat) : Nat := 256 * w + c

/-- A thread context. -/
def State.ctx (s : State) (w c : Nat) : Ctx := Tbl.get (fun _ => {}) s.wks.ctx (ctxKey w c)

/-- Replace a thread context. -/
def State.setCtx (s : State) (w c : Nat) (x : Ctx) : State := { s with wks := { s.wks with ctx := Tbl.set (fun _ => {}) s.wks.ctx (ctxKey w c) x } }

/-- Key of the slice's stage that a pass belongs to. -/
def State.passStage (s : State) (x : Ctx) : Nat := if x.egress then egr (s.frame x.frame).eslice else ing (s.frame x.frame).slice

/-- A pass is over: its context is FREE and its ticket done. -/
def State.freeCtx (s : State) (w c : Nat) (x : Ctx) : State := (s.setCtx w c {}).ticketDone (s.passStage x) x.frame

/-- The reason that the device gives a frame at the end of its ingress pass (14 R322, 10 R225, 08 R195), unless it has one. -/
def endReason (f : Frame) (r : Nat) : Nat :=
  if r ≠ 0 then r else if f.polRed then 0x0A else if f.acsDeny then 0x0B else if f.parDrop then 0x13 else 0

/-- The frame goes to this device's host port (15 R341). -/
def State.isPunt (s : State) (f : Frame) : Bool :=
  !f.mcast && decide (f.voqid < mcBase) &&
    match s.voqDest f.voqid with
    | some d => d.dev == s.ownDev && d.port == 256
    | none => false

/-- The results of an ingress pass that ended by DONE (06 R132, 07 R154, 15 R341). -/
def State.ingressResult (s : State) (x : Ctx) : State :=
  let f := s.frame x.frame
  let m := bit (x.byte 0x23B) 0
  let v := beNat (x.bytesFrom 0x238 3)
  let f := { f with
    tc := x.byte 0x233 % 8
    dp := x.byte 0x233 / 8 % 4
    mcast := m
    voqid := if m then 0 else v % 2 ^ 17
    group := if m then v % 2 ^ 16 else 0
    intent := x.bytesFrom 0x250 64
    reason := endReason f (x.byte 0x236)
    stage := .ordered }
  let s := s.setFrame x.frame f
  if f.reason = 0 && s.isPunt f then
    let p := s.puntCheck f.tc
    if p.1 then p.2 else p.2.modFrame x.frame fun f => { f with reason := 0x16 }
  else s

/-- The results of an egress pass that ended by DONE (07 R154). -/
def State.egressResult (s : State) (x : Ctx) : State :=
  let x := x.cksum.foldl (fun (y : Ctx) o => y.checksum o) x
  let d := s.qlen (s.frame x.frame) - 4
  s.modFrame x.frame fun f => { f with
    edited := x.area.take x.hl
    cut := min 256 d
    oneStep := x.oneStep
    twoStep := if x.twoStep then some (beNat (x.bytesFrom 0x290 2)) else none
    stage := .egOrdered }

/-- A pass that ends by DONE may ask for a capture (18 R415): frame-area bytes 0x292 and 0x294–0x297. -/
def State.progCapture (s : State) (x : Ctx) : State :=
  if bit (x.byte 0x292) 7 then
    { s with capEv := s.capEv ++ [{
      prog := some (x.byte 0x292 % 16)
      egress := x.egress
      frame := s.frame x.frame
      cookie := x.bytesFrom 0x294 4
      t := s.tbNs }] }
  else s

/-- The outcome of a watchdog expiry (06 R139): an ingress frame is dropped 0x0D, an egress frame goes out unedited with an inverted FCS. -/
def State.cutPass (s : State) (x : Ctx) : State :=
  if x.egress then
    let d := s.qlen (s.frame x.frame) - 4
    s.modFrame x.frame fun f => { f with
      edited := f.head.take (min 256 d)
      cut := min 256 d
      invFcs := true
      stage := .egOrdered }
  else s.modFrame x.frame fun f => { f with
      reason := 0x0D
      stage := .ordered }

/-- A micro-word error ends the pass (R155). -/
def State.microError (s : State) (w c : Nat) (x : Ctx) (cause : Nat) : State :=
  let s := ((s.cutPass x).freeCtx w c x).inc CST_UWERR_COUNT
  let s := ((s.set CST_UWERR_LAST_ADDR x.pc).set CST_UWERR_LAST_WKS w).set CST_UWERR_LAST_CAUSE cause
  (s.setInt cstPage 2).raise cstPage 2 (addr := x.pc) (master := w) (detail := cause)

/-! ### The issue -/

/-- The kind of a LOP code (Table 7.8). -/
def lopKind (n : Nat) : LKind :=
  if n = 1 then .exact else if n = 2 then .lpm else if n = 3 then .obj else if n = 4 then .ecmp else if n = 5 then .acs
  else if n = 6 then .police else if n = 7 then .learn else .count

/-- Lookups of a journeyman that are outstanding (06 R133). -/
def State.jmLookups (s : State) (w j : Nat) : Nat := (s.lkp.filter fun l => l.wks == w && l.ctx / 8 == j).length

/-- The queue of the quarter's search instance holds 256 requests (10 R233). -/
def State.acsFull (s : State) (q : Nat) : Bool :=
  decide (256 ≤ (s.lkp.filter fun l => l.kind == .acs && l.wks / 16 == q && l.res.isNone).length)

/-- A journeyman. -/
def State.jman (s : State) (w j : Nat) : Jman := Tbl.get (fun _ => {}) s.wks.jm (32 * w + j)

/-- Replace a journeyman. -/
def State.setJman (s : State) (w j : Nat) (x : Jman) : State := { s with wks := { s.wks with jm := Tbl.set (fun _ => {}) s.wks.jm (32 * w + j) x } }

/-- The state of a workshop: 0 ASLEEP, 1 WAKING, 2 AWAKE, 3 DRAINING (06 R137). -/
def State.wksState (s : State) (w : Nat) : Nat := s.get (WKS_STAT_STATE w)

/-- The issue limit of a pass: MAX_ISSUE of its frame's VSLOT (06 R139). -/
def State.maxIssue (s : State) (w : Nat) (x : Ctx) : Nat := s.cfgV (s.frame x.frame).vslot (WKS_WDOG_MAX_ISSUE w)

/-- A pass that has issued MAX_ISSUE words may issue no further one (R139). -/
def State.expired (s : State) (w : Nat) (x : Ctx) : Bool := s.maxIssue w x != 0 && decide (s.maxIssue w x ≤ x.issues)

/-- The thread that a journeyman issues from: the first ready one after the last issuer (06 R120), but for one that yielded. -/
def State.readyThread (s : State) (w j : Nat) : Option Nat :=
  let jm := s.jman w j
  ((List.range 8).map fun i => (jm.last + 1 + i) % 8).find? fun t =>
    let x := s.ctx w (8 * j + t)
    x.st == .ready && jm.skip != some t && !s.expired w x

/-- The word at an address of a workshop's store. -/
def State.storeWord (s : State) (w a : Nat) : BitVec 256 := Tbl.get (fun _ => 0) (Tbl.get (fun _ => {}) s.cst.store w).words a

/-- A word has issued: the thread's new state, its lookup, and the end of the pass (Table 7.3). -/
def State.issued (s : State) (w c : Nat) (x : Ctx) (u : UWord) : State :=
  let f := s.frame x.frame
  let y := x.applyWord u
  let s := s.inc64 (WKS_ISSUE_LO w) (WKS_ISSUE_HI w)
  let s := if u.lop = 0 then s
    else { s with lkp := s.lkp ++ [{ wks := w, ctx := c, reg := u.ldst, kind := lopKind u.lop, tid := u.tid, key := x.lookupKey u, vslot := f.vslot, frame := x.frame,
                                     t := f.t, iport := f.iport, len := beNat (x.bytesFrom 0x23C 2), dp := x.byte 0x233 / 8 % 4, pass := x.pass, issued := s.now }] }
  if u.seq = 9 then
    ((if x.egress then s.egressResult y else s.ingressResult y).progCapture y |>.freeCtx w c x).inc64 (WKS_PASS_LO w) (WKS_PASS_HI w)
  else if u.seq = 8 && y.outCount ≠ 0 then s.setCtx w c { y with
    st := .wait
    wait := .all }
  else s.setCtx w c y

/-- Every pass of a workshop is abandoned (06 R138): the heads return to the front of their dispatch queues, their tickets unchanged;
RERUN counts them. -/
def State.abandonWks (s : State) (w : Nat) : State :=
  let cs := (List.range 256).filter fun c => (s.ctx w c).st != .free
  let order (k : Nat) : List Nat := (s.stageOf k).out.map fun t => t.frame
  let keys := (cs.map fun c => s.passStage (s.ctx w c)).eraseDups
  let back := keys.map fun k => (k, (order k).filter fun id => cs.any fun c => (s.ctx w c).frame == id && s.passStage (s.ctx w c) == k)
  let s := forEach back (fun (p : Nat × List Nat) t => forEach p.2 (fun id t => t.modFrame id fun f => { f with
      stage := if p.1 % 2 = 1 then .egDispatch else .dispatch
      acsDeny := false
      polRed := false
      parDrop := false }) (t.setDisp p.1 (p.2 ++ t.dispQ p.1))) s
  let s := forEach cs (fun c t => t.setCtx w c {}) s
  s.inc (WKS_RERUN_RERUN w) cs.length

/-- MICROWORD_ISSUE (06 R120, R133, R138, 07 R145–R155, R162, 15 R340): a journeyman's cycle. -/
def execMicrowordIssue (w : Fin 64) (j : Fin 32) (err : WErr) (s : State) : Host.Outcome State Fault Refusal :=
  let clear (s : State) : State := s.setJman w j { s.jman w j with skip := none }
  match s.readyThread w j with
  | none =>
    let s := clear s
    .next (if s.wksState w = 2 then s.inc64 (WKS_IDLE_LO w) (WKS_IDLE_HI w) else s)
  | some t =>
    let c := 8 * j.val + t
    let x := s.ctx w c
    let s := clear s
    if err = .context then .next ((s.abandonWks w).raise (wksPage w) 0)
    else
      let s := if err = .corrected then s.inc CST_ECC_CNT_COR else s
      let s := if err = .store && !s.cst.bad.contains (w.val, x.pc) then
          ({ s with cst := { s.cst with bad := s.cst.bad ++ [(w.val, x.pc)] } }).raise cstPage 0 (addr := x.pc) (master := w.val) else s
      let u := decodeUWord (s.storeWord w x.pc)
      let go (s : State) : State := s.setJman w j { s.jman w j with last := t }
      if s.cst.bad.contains (w.val, x.pc) then .next ((go s).microError w c x 9)
      else match x.earlyCause u with
        | some e => .next ((go s).microError w c x e)
        | none =>
          let full := s.acsFull (w.val / 16)
          (match x.mustWait u (decide (s.jmLookups w j < 32)) full with
           | .none =>
             (match x.lateCause u (s.qlen (s.frame x.frame) - 4) with
              | some e => .next ((go s).microError w c x e)
              | none =>
                let s := (go s).issued w c x u
                .next (if u.seq = 7 then s.setJman w j { s.jman w j with skip := some t } else s))
           | wf =>
             let s := if wf = .search then (s.inc64 SYS_OVL_ACS_WAIT_LO SYS_OVL_ACS_WAIT_HI).ovlHit 4 else s
             .next (s.setCtx w c { x with
               st := .wait
               wait := wf }))

/-- WATCHDOG_EXPIRY (06 R139): a pass that would issue more than MAX_ISSUE words ends at once. -/
def execWatchdogExpiry (w : Fin 64) (c : Fin 256) (s : State) : Host.Outcome State Fault Refusal :=
  let x := s.ctx w c
  if x.st = .ready && s.expired w x then
    .next (((((s.cutPass x).freeCtx w c x).count (WKS_WDOG_CNT_WDOG_CNT w) (wksPage w) 3).setInt (wksPage w) 0).raise (wksPage w) 1)
  else .next s

/-- The waiting threads that a returned lookup lets go on (06 R133): `acs` when it left the quarter's search queue. -/
def State.wakeThreads (s : State) (w j : Nat) (acs : Bool) : State :=
  { s with wks := { s.wks with ctx := s.wks.ctx.map fun (p : Nat × Ctx) =>
    let mine := p.1 / 8 == 32 * w + j
    let quarter := p.1 / 4096 == w / 16
    if p.2.st == .wait && ((mine && p.2.wait == .slot) || (mine && p.2.wait == .all && p.2.outCount == 0) || (acs && quarter && p.2.wait == .search)) then
      (p.1, { p.2 with
        st := .ready
        wait := .none })
    else p } }

/-- LOOKUP_RESULT (06 R133, R138): a result lands in its tagged register; one whose pass has ended is discarded. -/
def execLookupResult (k : Nat) (s : State) : Host.Outcome State Fault Refusal :=
  match s.lkp[k]? with
  | some l =>
    (match l.res with
     | some v =>
       let s := { s with lkp := s.lkp.eraseIdx k }
       let x := s.ctx l.wks l.ctx
       let mine := x.st != .free && x.pass == l.pass
       let y := { x with l := x.l.set l.reg (.result v) }
       let y := if y.st = .wait && y.wait = .reg l.reg then { y with
         st := .ready
         wait := .none } else y
       let s := if mine then s.setCtx l.wks l.ctx y else s
       .next (s.wakeThreads l.wks (l.ctx / 8) (l.kind == .acs))
     | none => .next s)
  | none => .next s

end Sys2Proof.Machine
end

