-- ==== Sys2Proof/Machine/Rolling.lean ====
section
/-! DEFINITION. The rolling of an image through the workshops (07 R158–R161), which workshops' changes of state carry on. -/

namespace Sys2Proof.Machine

open Reg

/-- A workshop is AWAKE. -/
def State.isAwake (s : State) (n : Nat) : Bool := s.wksState n == 2

/-- A workshop is ASLEEP. -/
def State.isAsleep (s : State) (n : Nat) : Bool := s.wksState n == 0

/-- The workshops of a quarter. -/
def inQuarter (q : Nat) : List Nat := (List.range 16).map fun i => 16 * q + i

/-- Another workshop of `n`'s quarter is AWAKE. -/
def State.otherAwake (s : State) (n : Nat) : Bool := (inQuarter (n / 16)).any fun m => m != n && s.isAwake m

/-! ### Requests to the island (R158, 20 R459) -/

/-- The CST asks the island to wake a workshop: complete at once for one that is AWAKE. -/
def State.askWake (s : State) (n : Nat) : State :=
  if s.isAwake n || s.aon.cstWake.contains n then s else { s with aon := { s.aon with cstWake := s.aon.cstWake ++ [n] } }

/-- The CST asks the island to sleep a workshop: it waits while that is the only AWAKE one of its quarter. -/
def State.askSleep (s : State) (n : Nat) : State :=
  if s.otherAwake n then s.set (WKS_STAT_STATE n) 3
  else { s with aon := { s.aon with cstSleep := s.aon.cstSleep ++ [n] } }

/-- Requests that a change of a workshop's state has met: a wake of one that is AWAKE is complete, a waiting sleep begins (R459). -/
def State.cstRequests (s : State) : State :=
  let l := s.aon.cstSleep
  let s := { s with aon := { s.aon with
    cstWake := s.aon.cstWake.filter fun n => !s.isAwake n
    cstSleep := [] } }
  forEach l (fun n s => if s.isAwake n then s.askSleep n else s) s

/-! ### The CST (R158, R159) -/

/-- An image buffer. -/
def State.imgBuf (s : State) (b : Nat) : Image := Tbl.get (fun _ => {}) s.cst.bufs b

/-- Replace an image buffer. -/
def State.setImgBuf (s : State) (b : Nat) (x : Image) : State := { s with cst := { s.cst with bufs := Tbl.set (fun _ => {}) s.cst.bufs b x } }

/-- The buffer that does not hold the running image. -/
def State.otherBuf (s : State) : Nat := 1 - s.get CST_STAT_RUN_BUF

/-- The roll of a quarter. -/
def State.rollOf (s : State) (q : Nat) : Option Roll := Tbl.get (fun _ => none) s.cst.roll q

/-- Replace the roll of a quarter. -/
def State.setRoll (s : State) (q : Nat) (r : Option Roll) : State := { s with cst := { s.cst with roll := Tbl.set (fun _ => none) s.cst.roll q r } }

/-- The CST holds a workshop (R159): every one during a LOAD, and the one that a patch writes. -/
def State.cstHolds (s : State) (n : Nat) : Bool :=
  s.cst.cmd == 1 || (match s.rollOf (n / 16) with | some r => r.phase == .write && r.n == n | none => false)

/-- The image that the roll brings in: the new one, or the running one while it is rolled back (R161). -/
def State.rollImage (s : State) : Image :=
  if s.get CST_STAT_STATE = 4 then s.imgBuf (s.get CST_STAT_RUN_BUF) else s.imgBuf s.otherBuf

/-- A workshop has still to be written (R158, R161). -/
def State.rollNeeds (s : State) (n : Nat) : Bool :=
  ((s.rd (CST_WVER n)).toNat == s.cst.ver) == (s.get CST_STAT_STATE == 4)

/-- The store of a workshop takes an image (R141, R158). -/
def State.putStore (s : State) (n : Nat) (im : Image) : State :=
  { (s.wr (CST_WVER n) (BitVec.ofNat 32 im.ver)) with cst := { s.cst with
    store := Tbl.set (fun _ => {}) s.cst.store n im
    bad := s.cst.bad.filter fun p => p.1 != n } }

/-- A command ends (R158, R161): IDLE with a RESULT and INT_STAT bit 0; a block reset that waited takes effect. -/
def State.cstFinish (s : State) (r : Nat) : State :=
  let p := s.cst.rstPend
  let s := { s with cst := { s.cst with
    cmd := 0
    result := 0
    roll := []
    pend := []
    rstPend := none } }
  let s := ((s.set CST_STAT_STATE 0).set CST_STAT_RESULT r).setInt cstPage 0
  match p with
  | some c => (({ s with cst := { s.cst with ver := 0 } }).setImgBuf s.otherBuf {}).clearPages [cstPage] c
  | none => s

/-- The new buffer becomes the running one (R158). -/
def State.switchRun (s : State) : State :=
  let old := s.imgBuf (s.get CST_STAT_RUN_BUF)
  let im := s.imgBuf s.otherBuf
  let s := (s.set CST_STAT_RUN_BUF s.otherBuf).set CST_RUN_VER_VERSION im.ver
  let s := ((s.set CST_RUN_FMT_IFMT im.fmt).set CST_RUN_ENTRY_IENTRY im.ient).set CST_RUN_ENTRY_EENTRY im.eent
  s.set CST_NEW_VER_VERSION old.ver

/-- The substitute that keeps quarter `q` served while its only workshop sleeps (R158). -/
def State.substitute (s : State) (q : Nat) : Nat :=
  let l := (inQuarter q).filter s.isAsleep
  ((l.find? fun m => (s.rd (CST_WVER m)).toNat == s.rollImage.ver).orElse fun _ => l.head?).getD (16 * q)

/-- Carry the roll of quarter `q` on as far as the states of its workshops allow. -/
def State.rollQ (s : State) (q : Nat) : Nat → State
  | 0 => s
  | fuel + 1 =>
    match s.rollOf q with
    | none => s
    | some r =>
      let go (t : State) (p : RollPhase) : State := State.rollQ (t.setRoll q (some { r with phase := p })) q fuel
      match r.phase with
      | .next =>
        (match (inQuarter q).find? s.rollNeeds with
         | none => s.setRoll q none
         | some n => State.rollQ (s.setRoll q (some { n := n, was := false, phase := .settle })) q fuel)
      | .settle =>
        if !s.rollNeeds r.n then go s .next
        else if s.isAsleep r.n then go s .write
        else if !s.isAwake r.n then s
        else
          let alone := (inQuarter q).all fun m => m == r.n || s.isAsleep m
          let k := s.substitute q
          let t := if alone then s.askWake k else s.askSleep r.n
          State.rollQ (t.setRoll q (some { r with
            was := true
            phase := if alone then .sub k else .drain })) q fuel
      | .sub k => if !s.isAwake k then s else if s.rollNeeds r.n then go (s.askSleep r.n) .drain else go s .next
      | .drain =>
        if !s.isAsleep r.n then s
        else if s.rollNeeds r.n then go s .write
        else go (s.askWake r.n) .wake
      | .write => s
      | .wake => if s.isAwake r.n then go s .next else s

/-- PAR (CST_PATCH_CFG): 0 acts as 1, 5–7 act as 4. -/
def State.par (s : State) : Nat := min 4 (max 1 (s.get CST_PATCH_CFG_PAR))

/-- The next quarter starts while fewer than PAR are in progress (R158). -/
def State.rollStart (s : State) : State :=
  match s.cst.pend with
  | [] => s
  | q :: r =>
    if s.cst.roll.length < s.par then ({ s with cst := { s.cst with pend := r } }).setRoll q (some {}) else s

/-- The roll goes on in every quarter; a patch ends when every workshop holds the new version (R158). -/
def State.rollOn (s : State) : State :=
  if s.get CST_STAT_STATE ≠ 3 && s.get CST_STAT_STATE ≠ 4 then s
  else
    let one (s : State) : State := forEach (List.range 4) (fun q s => s.rollQ q 8) s.rollStart.rollStart.rollStart.rollStart
    let s := one (one (one (one s)))
    if s.get CST_STAT_STATE = 3 && s.cst.roll.isEmpty && s.cst.pend.isEmpty then s.switchRun.cstFinish 1 else s

/-- An aborted patch rolls back (R161): quarters in progress go on toward the running image, and the others start again. -/
def State.rollBack (s : State) (result : Nat) : State :=
  let s := { (s.set CST_STAT_STATE 4) with cst := { s.cst with
    result := result
    pend := (List.range 4).filter fun q => (s.rollOf q).isNone } }
  s.rollOn

/-- A workshop has changed its state: requests and rolls go on. -/
def State.wksChanged (s : State) : State := s.cstRequests.rollOn

end Sys2Proof.Machine
end

