-- ==== Sys2Proof/Machine/Workshop.lean ====
section
/-! DEFINITION. Dispatch, loading of contexts, the reorder stages, and the sleep states of workshops (06). -/

namespace Sys2Proof.Machine

open Reg

/-! ### Dispatch (R127, R128, 07 R141) -/

/-- The other slices of a slice's quarter. -/
def neighbours (sl : Nat) : List Nat := ((List.range 4).map fun i => sl / 4 * 4 + i).filter fun x => x != sl

/-- The queue of kind `e` (0 ingress, 1 egress) that workshop `w` steals from: the deepest of at least STEAL_MIN, the nearest after its
pointer on a tie (R127). -/
def State.stealFrom (s : State) (w e : Nat) : Option Nat :=
  let sl := w / 4
  let ptr := Tbl.get (fun _ => 0) s.wks.steal w
  let min' := max 1 (s.get (WKS_STEAL_CFG_STEAL_MIN w))
  let order := sortBy (fun a b => decide ((a + 4 - (ptr + 1)) % 4 ≤ (b + 4 - (ptr + 1)) % 4)) ((neighbours sl).map fun x => x % 4)
  let cand := (order.map fun x => sl / 4 * 4 + x).filter fun x => decide (min' ≤ (s.dispQ (2 * x + e)).length)
  cand.foldl (fun (a : Option Nat) x =>
    match a with
    | none => some x
    | some y => if (s.dispQ (2 * y + e)).length < (s.dispQ (2 * x + e)).length then some x else some y) none

/-- The dispatch queue that a context of workshop `w` is served from (R127). -/
def State.serveQueue (s : State) (w : Nat) : Option Nat :=
  let sl := w / 4
  if !(s.dispQ (egr sl)).isEmpty then some (egr sl)
  else if !(s.dispQ (ing sl)).isEmpty then some (ing sl)
  else match s.stealFrom w 1 with
    | some x => some (egr x)
    | none => (s.stealFrom w 0).map ing

/-- Workshop `w` may take a head of slot `k` (R137, 07 R141, 06 WKS CTL.EN). -/
def State.takesHeads (s : State) (w k : Nat) : Bool :=
  s.wksState w == 2 && s.rd (CST_WVER w) != 0 && s.cfgV k (ctlEn (wksPage w)) == 1 && s.get (statResetting (wksPage w)) == 0

/-- DISPATCH_GRANT (06 R127, R128): a FREE context takes a head. -/
def execDispatchGrant (w : Fin 64) (c : Fin 256) (s : State) : Host.Outcome State Fault Refusal :=
  match s.serveQueue w with
  | none => .next s
  | some q =>
    match s.dispQ q with
    | [] => .next s
    | id :: r =>
      if (s.ctx w c).st ≠ .free || !s.takesHeads w (s.frame id).vslot then .next s
      else
        let sl := q / 2
        let s := s.setDisp q r
        let s := if sl = w.val / 4 then s
          else
            let s := { s with wks := { s.wks with steal := Tbl.set (fun _ => 0) s.wks.steal w.val (sl % 4) } }
            (s.count (WKS_STOLEN_STOLEN w) (wksPage w) 3).count (WKS_STEAL_OUT_STEAL_OUT sl) (wksPage (4 * sl)) 3
        let s := s.modFrame id fun f => { f with stage := if q % 2 = 1 then .egPass else .pass }
        let s := { s with wks := { s.wks with passes := s.wks.passes + 1 } }
        .next (s.setCtx w c { st := .loading, pass := s.wks.passes, frame := id, egress := q % 2 == 1 })

/-! ### Loading a context (R121, 07 R143) -/

/-- The 10-byte ingress timestamp (Table 6.2, 18 R423). -/
def stampBytes (t : Nat) : List Byte := beBytes 6 (t / 1000000000) ++ beBytes 4 (t % 1000000000)

/-- The frame area at load (Table 6.2). -/
def State.loadArea (s : State) (f : Frame) (p : Parse) (egress : Bool) : List Byte :=
  let layers := ((List.range 24).flatMap fun i =>
    let x := p.layers.getD i (0, 0, 0)
    beBytes 4 (x.1 + x.2.1 * 256 + x.2.2 * 2 ^ 17))
  let voq := if !egress then 0 else if f.mcast then f.eport + f.rid * 512 else f.voqid
  let mid := if egress then List.replicate 0x122 0 else p.deep ++ p.key ++ layers ++ beBytes 1 p.layers.length ++ [0]
  let phits := if egress then List.replicate 8 0 else beBytes 8 f.phits.toNat
  let area := bytesAt f.head 0 256 ++ bytesAt mid 0 0x122 ++ beBytes 2 f.pflags ++ List.replicate 4 0 ++ phits ++
    beBytes 2 f.iport ++ beBytes 1 f.vslot ++ beBytes 1 (f.tc + 8 * f.dp) ++ beBytes 2 (if egress then f.etkt else f.otkt) ++
    beBytes 1 f.reason ++ [0] ++ beBytes 3 voq ++ beBytes 1 (if egress then 2 + b2n f.mcast else 0) ++ beBytes 2 (s.qlen f) ++ [0, 0] ++
    stampBytes f.t ++ List.replicate 6 0 ++ (if egress then bytesAt f.intent 0 64 else List.replicate 64 0)
  bytesAt area 0 1024

/-- CONTEXT_LOADED (06 R120, R121, R132, 07 R143): the pass starts at the entry address of the workshop's image. -/
def execContextLoaded (w : Fin 64) (c : Fin 256) (s : State) : Host.Outcome State Fault Refusal :=
  let x := s.ctx w c
  if x.st ≠ .loading then .next s
  else
    let f := s.frame x.frame
    let im := Tbl.get (fun _ => {}) s.cst.store w.val
    .next (s.setCtx w c { x with
      st := .ready
      area := s.loadArea f ((s.parseOf x.frame).getD {}) x.egress
      g := List.replicate 32 0
      l := List.replicate 8 .never
      hl := min 256 (s.qlen f - 4)
      pc := if x.egress then im.eent else im.ient })

/-! ### The reorder stages (R129, R130) -/

/-- The first ticket that may be released (R129): it is done, and every earlier outstanding ticket is skipped or held with a
different key. `keys` are the keys of the earlier tickets. -/
def releasable (keys : List Nat) : List Ticket → Option Ticket
  | [] => none
  | t :: r =>
    if t.done then (if keys.contains t.key then releasable keys r else some t)
    else if t.skipped then releasable (t.key :: keys) r
    else none

/-- A released frame goes on (R129): a non-zero REASON ends its passage, else to the VOQ enqueue or its egress queue. -/
def State.released (s : State) (k id : Nat) : State :=
  let f := s.frame id
  if f.stage = .done then s
  else if k % 2 = 0 then
    let s := s.setParse id none
    if f.reason ≠ 0 then s.drop id f.reason true else { s with voq := { s.voq with enqQ := s.voq.enqQ ++ [id] } }
  else s.enterEq id

/-- Page of a slice's order registers. -/
def ordPage (k : Nat) : Nat := wksPage (4 * (k / 2))

/-- TICKET_RELEASE (06 R129, R130): a done ticket is released; `headErr` is an uncorrectable error in its head copy, which holds the
ticket outstanding until the block is reset. -/
def execTicketRelease (slice : Fin 16) (egress headErr : Bool) (s : State) : Host.Outcome State Fault Refusal :=
  let k := 2 * slice.val + b2n egress
  match releasable [] (s.stageOf k).out with
  | none => .next s
  | some t =>
    if headErr then
      .next ((s.setOut k ((s.stageOf k).out.map fun (x : Ticket) => if x = t then { x with
        done := false
        lost := true } else x)).raise (ordPage k) 2 (addr := t.num))
    else
      let s := s.setOut k ((s.stageOf k).out.filter fun x => x != t)
      let late := if egress then WKS_E_LATE_E_LATE slice else WKS_I_LATE_I_LATE slice
      let s := if t.skipped then (s.count late (ordPage k) 3).setInt (ordPage k) 2 else s
      .next (s.released k t.frame)

/-- TICKET_SKIP (06 R130): a blocker not done 20 µs after it became the blocker is skipped. -/
def execTicketSkip (slice : Fin 16) (egress : Bool) (s : State) : Host.Outcome State Fault Refusal :=
  let k := 2 * slice.val + b2n egress
  let o := s.stageOf k
  match blockerOf o.out with
  | none => .next s
  | some n =>
    if s.elapsedUs o.since 20 then
      let s := s.setOut k (o.out.map fun (t : Ticket) => if t.num = n then { t with skipped := true } else t)
      .next ((s.count (if egress then WKS_E_SKIPS_E_SKIPS slice else WKS_I_SKIPS_I_SKIPS slice) (ordPage k) 3).setInt (ordPage k) 1)
    else .next s

/-! ### Sleep states (R137, 20 R458) -/

/-- A workshop may be gated: all contexts FREE and no lookup outstanding. -/
def State.wksIdle (s : State) (w : Nat) : Bool :=
  ((List.range 256).all fun c => (s.ctx w c).st == .free) && !(s.lkp.any fun l => l.wks == w)

/-- WORKSHOP_ASLEEP (06 R137): a draining workshop that is idle becomes ASLEEP. -/
def execWorkshopAsleep (w : Fin 64) (s : State) : Host.Outcome State Fault Refusal :=
  .next (if s.wksState w = 3 && s.wksIdle w then (s.set (WKS_STAT_STATE w) 0).wksChanged else s)

/-- WORKSHOP_AWAKE (20 R458): a waking workshop becomes AWAKE 8 µs after its wake began. -/
def execWorkshopAwake (w : Fin 64) (s : State) : Host.Outcome State Fault Refusal :=
  .next (if s.wksState w = 1 && s.elapsedUs (Tbl.get (fun _ => 0) s.wks.wakeAt w.val) 8 then (s.set (WKS_STAT_STATE w) 2).wksChanged else s)

end Sys2Proof.Machine
end

