-- ==== Sys2Proof/Machine/Store.lean ====
section
/-! DEFINITION. The commands of the control store (07 R140, R156–R162). -/

namespace Sys2Proof.Machine

open Reg

/-! ### The payload (R156, R157) -/

/-- The records of a payload, each checked against R157: their words by address, or none. `used` holds the (START, COUNT) seen. -/
def imageRecords : Nat → List (Nat × Nat) → Tbl (BitVec 256) → List Byte → Option (Tbl (BitVec 256))
  | 0, _, t, p => if p.isEmpty then some t else none
  | n + 1, used, t, p =>
    let h := leAt p 0 4
    let start := bits h 0 13
    let cnt := bits h 16 14
    let d := p.drop 4
    if p.length < 4 || bits h 13 3 ≠ 0 || bits h 30 2 ≠ 0 || cnt = 0 || 8192 < cnt || 8192 < start + cnt || d.length < 32 * cnt ||
        used.any (fun u => decide (start < u.1 + u.2) && decide (u.1 < start + cnt)) then none
    else imageRecords n ((start, cnt) :: used)
      (Tbl.setMany (fun _ => 0) t start ((List.range cnt).map fun i => BitVec.ofNat 256 (leAt d (32 * i) 32))) (d.drop (32 * cnt))

/-- The header fields lie in their ranges (R156, R157). -/
def headerOk (p : List Byte) : Bool :=
  decide (64 ≤ p.length) && leAt p 0 4 == 0x314D434A && leAt p 4 4 != 0 && decide (leAt p 14 2 < 8192) && decide (leAt p 16 2 < 8192) &&
    decide (byteAt p 18 ≤ 1) && byteAt p 19 == 0 && ((bytesAt p 24 40).all fun b => b == 0) && (byteAt p 18 == 1 || leAt p 8 4 == 0)

/-- The image that a container builds, or the RESULT with which it is rejected: 3 BADFMT, 4 BASEVER (R157). -/
def State.buildImage (s : State) (c : List Byte) : Nat ⊕ Image :=
  let p := c.drop 256
  let delta := byteAt p 18 == 1
  let base : Tbl (BitVec 256) := if delta then (s.imgBuf (s.get CST_STAT_RUN_BUF)).words else []
  if !headerOk p then .inl 3
  else match imageRecords (leAt p 20 4) [] base (p.drop 64) with
    | none => .inl 3
    | some t =>
      if delta && leAt p 8 4 != s.get CST_RUN_VER_VERSION then .inl 4
      else .inr { digest := (imageOf c).digest
                  ver := leAt p 4 4
                  fmt := leAt p 12 2
                  ient := leAt p 14 2
                  eent := leAt p 16 2
                  words := t }

/-! ### Commands (R158, R161) -/

/-- CMD_ERR of the CST. -/
def State.cstErr (s : State) (v : Nat) : State := s.set CST_STAT_CMD_ERR v

/-- LOAD (1) or PATCH (2) is written: accepted only in IDLE with CTL.EN live at 1; a length of 0 ends it at once (R158). -/
def State.cstStart (s : State) (c : Nat) : State :=
  if s.get CST_STAT_STATE ≠ 0 || s.cfg (ctlEn cstPage) ≠ 1 then s.cstErr 1
  else
    let s := (s.cstErr 0).set CST_STAT_STATE 1
    let s := { s with cst := { s.cst with
      cmd := c
      len := s.get CST_SRC_LEN_LEN } }
    if s.cst.len = 0 then s.cstFinish 9 else s

/-- ABORT is written (R161). -/
def State.cstAbort (s : State) : State :=
  match s.get CST_STAT_STATE with
  | 1 => (s.cstErr 0).cstFinish 7
  | 3 => (s.cstErr 0).rollBack 7
  | _ => s.cstErr 1

/-- A write of CST_CMD; it has no effect while the page is resetting (R37). -/
def State.cstCommand (s : State) (c : Nat) : State :=
  if s.resetting cstPage then s
  else match c with
    | 1 => s.cstStart 1
    | 2 => s.cstStart 2
    | 3 => s.cstAbort
    | _ => s

/-- The new image is built: a LOAD needs every workshop ASLEEP, a PATCH a new VERSION and the running IFMT (R158). -/
def State.imageBuilt (s : State) (im : Image) : State :=
  let s := (s.setImgBuf s.otherBuf im).set CST_NEW_VER_VERSION im.ver
  if s.cst.cmd = 1 then
    if (List.range 64).all s.isAsleep then { (s.set CST_STAT_STATE 2) with cst := { s.cst with ver := im.ver } } else s.cstFinish 6
  else if im.ver = s.get CST_RUN_VER_VERSION then s.cstFinish 11
  else if im.fmt ≠ s.get CST_RUN_FMT_IFMT then s.cstFinish 5
  else
    let s := { (s.set CST_STAT_STATE 3) with cst := { s.cst with
      ver := im.ver
      roll := []
      pend := List.range 4 } }
    s.rollOn

/-- CST_CONTAINER_CHECKED (07 R156–R158, 21 R472): the container of a command has been fetched, checked and built. -/
def execCstContainerChecked (c : Fetched) (s : State) : Host.Outcome State Fault Refusal :=
  if s.get CST_STAT_STATE ≠ 1 then .next s
  else match c with
    | .failed => .next ((if s.get CST_SRC_LEN_FLASH = 0 then s.dmaErr (s.hostAddr CST_SRC_LO) else s).cstFinish 9)
    | .bytes _ =>
      (match s.checkContainer (some 3) s.cst.len c with
       | (none, _, s) => .next (s.cstFinish 2)
       | (some b, _, s) =>
         match s.buildImage b with
         | .inl r => .next (s.cstFinish r)
         | .inr im => .next (s.imageBuilt im))

/-- CST_LOAD_WRITTEN (07 R141, R158): every store has been written and compared. -/
def execCstLoadWritten (s : State) : Host.Outcome State Fault Refusal :=
  if s.get CST_STAT_STATE ≠ 2 then .next s
  else
    let im := s.imgBuf s.otherBuf
    .next ((forEach (List.range 64) (fun n s => s.putStore n im) s).switchRun.cstFinish 1)

/-- The store of workshop `w` has been written and compared: it is released, and woken if it was AWAKE (R158). -/
def State.written (s : State) (w : Nat) (r : Roll) : State :=
  let s := s.putStore w s.rollImage
  let s := if r.was then (s.askWake w).setRoll (w / 16) (some { r with phase := .wake }) else s.setRoll (w / 16) (some { r with phase := .next })
  s.rollOn

/-- CST_PATCH_WORKSHOP_DONE (07 R158, R161): the writing of a held workshop's store has ended. An error aborts the patch. -/
def execCstPatchWorkshopDone (w : Fin 64) (out : WriteOut) (s : State) : Host.Outcome State Fault Refusal :=
  match s.rollOf (w / 16) with
  | none => .next s
  | some r =>
    if r.phase ≠ .write || r.n ≠ w.val then .next s
    else if s.get CST_STAT_STATE = 3 && out = .mismatch then .next ((s.raise cstPage 0).rollBack 10)
    else if s.get CST_STAT_STATE = 3 && out = .bufError then .next ((s.raise cstPage 1).rollBack 8)
    else .next (s.written w r)

/-- CST_ROLLBACK_DONE (07 R161): every workshop that held the new version holds the running image again. -/
def execCstRollbackDone (s : State) : Host.Outcome State Fault Refusal :=
  .next (if s.get CST_STAT_STATE = 4 && s.cst.roll.isEmpty && s.cst.pend.isEmpty then s.cstFinish s.cst.result else s)

/-- CST_ECC_REWRITE (07 R162): the first word with an uncorrectable error is rewritten from its buffer. -/
def execCstEccRewrite (s : State) : Host.Outcome State Fault Refusal :=
  match s.cst.bad with
  | [] => .next s
  | _ :: r => .next ((({ s with cst := { s.cst with bad := r } }).inc CST_ECC_CNT_UNCOR).setInt cstPage 1)

/-- A write of CST_DBG_ADDR loads CST_DBG_DATA0–7 (R140). -/
def State.debugRead (s : State) (w : Word) : State :=
  let s := (((s.set CST_DBG_ADDR_ADDR (bits w.toNat 0 13)).set CST_DBG_ADDR_WKS (bits w.toNat 16 6)).set CST_DBG_ADDR_SRC (bits w.toNat 22 1)).set
    CST_DBG_ADDR_BUF (bits w.toNat 23 1)
  let im := if s.get CST_DBG_ADDR_SRC = 1 then s.imgBuf (s.get CST_DBG_ADDR_BUF) else Tbl.get (fun _ => {}) s.cst.store (s.get CST_DBG_ADDR_WKS)
  let x := (Tbl.get (fun _ => 0) im.words (s.get CST_DBG_ADDR_ADDR)).toNat
  forEach (List.range 8) (fun k s => s.wr (CST_DBG_DATA k) (BitVec.ofNat 32 (bits x (32 * k) 32))) s

/-- A block reset reaches the CST (R161): it waits for a LOAD or a roll-back, aborts a patch, ends a fetch. -/
def State.cstReset (s : State) (cause : Nat) : State :=
  let st := s.get CST_STAT_STATE
  if st = 2 || st = 3 || st = 4 then
    let s := { ((s.set (statResetting cstPage) 1).set ⟨cstPage + 0x24, cause, 1⟩ 1) with cst := { s.cst with rstPend := some cause } }
    if st = 3 then s.rollBack 7 else s
  else
    let s := if st = 1 then s.cstFinish 7 else s
    (({ s with cst := { s.cst with ver := 0 } }).setImgBuf s.otherBuf {}).clearPages [cstPage] cause

end Sys2Proof.Machine
end

