-- ==== Sys2Proof/Machine/Safe.lean ====
section
/-! DEFINITION. Safe state (03 R68, 13 R295, 16 R348, 19 R442, 20 R466), the levels of the slices (20 R461), and the island's fast clock
(20 R451). -/

namespace Sys2Proof.Machine

open Reg

/-- The AON page. -/
def aonPage : Nat := 0x40000

/-! ### Slice levels (20 R461) -/

/-- Core voltage of a level in millivolts (Table 20.3). -/
def levelMv (l : Nat) : Nat := [680, 710, 740, 770, 810, 850].getD l 850

/-- The level of a slice. -/
def State.level (s : State) (sl : Nat) : Nat := s.get (AON_LEVEL_LEVEL_at (sl / 8) (sl % 8))

/-- The level target of a slice. -/
def State.levelTarget (s : State) (sl : Nat) : Nat := Tbl.get (fun _ => 0) s.aon.ltgt sl

/-- The change of level in progress in a slice. -/
def State.levelChange (s : State) (sl : Nat) : Option (Nat × Nat) := Tbl.get (fun _ => none) s.aon.change sl

/-- Set the level target of a slice. -/
def State.setTarget (s : State) (sl l : Nat) : State := { s with aon := { s.aon with ltgt := Tbl.set (fun _ => 0) s.aon.ltgt sl l } }

/-- A workshop of the slice is WAKING or due to wake. -/
def State.wakesIn (s : State) (sl : Nat) : Bool :=
  ((List.range 4).any fun i => s.wksState (4 * sl + i) == 1) || (s.aon.chosen.any fun c => c.1 / 4 == sl) || s.aon.cstWake.any fun n => n / 4 == sl

/-- How long a change between two levels takes: the voltage moves at 10 mV/µs (R461). -/
def levelNs (a b : Nat) : Nat := ((levelMv a - levelMv b) + (levelMv b - levelMv a)) * 100

/-- A slice runs at a level. -/
def State.setLevel (s : State) (sl l : Nat) : State := s.set (AON_LEVEL_LEVEL_at (sl / 8) (sl % 8)) l

/-- Changes of level begin where nothing holds them (R461); a lower level's frequency applies at the start, a higher one's at the end. -/
def State.levelsGo (s : State) : State :=
  forEach (List.range 16) (fun sl s =>
    let l := s.levelTarget sl
    if (s.levelChange sl).isNone && l != s.level sl && !s.wakesIn sl then
      let t := { s with aon := { s.aon with change := Tbl.set (fun _ => none) s.aon.change sl (some (l, s.now + levelNs l (s.level sl))) } }
      if l < s.level sl then t.setLevel sl l else t
    else s) s

/-- LEVEL_CHANGE_DONE (20 R461): a change ends when its voltage has moved; a target that came meanwhile applies now. -/
def execLevelChangeDone (sl : Fin 16) (s : State) : Host.Outcome State Fault Refusal :=
  match s.levelChange sl with
  | none => .next s
  | some (l, due) =>
    if s.now < due then .next s
    else
      let s := { s with aon := { s.aon with change := Tbl.set (fun _ => none) s.aon.change sl.val none } }
      .next (s.setLevel sl l).levelsGo

/-! ### Safe state -/

/-- Every port and FlexE group is evaluated again (03 R54, R64). -/
def State.refreshAll (s : State) : State :=
  let s := forEach (List.range 256) (fun p s => s.refreshPort p) s
  forEach (List.range 64) (fun g s => s.refreshGroup g) s

/-- Safe state is forced (Table 19.1): ports go down and cut short what they receive, links go down, stacks enter self-refresh, every
slice's target is level 0. -/
def State.enterSafe (s : State) : State :=
  if s.safe then s
  else
    let s := { (s.set FLT_PIN_SAFE 1) with safe := true }
    let s := s.refreshAll.linksDown.srefAll
    (forEach (List.range 16) (fun sl s => s.setTarget sl 0) s).levelsGo

/-- Safe state ends (19 R442): lanes follow their configuration, stacks leave self-refresh. -/
def State.leaveSafe (s : State) : State :=
  let s := { (s.set FLT_PIN_SAFE 0) with safe := false }
  s.refreshAll.srefLeaveAll.fltSettle

/-- Domain 57 is started, where an island image runs (20 R451, 21 Table 21.4). -/
def State.fastStart (s : State) : State :=
  if s.get SEC_STAT_ISLAND_OK = 1 then { s with aon := { s.aon with fast := true } } else s

/-- A safe-state condition of the island begins (20 R466): kind 1 a rule, 2 a die sensor, 3 HBM, 4 a trap, and which. -/
def State.condBegin (s : State) (kind idx : Nat) : State :=
  if s.aon.conds.contains (kind, idx) then s
  else
    let s := { s with aon := { s.aon with conds := s.aon.conds ++ [(kind, idx)] } }
    ((s.enterSafe.set FLT_PIN_ERRN 1).setInt aonPage 0).raise aonPage 0 (detail := kind + 256 * idx)

/-- A condition holds no longer. -/
def State.condEnd (s : State) (kind idx : Nat) : State := { s with aon := { s.aon with conds := s.aon.conds.filter fun c => c != (kind, idx) } }

/-- A non-maskable trap reaches the island (20 R466, R467). -/
def State.trapIsland (s : State) : State :=
  let s := (s.setInt aonPage 1).fastStart
  if s.get AON_CFG_NMT_SAFE = 1 then s.condBegin 4 0 else s

end Sys2Proof.Machine
end

