-- ==== Sys2Proof/Machine/BlockReset.lean ====
section
/-! DEFINITION. Block resets, soft and ordered by the Bellman (02 R37, R48, 19 R440), with what each block's chapter adds. -/

namespace Sys2Proof.Machine

open Reg

/-! ### What the chapters add -/

/-- LDG (02 R48): the registers have reset values, but every transaction that was not IDLE keeps its state, and OPEN ones are doomed and
COMMITTING ones short of their commit cycle end. -/
def State.resetLdg (s pre : State) : State :=
  let s := forEach initiators (fun i s => if pre.txnState i = .idle then s else s.wr (LDG_TXN_STAT i) (pre.rd (LDG_TXN_STAT i))) s
  let s := { s with ldg := { s.ldg with
    stampSlot := 0
    cc := {} } }
  s.ldgReset

/-- HIF (17 R372): every ring is disabled, what it cached, held or fetched is gone, and INJECT entries without a head in a head queue end;
the interrupt sources of its rings fall. -/
def State.resetHif (s : State) : State :=
  let up := s.hif.cr.filter fun p => p.2.asserted
  let ids := s.hif.injects.map fun x => x.frame
  let s := { s with
    hif := { pmeEn := s.hif.pmeEn, pmes := s.hif.pmes }
    icuMsgs := s.icuMsgs ++ up.map fun p => (0x600 + p.1, false)
    buf := { s.buf with reqs := s.buf.reqs.filter fun r => !ids.contains r.frame } }
  forEach ids (fun i s => s.endPassage i) s

/-- CLY (16): every link is DOWN, staging is discarded and its frames are lost, the reorder contexts are cleared. -/
def State.resetCly (s : State) : State :=
  let ks := s.cly.ctx.map fun p => p.1
  let s := forEach ks (fun k s => s.dropCtx k) s
  let ids := (s.buf.reqs.filter fun r => r.requester = 18).map fun r => r.frame
  let s := { s with
    buf := { s.buf with reqs := s.buf.reqs.filter fun r => r.requester != 18 }
    cly := { s.cly with
      links := []
      ctx := [] } }
  forEach ids (fun i s => (s.clyCount CLY_LOST_FRAMES_LOST_FRAMES).drop i 0x01) s

/-- SCH (14): the Porter takes its ports' rates again and holds no pending gate list or sample. -/
def State.resetSch (s : State) : State :=
  let s := { s with sch := { s.sch with
    gatePend := []
    smp := []
    smpLast := []
    smpEnd := s.now } }
  forEach (List.range 256) (fun p s => s.setRate p) s

/-- WKS (06 R138): every pass of the workshop is abandoned; on page 4s, head copies lost in the slice's reorder store give up their
tickets and end. -/
def State.resetWks (s : State) (w : Nat) : State :=
  let s := s.abandonWks w
  let s := forEach (List.range 32) (fun j s => s.setJman w j {}) s
  if w % 4 ≠ 0 then s
  else forEach [2 * (w / 4), 2 * (w / 4) + 1] (fun k s =>
    let lost := ((s.stageOf k).out.filter fun t => t.lost).map fun t => t.frame
    forEach lost (fun i s => s.endPassage i) (s.setOut k ((s.stageOf k).out.filter fun t => !t.lost))) s

/-- LOOM (04): no group has a calendar, notice or pin; its clients' ports go down. -/
def State.resetLoom (s : State) : State :=
  let s := { s with loom := {} }
  forEach (List.range 64) (fun g s => s.refreshGroup g) s

/-- PRT (03 R54, R69): the slice's ports are down, and frames that they were receiving are cut short; `up` are the ports that were up. -/
def State.resetPrt (s : State) (up : List Nat) : State :=
  let s := forEach up (fun p s => forEach (s.receiving p) (fun i s => s.cutShort i) s) s
  s.refreshAll

/-- The effect of a block reset beyond registers, by block code; `pre` is the state before it. -/
def State.resetEffects (s pre : State) (b inst : Nat) : State :=
  match b with
  | 1 => s.resetLdg pre
  | 5 => { s with icu := {} }
  | 6 => s.resetHif
  | 7 => { s with
    tb := {}
    tim := {} }
  | 8 => { s with cnt := {} }
  | 9 => { s with cap := {} }
  | 10 => s.resetCly
  | 11 => s.hbcReset inst (pre.hState inst)
  | 12 => s.resetSch
  | 15 => if inst = 0 then { s with acs := { s.acs with job := none } } else s
  | 16 => { s with obj := { s.obj with job := none } }
  | 17 => { s with lpm := { s.lpm with job := none } }
  | 18 => { s with xmt := { s.xmt with
    job := none
    rehash := none
    asy := {} } }
  | 20 => s.resetWks inst
  | 22 => s.resetLoom
  | 23 => s.resetPrt ((List.range 16).filterMap fun k => if pre.portUp (16 * inst + k) then some (16 * inst + k) else none)
  | _ => s

/-! ### The reset of a block -/

/-- A block reset of instance `inst` of block `b` with its RESET_CAUSE bit (R37, R48): one already in progress is not restarted. -/
def State.blockReset (s : State) (b inst cause : Nat) : State :=
  let pgs := resetPages b inst
  if pgs.any s.resetting then forEach pgs (fun pg s => s.set ⟨pg + 0x24, cause, 1⟩ 1) s
  else
    let pre := if b = 1 then s else s.discardFor fun a => pgs.contains (pageOf a)
    if b = 19 then pre.cstReset cause else (pre.clearPages pgs cause).resetEffects pre b inst

/-- CTL.SRST of SEC (21): RESULT, NONCE and REPORT are cleared, nothing else. -/
def State.softSec (s : State) : State :=
  let s := s.clearRegs [secPage] fun a =>
    let o := a % 0x1000
    if o = 0x88 || (0x140 ≤ o && o < 0x160) || (0x200 ≤ o && o < 0x300) then 0 else 0xFFFFFFFF
  (s.set (statResetting secPage) 1).set ⟨secPage + 0x24, 3, 1⟩ 1

/-- CTL.SRST of FLT (19): registers and source configurations, records, FIRST and shadows are cleared; ERROR_N and safe state stay. -/
def State.softFlt (s : State) : State :=
  let pin := s.rd 0x300F4
  let s := { (s.clearPages [0x30000] 3) with flt := { chipPend := s.flt.chipPend } }
  s.wr 0x300F4 pin

/-- CTL.SRST of AON (20): registers take reset values; workshops, levels and safe state stay. -/
def State.softAon (s : State) : State :=
  let lv := [s.rd (AON_LEVEL 0), s.rd (AON_LEVEL 1)]
  let s := s.discardFor fun a => pageOf a == aonPage
  let s := s.clearPages [aonPage] 3
  (s.wr (AON_LEVEL 0) (lv.getD 0 0)).wr (AON_LEVEL 1) (lv.getD 1 0)

/-- A write of 1 to CTL.SRST of a page (R37): the block or instance of the page is reset. SRST reads 1 until the reset completes. -/
def State.softReset (s : State) (pg : Nat) : State :=
  if !assigned pg || pg % 0x1000 ≠ 0 then s
  else
    let b := blockOf pg
    let s := if b = 2 then s.softSec
      else if b = 3 then s.softFlt
      else if b = 4 then s.softAon
      else s.blockReset b (if perInstance b then pageIndex pg else 0) 3
    s.set ⟨pg + 8, 1, 1⟩ 1

/-- BLOCK_RESET_DONE (02 R37, 07 R161, 13 R301): the reset of a block or instance completes. That of the CST waits for its work, that of a
stack which owes its retrain ends with it. -/
def execBlockResetDone (b : Fin 24) (inst : Fin 64) (s : State) : Host.Outcome State Fault Refusal :=
  let pgs := resetPages b inst
  let waits := (b.val == 19 && s.cst.rstPend.isSome) ||
    (b.val == 11 && Tbl.get (fun _ => false) s.hbc.retrain inst.val && !s.srefCause inst)
  .next (if inst.val < blockPages b && pgs.any s.resetting && !waits then s.resetEnded pgs else s)

end Sys2Proof.Machine
end

