-- ==== Sys2Proof/Machine/Faults.lean ====
section
/-! DEFINITION. The Bellman (19): sequencing, classes, reactions, shadows, records and the commands of its page. -/

namespace Sys2Proof.Machine

open Reg

/-- The FLT page. -/
def fltPage : Nat := 0x30000

/-! ### Severity (R436, R440, R449) -/

/-- A reaction code as a source of block `b` acts on it: 7 acts as 0; 3 acts as 2 on SYS, FLT, AON and SEC (R436, R440). -/
def reactCode (b c : Nat) : Nat :=
  if c = 7 then 0 else if c = 3 && (b == 0 || b == 2 || b == 3 || b == 4) then 2 else c

/-- REACT of a source; a lost configuration acts with REACT 4 (R449). -/
def FltSrc.reaction (x : FltSrc) (b : Nat) : Nat := if x.bad then 4 else reactCode b x.react

/-- ESC_REACT of a source. -/
def FltSrc.escalation (x : FltSrc) (b : Nat) : Nat := if x.bad then 0 else reactCode b x.escReact

/-- The dependants of a block (Table 19.2). -/
def dependants (b : Nat) : List Nat :=
  match b with
  | 23 => [22, 21, 10]
  | 22 => [12]
  | 21 => [20]
  | 19 | 18 | 17 | 16 | 15 => [20]
  | 1 => [20, 18, 17, 16, 15, 13, 14]
  | 13 | 14 => [23, 1, 6]
  | 11 => [18, 17, 16, 13, 14, 8, 9, 7]
  | 12 => [22, 13, 14]
  | 10 => [1, 12]
  | 6 => [22, 19, 5, 8, 9, 7]
  | 5 => [3]
  | 8 | 9 | 7 => [23, 1, 12, 10, 3]
  | 2 => [19]
  | 3 | 4 => List.range 24
  | _ => []

/-- SHADOW_US: 0 acts as 1, above 10,000 as 10,000. -/
def State.shadowUs (s : State) : Nat := min 10000 (max 1 (s.get FLT_CFG_SHADOW_US))

/-- A shadow is open now (R444): after the order, before its close. -/
def State.shadowOpen (s : State) (x : Shadow) : Bool :=
  decide (x.since < s.now) && (match x.done with | none => true | some d => decide (s.now < d + s.shadowUs * 1000))

/-- The shadow that makes a raise of block `b` consequential (R444): the first opened of those in which it lies. -/
def State.shadowOf (s : State) (b : Nat) : Option Shadow :=
  s.flt.shadows.find? fun x => s.shadowOpen x && (x.blk == b || (dependants x.blk).contains b)

/-! ### Records (R435, R447, R448) -/

/-- The eight words of a record (Table 19.3); `cls` 0 PRIMARY, 1 CONSEQUENTIAL, 2 REPEAT, 3 PREEMPTED. -/
def recordWords (r : Raise) (seq parent cls react : Nat) : List Word :=
  [BitVec.ofNat 32 seq, BitVec.ofNat 32 parent,
   BitVec.ofNat 32 (r.src % 4096 + r.inst % 64 * 2 ^ 12 + cls * 2 ^ 18 + react * 2 ^ 20 + r.master % 8 * 2 ^ 23 + r.acc % 8 * 2 ^ 26),
   BitVec.ofNat 32 (r.ns % 2 ^ 30), BitVec.ofNat 32 r.sec, BitVec.ofNat 32 r.addr, BitVec.ofNat 32 (r.addr / 2 ^ 32), BitVec.ofNat 32 r.detail]

/-- A record is written in turn (R447); one that overwrites an unread record raises OVERRUN and INT_STAT bit 2. -/
def State.putRecord (s : State) (ws : List Word) : State :=
  let i := s.get FLT_REC_STAT_WR
  let lost := s.get FLT_REC_STAT_WRAPPED == 1 && !s.flt.read.contains i
  let s := { s with flt := { s.flt with
    recs := Tbl.set (fun _ => []) s.flt.recs i ws
    read := s.flt.read.filter fun j => j != i } }
  let s := s.set FLT_REC_STAT_WR ((i + 1) % 256)
  let s := if i = 255 then s.set FLT_REC_STAT_WRAPPED 1 else s
  if lost then (s.inc FLT_REC_STAT_OVERRUN).setInt fltPage 2 else s

/-- FIRST captures a PRIMARY record while it is armed (R448). -/
def State.captureFirst (s : State) (ws : List Word) : State :=
  if s.get FLT_FIRST_CTL_FIRST_V = 1 then s
  else
    let s := forEach (List.range 8) (fun k s => s.wr (FLT_FIRST k) (ws.getD k 0)) s
    (s.set FLT_FIRST_CTL_FIRST_V 1).setInt fltPage 1

/-- A raise is recorded with the next SEQ (R435). -/
def State.record (s : State) (r : Raise) (parent : Option Nat) (cls react : Nat) : State :=
  let seq := s.get FLT_SEQ_SEQ
  let ws := recordWords r seq (parent.getD seq) cls react
  let s := (s.putRecord ws).set FLT_SEQ_SEQ ((seq + 1) % 2 ^ 32)
  if cls = 0 then s.captureFirst ws else s

/-! ### Reactions (R439–R445) -/

/-- A non-maskable trap (R439): PEND, the posted write, and the island; a trap that cannot be sent is counted. -/
def State.trap (s : State) : State :=
  let s := s.set FLT_NMT_PEND 1
  let a := (s.rd FLT_NMT_ADDR_LO).toNat / 4 * 4 + 2 ^ 32 * (s.rd FLT_NMT_ADDR_HI).toNat
  let s := if s.get HIF_LINK_STAT_SPEED = 0 || s.get HIF_LINK_STAT_DSTATE ≠ 0 then (s.inc FLT_CNT_NMT_LOST).setInt fltPage 3
    else (s.set HIF_LINK_STAT_LPM 0).hostWrite a (leBytes 4 (s.rd FLT_NMT_DATA).toNat)
  s.trapIsland

/-- A block reset ordered by the Bellman (R440, R444, R445): the instance is reset, and a shadow opens where fewer than 16 are open. -/
def State.orderReset (s : State) (b inst seq : Nat) : State :=
  let s := s.blockReset b inst 4
  if 16 ≤ s.flt.shadows.length then (s.inc FLT_CNT_SHADOW_FULL).setInt fltPage 4
  else { s with flt := { s.flt with shadows := s.flt.shadows ++ [{ blk := b, page := blockBase b + 0x1000 * inst, seq := seq, since := s.now }] } }

/-- Reaction `t` of the PRIMARY record `seq` is taken (R436); a reset already in progress is not restarted and opens no shadow. -/
def State.takeReaction (s : State) (r : Raise) (t seq : Nat) : State :=
  let b := r.src / 64
  let pg := blockBase b + 0x1000 * r.inst
  let s := if 1 ≤ t && t ≤ 5 then s.setInt fltPage 0 else s
  let s := if 4 ≤ t then s.set FLT_PIN_ERRN 1 else s
  let s := if t = 2 || t = 4 || t = 5 then s.trap else s
  let s := if t = 5 then s.enterSafe else s
  if t = 3 then (if s.resetting pg then s else s.orderReset b r.inst seq)
  else if t = 6 then
    { s with flt := { s.flt with
      chipPend := some seq
      shadows := []
      src := s.flt.src.filterMap fun p =>
        let x : FltSrc := { p.2 with
          ireact := 0
          page := 0
          seq := 0
          repeats := 0 }
        if x = {} then none else some (p.1, x) } }
  else s

/-- A PRIMARY raise takes reaction `t` (R436, R437): no reaction other than a chip reset while CTL.EN is 0. -/
def State.primary (s : State) (r : Raise) (t : Nat) : State :=
  let t := if s.get (ctlEn fltPage) = 1 || t = 6 then t else 0
  let seq := s.get FLT_SEQ_SEQ
  let s := s.record r none 0 t
  let s := if t = 0 || t = 6 then s else s.setFsrc r.src { s.fsrc r.src with
    ireact := t
    page := blockBase (r.src / 64) + 0x1000 * r.inst
    seq := seq }
  (s.takeReaction r t seq).fltSettle

/-- A raise of a source with a reaction in progress (R437): REPEAT, unless REACT was raised above it or REPEATS reaches ESC_N. -/
def State.repeated (s : State) (r : Raise) (x : FltSrc) : State :=
  let b := r.src / 64
  if x.ireact < x.reaction b then s.primary r (x.reaction b)
  else
    let n := min 15 (x.repeats + 1)
    let s := s.setFsrc r.src { x with repeats := n }
    if x.escN ≠ 0 && x.escN ≤ n && x.ireact < x.escalation b then s.primary r (x.escalation b)
    else s.record r (some x.seq) 2 0

/-- A raise is handled (R433–R437, R443, R444): a source with a reaction in progress is judged by R437 before R444 looks for a shadow, as the
chapter's example has it (log 61, DEDUCED). -/
def State.handleRaise (s : State) (r : Raise) : State :=
  let b := r.src / 64
  if 24 ≤ b then s
  else
    let s := s.setFsrc r.src { s.fsrc r.src with count := min 0xFFFF ((s.fsrc r.src).count + 1) }
    let x := s.fsrc r.src
    match s.flt.chipPend with
    | some p => s.record r (some p) 3 0
    | none =>
      if x.reaction b = 6 then s.primary r 6
      else if x.ireact ≠ 0 then s.repeated r x
      else match (if x.noShadow then none else s.shadowOf b) with
        | some sh => s.record r (some sh.seq) 1 0
        | none => s.primary r (x.reaction b)

/-- Order of raises that arrive in one cycle (R435). -/
def State.raiseBefore (s : State) (a b : Raise) : Bool :=
  let ra := (s.fsrc a.src).reaction (a.src / 64)
  let rb := (s.fsrc b.src).reaction (b.src / 64)
  decide (rb < ra) || (ra == rb && (decide (a.src < b.src) || (a.src == b.src && decide (a.inst < b.inst))))

/-- The raise handled next of those that arrive in one cycle, with its place. -/
def State.firstRaise (s : State) (l : List (Raise × Nat)) : Option (Raise × Nat) :=
  l.foldl (fun (a : Option (Raise × Nat)) x => match a with | none => some x | some y => if s.raiseBefore x.1 y.1 then some x else some y) none

/-- FAULT_RAISE (19 R433–R437, R443–R449): of the first `same + 1` raises on their way, which arrive in one cycle, the one that comes first is
handled; `bad` is an uncorrectable error in its source's configuration. -/
def execFaultRaise (same : Nat) (bad : Bool) (s : State) : Host.Outcome State Fault Refusal :=
  match s.firstRaise ((s.raises.take (same + 1)).zipIdx) with
  | none => .next s
  | some (r, i) =>
    let s := { s with raises := s.raises.eraseIdx i }
    let s := if bad then (s.setFsrc r.src { s.fsrc r.src with bad := true }).raise fltPage 1 else s
    .next (s.handleRaise r)

/-- SHADOW_CLOSE (19 R444): the first shadow whose close has come is closed. -/
def execShadowClose (s : State) : Host.Outcome State Fault Refusal :=
  let due (x : Shadow) : Bool := match x.done with | none => false | some d => decide (d + s.shadowUs * 1000 ≤ s.now)
  match s.flt.shadows.findIdx? due with
  | none => .next s
  | some i => .next { s with flt := { s.flt with shadows := s.flt.shadows.eraseIdx i } }

/-! ### Commands of the page -/

/-- ACK is written (R439, 20 R466): every trap is acknowledged. -/
def State.nmtAck (s : State) : State := ((s.set FLT_NMT_PEND 0).condEnd 4 0).fltSettle

/-- REL is written (R441): ignored while safe state is in force. -/
def State.pinRelease (s : State) : State := if s.safe then s else (s.set FLT_PIN_ERRN 0).fltSettle

/-- EXIT is written (R442): ignored while a condition of the island holds. -/
def State.safeExit (s : State) : State := if s.safe && s.aon.conds.isEmpty then s.leaveSafe else s

/-- A write of FLT_REC_SEL loads FLT_REC_DATA0–7 and marks the record read (R447); a record with an uncorrectable error reads as zero
except SEQ, with source 0 (R449). -/
def State.recordSelect (s : State) (w : Word) (bad : Bool) : State :=
  let i := w.toNat % 256
  let ws := Tbl.get (fun _ => []) s.flt.recs i
  let s := s.set FLT_REC_SEL_INDEX i
  let s := { s with flt := { s.flt with read := if ws.isEmpty || s.flt.read.contains i then s.flt.read else s.flt.read ++ [i] } }
  let ws := if bad then ws.take 1 else ws
  let s := forEach (List.range 8) (fun k s => s.wr (FLT_REC_DATA k) (ws.getD k 0)) s
  if bad then s.raise fltPage 0 else s

/-- The source configuration that FLT_SRC_CFG shows (R436). -/
def State.fltCfgWord (s : State) : Word :=
  let x := s.fsrc (s.get FLT_SRC_SEL_SRC)
  BitVec.ofNat 32 (x.react + x.escReact * 8 + x.escN * 64 + b2n x.noShadow * 1024)

/-- A write of FLT_SRC_CFG; it restores a lost configuration (R449). -/
def State.fltSetCfg (s : State) (w : Word) : State :=
  let id := s.get FLT_SRC_SEL_SRC
  s.setFsrc id { s.fsrc id with
    react := bits w.toNat 0 3
    escReact := bits w.toNat 3 3
    escN := bits w.toNat 6 4
    noShadow := bit w.toNat 10
    bad := false }

/-- What FLT_SRC_STAT shows (R437). -/
def State.fltStatWord (s : State) : Word :=
  let x := s.fsrc (s.get FLT_SRC_SEL_SRC)
  BitVec.ofNat 32 (x.count + b2n (x.ireact != 0) * 2 ^ 16 + x.ireact * 2 ^ 17 + x.repeats * 2 ^ 20)

end Sys2Proof.Machine
end

