-- ==== Sys2Proof/Machine/Island.lean ====
section
/-! DEFINITION. The Lumben island (20): channels, the decision table, the sequencer of wakes and sleeps, the cooling plant, thermal
conditions and the island-only state. -/

namespace Sys2Proof.Machine

open Reg

/-- AON CTL.EN. -/
def State.aonOn (s : State) : Bool := s.get (ctlEn aonPage) == 1

/-! ### Channels (R453, R454) -/

/-- The latest reading of a sensor. -/
def State.temp (s : State) (k : Nat) : Nat := Tbl.get (fun _ => 0) s.aon.temp k

/-- Workshops in a state. -/
def State.inState (s : State) (ws : List Nat) (st : Nat) : List Nat := ws.filter fun n => s.wksState n == st

/-- The 64 workshops. -/
def workshops : List Nat := List.range 64

/-- Busy contexts of a workshop. -/
def State.busyCtx (s : State) (w : Nat) : Nat := ((List.range 256).filter fun c => (s.ctx w c).st != .free).length

/-- A source of Table 20.1; a source outside it reads 0. -/
def State.source (s : State) (src : Nat) : Nat :=
  let slices (q : Nat) : List Nat := (List.range 4).map fun i => 4 * q + i
  if src < 4 then ((inQuarter src).map s.busyCtx).sum
  else if src < 8 then ((slices (src - 4)).map fun x => (Tbl.get (fun _ => []) s.prt.hq x).length).foldl max 0
  else if src < 12 then min 65535 ((slices (src - 8)).map fun x => (s.dispQ (2 * x)).length + (s.dispQ (2 * x + 1)).length).sum
  else if 0x10 ≤ src && src < 0x20 then s.temp (src - 0x10)
  else if src = 0x20 then ((List.range 20).map s.temp).foldl max 0
  else if 0x21 ≤ src && src < 0x27 then s.temp (20 + src - 0x21)
  else if 0x28 ≤ src && src < 0x30 then Tbl.get (fun _ => 0) s.aon.ain (src - 0x28)
  else if 0x30 ≤ src && src < 0x34 then Tbl.get (fun _ => 0) s.aon.tach (src - 0x30)
  else if src = 0x34 then s.aon.power
  else if src = 0x35 then (s.inState workshops 2).length
  else 0

/-- The filter of R454: state of 24 bits with 8 fraction bits. -/
def filterStep (y : Option Nat) (x k : Nat) : Nat :=
  match y with
  | none => x * 256
  | some y => ((y : Int) + ((x * 256 : Int) - y) / 2 ^ k).toNat

/-- A channel is sampled and filtered (R452–R454). -/
def State.sampleCh (s : State) (c : Nat) : State :=
  let on := s.get (AON_CH_CFG_EN c) == 1
  let x := if on then s.source (s.get (AON_CH_CFG_SRC c)) else 0
  let y := if on then some (filterStep (Tbl.get (fun _ => none) s.aon.filt c) x (s.get (AON_CH_CFG_K c))) else none
  let s := (s.set (AON_CH_VAL_RAW c) x).set (AON_CH_VAL_F c) ((y.getD 0) / 256)
  { s with aon := { s.aon with filt := Tbl.set (fun _ => none) s.aon.filt c y } }

/-! ### The decision table (R455, R456) -/

/-- A condition: F at or above the threshold, or below it with CMP 1. -/
def State.condition1 (s : State) (ch cmp thr : Nat) : Bool :=
  if cmp = 0 then decide (thr ≤ s.get (AON_CH_VAL_F ch)) else decide (s.get (AON_CH_VAL_F ch) < thr)

/-- A rule holds (R455); a rule with an uncorrectable error acts with EN 0 (R470). -/
def State.ruleHolds (s : State) (r : Nat) : Bool :=
  s.cfg (AON_RULE0_EN r) == 1 && !s.aon.badRules.contains r &&
    s.condition1 (s.cfg (AON_RULE0_CHA r)) (s.cfg (AON_RULE0_CMPA r)) (s.cfg (AON_RULE0_THRA r)) &&
    (s.cfg (AON_RULE1_BEN r) == 0 ||
      s.condition1 (s.cfg (AON_RULE1_CHB r)) (s.cfg (AON_RULE1_CMPB r)) (s.cfg (AON_RULE1_THRB r)))

/-- The 128 rules. -/
def rules : List Nat := List.range 128

/-- The rules that held at the last tick (AON_RULE_HELD). -/
def State.held128 (s : State) : List Nat := rules.filter fun r => bit (s.rd (AON_RULE_HELD (r / 32))).toNat (r % 32)

/-- ARGs of the holding rules of an action whose MASK selects bit `b`. -/
def State.argsOf (s : State) (held : List Nat) (act b : Nat) : List Nat :=
  (held.filter fun r => s.cfg (AON_RULE2_ACT r) == act && bit (s.cfg (AON_RULE2_MASK r)) b).map fun r => s.cfg (AON_RULE2_ARG r)

/-- A workshop is pinned. -/
def State.pinned (s : State) (n : Nat) : Bool := bit (s.rd (AON_WKS_PIN (n / 32))).toNat (n % 32)

/-- A workshop is marked failed. -/
def State.failed (s : State) (n : Nat) : Bool := bit (s.rd (AON_WKS_FAIL (n / 32))).toNat (n % 32)

/-- The awake target N_q (R456, R457, R466). -/
def State.awakeTarget (s : State) (held : List Nat) (q : Nat) : Nat :=
  let a (l : List Nat) : List Nat := l.map fun x => min 16 (max 1 x)
  let lo := (a (s.argsOf held 1 q)).foldl max (min 16 (max 1 (s.get (AON_NMIN_NMIN_at q))))
  let n := max 1 ((a (s.argsOf held 2 q)).foldl min lo)
  if s.safe then 1 else max n ((inQuarter q).filter s.pinned).length

/-- The level target L_s (R456, R461). -/
def State.levelGoal (s : State) (held : List Nat) (sl : Nat) : Nat :=
  let a (l : List Nat) : List Nat := l.map fun x => min 5 x
  if s.safe then 0 else (a (s.argsOf held 4 sl)).foldl min ((a (s.argsOf held 3 sl)).foldl max (min 5 (s.get AON_LVL_LVL_BASE)))

/-- The drive floor (R456). -/
def State.driveFloor (s : State) : Nat :=
  4 * ((s.held128.filter fun r => s.cfg (AON_RULE2_ACT r) == 5).map fun r => s.cfg (AON_RULE2_ARG r)).foldl max 0

/-- AON_RULE_HELD takes the rules that hold; SAFE and EVENT rules act (R456, R466). -/
def State.applyRules (s : State) (held : List Nat) : State :=
  let s := forEach (List.range 4) (fun w s =>
    s.wr (AON_RULE_HELD w) (BitVec.ofNat 32 ((held.filter fun r => r / 32 == w).map fun r => 2 ^ (r % 32)).sum)) s
  let s := forEach rules (fun r s =>
    if held.contains r && s.cfg (AON_RULE2_ACT r) == 6 then s.condBegin 1 r else s.condEnd 1 r) s
  forEach (held.filter fun r => s.cfg (AON_RULE2_ACT r) == 7) (fun r s => (s.setInt aonPage (8 + s.cfg (AON_RULE2_ARG r) % 8)).fastStart) s

/-! ### The sequencer (R457–R460) -/

/-- Workshops of a list that are AWAKE or WAKING. -/
def State.active (s : State) (ws : List Nat) : List Nat := ws.filter fun n => s.wksState n == 2 || s.wksState n == 1

/-- A workshop can be chosen to wake: ASLEEP, not held by the CST, not marked failed. -/
def State.wakeable (s : State) (n : Nat) : Bool := s.isAsleep n && !s.cstHolds n && !s.failed n

/-- Pinned workshops that are due to wake. -/
def State.pinsDue (s : State) (ws : List Nat) : List Nat := ws.filter fun n => s.pinned n && s.wakeable n

/-- The four workshops of a slice. -/
def sliceWks (sl : Nat) : List Nat := (List.range 4).map fun i => 4 * sl + i

/-- `n` more workshops of quarter `q` are chosen after those already chosen: each from the slice with the fewest AWAKE, WAKING or chosen, lowest
slice and number first. -/
def State.chooseWakes (s : State) (q : Nat) (have' : List Nat) : Nat → List Nat
  | 0 => have'
  | n + 1 =>
    let load (sl : Nat) : Nat := ((sliceWks sl).filter fun w => s.wksState w == 2 || s.wksState w == 1 || have'.contains w).length
    let cand := (inQuarter q).filter fun w => s.wakeable w && !have'.contains w
    let best := cand.foldl (fun (a : Option Nat) w =>
      match a with | none => some w | some b => if load (w / 4) < load (b / 4) then some w else some b) none
    match best with
    | none => have'
    | some w => State.chooseWakes s q (have' ++ [w]) n

/-- The wakes chosen for quarter `q` at a tick whose target is `n`: those still wanted from before, then new ones (R457). -/
def State.wakesFor (s : State) (q n : Nat) : List Nat :=
  let pins := s.pinsDue (inQuarter q)
  let need := n - (s.active (inQuarter q)).length - pins.length
  let old := ((s.aon.chosen.map fun c => c.1).filter fun w => w / 16 == q && s.wakeable w && !pins.contains w).take need
  (s.chooseWakes q (pins ++ old) (need - old.length)).drop pins.length

/-- The workshop of quarter `q` that goes to sleep (R457): AWAKE, not pinned, from the slice with the most AWAKE, highest slice and number. -/
def State.sleepPick (s : State) (q : Nat) : Option Nat :=
  let load (sl : Nat) : Nat := (s.inState (sliceWks sl) 2).length
  if (s.inState (inQuarter q) 2).length ≤ 1 then none
  else ((s.inState (inQuarter q) 2).filter fun w => !s.pinned w).foldl (fun (a : Option Nat) w =>
    match a with | none => some w | some b => if load (w / 4) < load (b / 4) then some b else some w) none

/-- A quarter's tick of the sequencer with target `n` (R457): the sleep that is due; `lead` is the earliest instant of new wakes. -/
def State.seqQuarter (s : State) (q n lead : Nat) (wakes : List Nat) : State :=
  let act := (s.active (inQuarter q)).length
  let below := if n < act then Tbl.get (fun _ => 0) s.aon.below q + 1 else 0
  let restore := act == 0 && (s.pinsDue (inQuarter q)).isEmpty
  let new : List (Nat × Bool × Nat) := wakes.zipIdx.map fun (x : Nat × Nat) =>
    let at' := match s.aon.chosen.find? fun c => c.1 == x.1 with | some c => c.2.2 | none => lead
    (x.1, restore && x.2 == 0, if restore && x.2 == 0 then s.now else at')
  let s := { s with aon := { s.aon with
    below := Tbl.set (fun _ => 0) s.aon.below q below
    chosen := (s.aon.chosen.filter fun c => c.1 / 16 != q) ++ new } }
  if below < max 1 (s.get AON_CFG_HOLD) then s
  else match s.sleepPick q with
    | none => s
    | some w => s.set (WKS_STAT_STATE w) 3

/-- The budget of R458 lets a wake begin. -/
def State.budgetOk (s : State) : Bool :=
  decide (s.aon.power + s.get AON_BUDGET_WAKE_W * ((s.inState workshops 1).length + 1) ≤ s.get AON_BUDGET_PBUDGET)

/-- The error of the cooling loop: F of its channel less the setpoint. -/
def State.coolErr (s : State) : Int := (s.get (AON_CH_VAL_F (s.get AON_COOL_CTL_CH)) : Int) - s.get AON_COOL_SP_SP

/-- The cooling limit of R458 holds wakes. -/
def State.coolHolds (s : State) : Bool := s.get AON_CFG_COOL_LIM == 1 && s.get AON_COOL_STAT_D == 1023 && decide (0 < s.coolErr)

/-- A wake of workshop `n` begins (R458). -/
def State.beginWake (s : State) (n : Nat) : State :=
  let s := { (s.set (WKS_STAT_STATE n) 1) with
    wks := { s.wks with wakeAt := Tbl.set (fun _ => 0) s.wks.wakeAt n s.now }
    aon := { s.aon with
      starts := (s.aon.starts.filter fun t => decide (s.now < t + 10000)) ++ [s.now]
      chosen := s.aon.chosen.filter fun c => c.1 != n } }
  s.count AON_CNT_WAKES aonPage 5

/-- The slice of a workshop lets a wake begin: no change of level is in progress (R461). -/
def State.sliceFree (s : State) (n : Nat) : Bool := (s.levelChange (n / 4)).isNone

/-- Chosen wakes of a kind that may begin now, in the order chosen. -/
def State.chosenDue (s : State) (restore : Bool) : List Nat :=
  if !s.budgetOk || s.coolHolds then []
  else (s.aon.chosen.filter fun c => c.2.1 == restore && decide (c.2.2 ≤ s.now) && s.wakeable c.1 && s.sliceFree c.1).map fun c => c.1

/-- The wake that begins next, with whether it is one of the last kind (R458). -/
def State.nextWake (s : State) : Option (Nat × Bool) :=
  let may (n : Nat) : Bool := s.wakeable n && s.sliceFree n
  let rest := s.chosenDue false
  let turn := (List.range 4).findSome? fun i => rest.find? fun n => n / 16 == (s.aon.turn + i) % 4
  match s.aon.cstWake.find? may with
  | some n => some (n, false)
  | none => match (s.pinsDue workshops).find? may with
    | some n => some (n, false)
    | none => match (s.chosenDue true).head? with
      | some n => some (n, false)
      | none => turn.map fun n => (n, true)

/-- WAKE_BEGIN (20 R458, R459): the next wake begins, while fewer than WAKE_MAX have begun in the last 10 µs. -/
def execWakeBegin (s : State) : Host.Outcome State Fault Refusal :=
  let recent := (s.aon.starts.filter fun t => decide (s.now < t + 10000)).length
  if s.aon.only || min 4 (max 1 (s.get AON_CFG_WAKE_MAX)) ≤ recent then .next s
  else match s.nextWake with
    | none => .next s
    | some (n, last) =>
      let s := s.beginWake n
      .next (if last then { s with aon := { s.aon with turn := (n / 16 + 1) % 4 } } else s)

/-- WAKE_FAIL (20 R460): a workshop not AWAKE 20 µs after its wake began is gated and marked. -/
def execWakeFail (w : Fin 64) (s : State) : Host.Outcome State Fault Refusal :=
  if s.wksState w = 1 && s.elapsedUs (Tbl.get (fun _ => 0) s.wks.wakeAt w.val) 20 then
    let s := (s.set (WKS_STAT_STATE w) 0).set ⟨AON_WKS_FAIL (w / 32), w % 32, 1⟩ 1
    .next ((s.setInt aonPage 4).raise aonPage 3 (detail := w)).wksChanged.levelsGo
  else .next s

/-! ### The cooling plant (R462–R465) -/

/-- W of a level (Table 20.3). -/
def levelW (l : Nat) : Nat := [89, 114, 141, 172, 211, 256].getD l 256

/-- P of R465: the weights of the workshops AWAKE, WAKING or chosen to wake. -/
def State.powerSum (s : State) : Nat :=
  let due := (s.aon.chosen.map fun c => c.1) ++ s.pinsDue workshops
  ((workshops.filter fun n => s.wksState n == 2 || s.wksState n == 1 || due.contains n).map fun n => levelW (s.levelTarget (n / 4))).sum

/-- The loop runs. -/
def State.coolOn (s : State) : Bool := s.aonOn && s.get AON_CFG_COOL_EN == 1

/-- The drive before its limits, exact (R465). -/
def State.driveExact (s : State) : Int :=
  ((s.get AON_COOL_CTL_KP : Int) * s.coolErr) / 16 + s.aon.integ / 256 + ((s.get AON_FF_KFF * s.powerSum / 2 ^ 14 : Nat) : Int) +
    s.get AON_COOL_LIM_DBASE

/-- U of R465, 13 bits signed; a value that 13 bits do not hold is left open (free value). -/
def State.driveU (s : State) : Int × State :=
  let u := s.driveExact
  if decide (-4096 ≤ u) && decide (u ≤ 4095) then (u, s)
  else
    let r := s.fresh
    (sgn 13 (r.1.toNat % 8192), r.2)

/-- D, SAT and the automatic valve states follow U (R464, R465). -/
def State.setDrive (s : State) (u : Int) : State :=
  let d := min 1023 (max (max (s.get AON_COOL_LIM_DMIN) s.driveFloor) u.toNat)
  let s := (s.set AON_COOL_STAT_D d).set AON_COOL_STAT_SAT (b2n (decide (1023 < u)))
  forEach (List.range 2) (fun n s =>
    let open' := if s.get (AON_VALVE_VON n) ≤ d then true else if d ≤ s.get (AON_VALVE_VOFF n) then false else Tbl.get (fun _ => false) s.aon.vopen n
    { s with aon := { s.aon with vopen := Tbl.set (fun _ => false) s.aon.vopen n open' } }) s

/-- A valve is open (R464): SAFE in safe state, MANVAL with MAN 1, else as the drive has left it. -/
def State.valveOpen (s : State) (n : Nat) : Bool :=
  if s.safe then s.get (AON_VALVE_SAFE n) == 1
  else if s.get (AON_VALVE_MAN n) = 1 then s.get (AON_VALVE_MANVAL n) == 1
  else Tbl.get (fun _ => false) s.aon.vopen n

/-- COOL_PERIOD (20 R465): at each CPER boundary D is computed and the integrator advances, unless the drive is at a limit. -/
def execCoolPeriod (s : State) : Host.Outcome State Fault Refusal :=
  if !s.elapsedUs s.aon.cperAt (1000 * max 1 (s.get AON_COOL_SP_CPER_MS)) then .next s
  else
    let s := { s with aon := { s.aon with cperAt := s.now } }
    if !s.coolOn then .next s
    else
      let r := s.driveU
      let s := r.2.setDrive r.1
      let e := s.coolErr
      let hold := (decide (1023 < r.1) && decide (0 < e)) || (decide (r.1 < s.get AON_COOL_LIM_DMIN) && decide (e < 0))
      .next (if hold then s else { s with aon := { s.aon with integ := s.aon.integ + s.get AON_COOL_CTL_KI * e } })

/-- The duty of PWM output `k` in 1/1,024 (R462, R466). -/
def State.duty (s : State) (k : Nat) : Nat :=
  let lim (x : Nat) : Nat := min 100 x * 1024 / 100
  let minf := lim (s.get (AON_PWM_MIN k))
  let maxf := lim (s.get (AON_PWM_MAX k))
  if s.safe then 1024
  else if s.get (AON_PWM_MAN k) = 1 then minf
  else if !s.coolOn then maxf
  else min maxf (max minf (s.get AON_COOL_STAT_D * s.get (AON_PWM_GAIN k) / 128))

/-- Cycles of 25 MHz for which PWM output `k` is active in each period of PER + 1; none while it is high-impedance (R462). -/
def State.pwmActive (s : State) (k : Nat) : Option Nat :=
  if s.get (AON_PWM_OE k) = 1 then some (s.duty k * (s.get AON_PWM_PER_PER + 1) / 1024) else none

/-- TACH_GATE (20 R463): a gate of 250 ms ends with a count of edges; the fourth slow gate in a row is a fault. -/
def execTachGate (k : Fin 4) (edges : Nat) (s : State) : Host.Outcome State Fault Refusal :=
  let rpm := edges * 240 / (s.get (AON_TACH_CFG_PPR_at k) + 1)
  let tmin := s.get AON_TACH_CFG_TMIN
  let n := if tmin ≠ 0 && rpm < tmin * 16 && 512 ≤ s.duty k then Tbl.get (fun _ => 0) s.aon.slow k.val + 1 else 0
  let s := { s with aon := { s.aon with
    tach := Tbl.set (fun _ => 0) s.aon.tach k.val (min 65535 rpm)
    slow := Tbl.set (fun _ => 0) s.aon.slow k.val (min 5 n) } }
  .next (if n = 4 then (s.raise aonPage 1 (detail := k)).setInt aonPage 3 else s)

/-! ### The tick (R452) -/

/-- The earliest instant of a tick's new wakes: after the lead when P has risen by BULK workshop-weights or more (R465). -/
def State.leadOf (s : State) (p : Nat) : Nat :=
  if s.coolOn && s.get AON_FF_FF_LEAD_US ≠ 0 && s.aon.pw + 256 * s.get AON_CFG_BULK ≤ p then s.now + 1000 * s.get AON_FF_FF_LEAD_US else s.now

/-- The targets of a tick are formed and the sequencer acts on them (R456–R458, R461). -/
def State.applyTargets (s : State) (held : List Nat) : State :=
  let s := forEach (List.range 16) (fun sl s => s.setTarget sl (s.levelGoal held sl)) s
  let ns := (List.range 4).map fun q => s.awakeTarget held q
  let s := forEach (List.range 4) (fun q s => s.set (AON_TARGET_N_at q) (ns.getD q 1)) s
  let ws := (List.range 4).map fun q => s.wakesFor q (ns.getD q 1)
  let p := ({ s with aon := { s.aon with chosen := ws.flatten.map fun w => (w, false, 0) } }).powerSum
  let lead := s.leadOf p
  let s := forEach (List.range 4) (fun q s => s.seqQuarter q (ns.getD q 1) lead (ws.getD q [])) s
  { s with aon := { s.aon with pw := p } }

/-- A wake of the last two kinds waits on the budget or on the cooling limit: DEFERS and INT_STAT bit 2 (R458). -/
def State.deferWakes (s : State) : State :=
  if !s.aon.chosen.isEmpty && (!s.budgetOk || s.coolHolds) then
    ((s.set AON_STAT_DEFER 1).count AON_CNT_DEFERS aonPage 5).setInt aonPage 2
  else s.set AON_STAT_DEFER 0

/-- TICK in nanoseconds. -/
def State.tickNs (s : State) : Nat := 640 * max 1 (s.get AON_CFG_TICK)

/-- The inputs of a tick. -/
def State.takeInputs (s : State) (ain : List (BitVec 12)) (power : BitVec 16) : State :=
  { s with aon := { s.aon with
    ain := (List.range 8).foldl (fun t k => Tbl.set (fun _ => 0) t k ((ain.getD k 0).toNat * 16)) s.aon.ain
    power := power.toNat
    tickAt := s.now } }

/-- ISLAND_TICK (20 R452–R458, R461, R465, R466): channels are sampled and filtered, rules evaluated, targets applied. `ain` and `power` are the
converted inputs; `bad` is a rule with an uncorrectable error. -/
def execIslandTick (ain : List (BitVec 12)) (power : BitVec 16) (bad : Option (Fin 128)) (s : State) : Host.Outcome State Fault Refusal :=
  if s.now - s.aon.tickAt < s.tickNs then .next s
  else
    let s := s.takeInputs ain power
    let s := match bad with
      | some r => ({ s with aon := { s.aon with badRules := if s.aon.badRules.contains r.val then s.aon.badRules else s.aon.badRules ++ [r.val] } }).raise aonPage 4
      | none => s
    let s := forEach (List.range 32) (fun c s => s.sampleCh c) s
    let held := if s.aonOn then rules.filter s.ruleHolds else []
    let s := s.applyRules held
    let s := if s.aonOn && !s.aon.only then (s.applyTargets held).deferWakes else s
    let s := if s.coolOn then (let r := s.driveU; r.2.setDrive r.1) else s
    .next s.levelsGo

/-! ### Temperatures (R466, R470) -/

/-- DIE_SENSOR_READING (20 R453, R466): a reading of a die sensor, a chiplet or an HBM case; the second in a row at or above its threshold begins
a safe-state condition, the second in a row below it ends one. -/
def execDieSensorReading (k : Fin 26) (t : BitVec 16) (s : State) : Host.Outcome State Fault Refusal :=
  let die := decide (k.val < 20)
  let thr := if die then s.get AON_TSAFE_DIE else s.get AON_TSAFE_HBM
  let kind := if die then 2 else 3
  let idx := if die then k.val else k.val - 20
  let hot := decide (thr ≤ t.toNat)
  let hi := if hot then min 2 (Tbl.get (fun _ => 0) s.aon.high k.val + 1) else 0
  let lo := if hot then 0 else min 2 (Tbl.get (fun _ => 0) s.aon.low k.val + 1)
  let s := { s with aon := { s.aon with
    temp := Tbl.set (fun _ => 0) s.aon.temp k.val t.toNat
    tempAt := Tbl.set (fun _ => 0) s.aon.tempAt k.val s.now
    high := Tbl.set (fun _ => 0) s.aon.high k.val hi
    low := Tbl.set (fun _ => 0) s.aon.low k.val lo } }
  .next (if hi = 2 then s.condBegin kind idx else if lo = 2 then s.condEnd kind idx else s)

/-- SENSOR_TIMEOUT (20 R470): a reading has not come for 1 ms; the sensor's channels hold their last value. -/
def execSensorTimeout (k : Fin 26) (s : State) : Host.Outcome State Fault Refusal :=
  .next (if s.elapsedUs (Tbl.get (fun _ => 0) s.aon.tempAt k.val) 1000 then s.raise aonPage 2 else s)

/-! ### Commands and the controller (R451, R468, 22 R492) -/

/-- AON_CMD 1 (R468): accepted while every slice's MODE is live at 0; every workshop drains and every stack enters self-refresh, the link is
placed in L1.2. -/
def State.islandOnly (s : State) : State :=
  if (List.range 16).any fun i => s.get (PRT_SLICE_MODE_MODE i) != 0 then s.set AON_STAT_CMD_ERR 1
  else
    let s := s.set AON_STAT_CMD_ERR 0
    let s := { s with aon := { s.aon with
      only := true
      chosen := []
      cstWake := []
      cstSleep := [] } }
    let s := forEach (s.active workshops) (fun n s => s.set (WKS_STAT_STATE n) 3) s
    (if s.get HIF_LINK_STAT_SPEED = 0 then s else s.set HIF_LINK_STAT_LPM 3).srefAll

/-- AON_CMD 2 (R451). -/
def State.wakeCtrl (s : State) : State := (s.set AON_STAT_CMD_ERR 0).fastStart

/-- The device restarts from the island-only state (22 R492, Table 22.5). -/
def State.islandRestart (s : State) : State :=
  if !s.aon.only then s
  else
    let s := ({ s with aon := { s.aon with only := false } }).fastStart
    (if s.get HIF_LINK_STAT_SPEED = 0 then s else s.set HIF_LINK_STAT_LPM 0).srefLeaveAll

/-- ISLAND_RESTART (22 R492). -/
def execIslandRestart (s : State) : Host.Outcome State Fault Refusal := .next s.islandRestart

/-- A cause that keeps domain 57 running (R451): a candidate for the island's target, an EVENT rule that holds, a trap not acknowledged. -/
def State.fastCause (s : State) : Bool :=
  (s.candidate 256).isSome || (s.held128.any fun r => s.cfg (AON_RULE2_ACT r) == 7) || s.get FLT_NMT_PEND == 1

/-- ISLAND_CONTROLLER_HALT (20 R451): the controller halts; domain 57 stops when no cause is pending. -/
def execIslandControllerHalt (s : State) : Host.Outcome State Fault Refusal :=
  .next (if s.fastCause then s else { s with aon := { s.aon with fast := false } })

end Sys2Proof.Machine
end

