-- ==== Sys2Proof/Machine/Registers.lean ====
section
/-! DEFINITION. Accesses of the initiators to BAR0 (02 R32, R33, R35–R43): who may reach a page, what a read returns and what a write does
to every register, by its access code or as the command that it is. -/

namespace Sys2Proof.Machine

open Reg

/-! ### Reaching a register (R32, R37, 22 R489, R492) -/

/-- SEC_STAT.STATE is neither READY nor FAILED (22 R489). -/
def State.booting (s : State) : Bool := decide (s.get SEC_STAT_STATE < 2)

/-- The SYS fault source of an access of initiator `i` to address `a`, if it does not reach a register page: 1 for an unassigned page
(R32), 4 for a page closed to the host until the boot has ended (22 R489). -/
def State.accessFault (s : State) (i a : Nat) : Option Nat :=
  if !assigned a then some 1
  else if i = 0 && s.booting && !(blockOf a == 0 || blockOf a == 2 || blockOf a == 3) then some 4
  else none

/-- An access ends the island-only state when it is the host's, or JTAG's to the AON page (22 R492). -/
def State.wakeFor (s : State) (i a : Nat) : State :=
  if s.aon.only && (i == 0 || (i == 3 && blockOf a == 4)) then s.islandRestart else s

/-- The register at an address takes no part while its page is resetting (R37): the header does. -/
def State.shut (s : State) (a : Nat) : Bool := s.inReset a && decide (0x80 ≤ a % 0x1000)

/-- The effect `f` of an access of initiator `i` to the register at `a`: none while the device is held in reset or the page is resetting,
and the access fault where it does not reach the page. -/
def State.atReg (s : State) (i a : Nat) (f : State → State) : State :=
  if s.held then s
  else
    let s := s.wakeFor i a
    match s.accessFault i a with
    | some src => s.raise 0 src (addr := a)
    | none => if s.shut a then s else f s

/-- An access of initiator `i` reaches the register at `a` as the device stands. -/
def State.reaches (s : State) (i a : Nat) : Bool :=
  !s.held && !s.aon.only && (s.accessFault i a).isNone && !s.shut a

/-- A read by initiator `i` of the register at `a`, whose word and effect `f` gives; a read that does not reach it returns 0 (R32, R37). -/
def State.atRead (s : State) (i a : Nat) (f : State → Word × State) : Word × State :=
  if s.held then (0, s)
  else
    let s := s.wakeFor i a
    match s.accessFault i a with
    | some src => (0, s.raise 0 src (addr := a))
    | none => if s.shut a then (0, s) else f s

/-! ### The page header (R35) -/

/-- The clock domain of a page (each chapter's register map; PRT from Table 1.6). -/
def domainOf (a : Nat) : Nat :=
  let n := pageIndex a
  match blockOf a with
  | 2 => 58 | 4 => 56 | 6 => 53 | 7 => 55 | 8 => 62 | 9 => 61 | 10 => 51 | 11 => 36 + n | 12 => 50 | 13 => 48 | 14 => 48
  | 15 => 32 + n | 16 => 32 | 17 => 32 | 18 => 32 | 20 => n / 4 | 21 => 16 + n | 23 => 16 + n | _ => 54

/-- A page's domain clock runs: in the island-only state only domain 56 (01 R29). -/
def State.clockRuns (s : State) (a : Nat) : Bool := !s.refLost && (!s.aon.only || domainOf a == 56)

/-- A page's clock is gated by the island: that of a workshop that is ASLEEP (01 R28). -/
def State.clockGated (s : State) (a : Nat) : Bool := blockOf a == 20 && s.isAsleep (pageIndex a)

/-- LEDGER_STAT of a page: its staged words and their owners. -/
def State.ledgerStat (s : State) (pg : Nat) : Nat :=
  let n (i : Nat) : Nat := ((s.txn i).staged.filter fun p => pageOf p.1 == pg).length
  (initiators.map n).sum + (initiators.map fun i => if n i = 0 then 0 else 2 ^ (16 + i)).sum

/-- A word of the common page header (Table 2.3). -/
def State.headerWord (s : State) (a : Nat) : Word :=
  let pg := pageOf a
  match a % 0x1000 with
  | 0x00 => BitVec.ofNat 32 (blockOf a + 256 * pageIndex a + 0x10000)
  | 0x0C => BitVec.ofNat 32 (s.get (ctlEn pg) + 2 * s.get (statResetting pg))
  | 0x1C => BitVec.ofNat 32 (s.ledgerStat pg)
  | 0x28 => BitVec.ofNat 32 (domainOf a + 64 * b2n (s.clockRuns a) + 128 * b2n (s.clockGated a))
  | _ => s.rd a

/-! ### Registers that show the state of their block -/

/-- The place of an address in an array of `n` registers. -/
def inArr (a base n stride : Nat) : Option Nat :=
  if base ≤ a ∧ (a - base) % stride = 0 ∧ (a - base) / stride < n then some ((a - base) / stride) else none

/-- Bits `f 0`, `f 1`, … of an `n`-bit number. -/
def bitsOf (n : Nat) (f : Nat → Bool) : Nat := ((List.range n).map fun k => if f k then 2 ^ k else 0).sum

/-- LDG registers: LDG_STAGE, LDG_TXN_STAT and LDG_VER_STAT. -/
def State.viewLdg (s : State) (a : Nat) : Word :=
  if a = LDG_STAGE then BitVec.ofNat 32 (0x4000 + s.stagedUsed * 2 ^ 16)
  else if a = LDG_VER_STAT then
    let w := match s.ldg.order with | i :: _ => if s.opensSlot i && s.freeSlot.isNone then some i else none | [] => none
    BitVec.ofNat 32 (s.newest + 16 * b2n w.isSome + 32 * w.getD 0 + 256 * (slots.filter fun k => !s.live k).length +
      2 ^ 16 * bitsOf 16 s.live)
  else match inArr a 0x10104 5 0x40 with
    | some i => s.rd a ||| BitVec.ofNat 32 (s.stagedWords i * 2 ^ 16)
    | none => s.rd a

/-- SEC registers: the fuses, the serial number and the identity key. -/
def State.viewSec (s : State) (a : Nat) : Word :=
  if a = SEC_FUSE then BitVec.ofNat 32 (s.svn + 256 * s.revokedSlots)
  else if a = SEC_SERIAL 0 then Config.serial.setWidth 32
  else if a = SEC_SERIAL 1 then (Config.serial >>> 32).setWidth 32
  else match inArr a 0x20100 16 4 with
    | some w => BitVec.ofNat 32 (beNat ((List.range 4).map fun k => Config.idPub (4 * w + k)))
    | none => s.rd a

/-- FLT registers: the selected source and the open shadows. -/
def State.viewFlt (s : State) (a : Nat) : Word :=
  if a = FLT_SRC_CFG then s.fltCfgWord
  else if a = FLT_SRC_STAT then s.fltStatWord
  else if a = FLT_SHADOW_STAT then BitVec.ofNat 32 (s.flt.shadows.filter s.shadowOpen).length
  else s.rd a

/-- AON registers: AON_STAT and the valves. -/
def State.viewAon (s : State) (a : Nat) : Word :=
  if a = AON_STAT then
    s.rd a ||| BitVec.ofNat 32 ((workshops.filter s.isAwake).length + 128 * b2n (!s.aon.conds.isEmpty) + 256 * b2n s.aon.fast + 512 * b2n s.aon.only)
  else if a = AON_COOL_STAT then s.rd a ||| BitVec.ofNat 32 (2 ^ 11 * b2n (s.valveOpen 0) + 2 ^ 12 * b2n (s.valveOpen 1))
  else s.rd a

/-- A source as ICU_SRC_CFG shows it. -/
def ISrc.cfgWord (x : ISrc) : Nat := b2n x.en + 2 * x.prio + 32 * x.tgt

/-- A target's status (17 ICU target registers). -/
def State.tgtStat (s : State) (t : Nat) : Word :=
  let x := s.itgt t
  BitVec.ofNat 32 (b2n x.msgOut + 2 * b2n (s.waiting t) + 4 * b2n x.insvc.isSome + 8 * x.insvc.getD 0)

/-- ICU registers: the selected source and target, the island's target, and the pending bits. -/
def State.viewIcu (s : State) (a : Nat) : Word :=
  let n := s.get ICU_SRC_SEL_SRC
  let x := s.isrc n
  let t := s.get ICU_TGT_SEL_TGT
  let y := s.itgt t
  if a = ICU_SRC_CFG then BitVec.ofNat 32 x.cfgWord
  else if a = ICU_SRC_STAT then
    BitVec.ofNat 32 (b2n x.raw + 2 * b2n x.p + 4 * b2n (s.icu.tgt.any fun q => q.2.insvc == some n) + 8 * b2n x.bound.isSome + 16 * x.bound.getD 0)
  else if a = ICU_TGT_ADDR_LO then BitVec.ofNat 32 y.addr
  else if a = ICU_TGT_ADDR_HI then BitVec.ofNat 32 (y.addr / 2 ^ 32)
  else if a = ICU_TGT_DATA then y.data
  else if a = ICU_TGT_CTL then BitVec.ofNat 32 (b2n y.mask + 2 * b2n y.sleep)
  else if a = ICU_TGT_STAT then s.tgtStat t
  else if a = ICU_ISL_STAT then s.tgtStat 256
  else match inArr a 0x51800 128 4 with
    | some w => BitVec.ofNat 32 (bitsOf 32 fun k => (s.isrc (32 * w + k)).p)
    | none => s.rd a

/-- CNT registers: the value of the selected counter (18 CNT_VAL). -/
def State.viewCnt (s : State) (a : Nat) : Word :=
  let x := s.prog (s.get CNT_SEL_INDEX)
  if a = CNT_VAL_LO then BitVec.ofNat 32 x.value
  else if a = CNT_VAL_HI then BitVec.ofNat 32 (x.value / 2 ^ 32 + 2 ^ 31 * b2n x.sat)
  else s.rd a

/-- SCH registers: bytes in the egress queues of a port. -/
def State.viewSch (s : State) (a : Nat) : Word :=
  match (List.range 256).find? fun p => SCH_PORT_STAT (p / 16) (p % 16) == a with
  | some p => s.rd a ||| BitVec.ofNat 32 (min 0xFFFF (s.eqBytes p / 1024) * 2 ^ 16)
  | none => s.rd a

/-- BUF registers: the requesters that wait on a pool. -/
def State.viewBuf (s : State) (a : Nat) : Word :=
  match inArr a 0x20010C 8 0x20 with
  | some p => s.rd a ||| BitVec.ofNat 32 (bitsOf 20 (fun r => (s.presented p).any fun q => q.requester == r && q.waited) * 256)
  | none => s.rd a

/-- Spilled bytes of a VOQ (12 VOQ_SPILL). -/
def State.voqSpilled (s : State) (v : Nat) : Nat :=
  (((s.voqQ v).filter fun id => (s.frame id).spill == .spilled || (s.frame id).spill == .returning).map fun id => s.qlen (s.frame id)).sum

/-- VOQ registers: the depth of the selected VOQ. -/
def State.viewVoq (s : State) (a : Nat) : Word :=
  let v := s.get VOQ_DEPTH_SEL_VOQID
  if a = VOQ_DEPTH_LO then BitVec.ofNat 32 (s.depth v)
  else if a = VOQ_DEPTH_HI then BitVec.ofNat 32 (s.depth v / 2 ^ 32 % 256)
  else if a = VOQ_SPILL_LO then BitVec.ofNat 32 (s.voqSpilled v)
  else if a = VOQ_SPILL_HI then BitVec.ofNat 32 (s.voqSpilled v / 2 ^ 32 % 256)
  else s.rd a

/-- ACS registers: searches queued at an instance, and the rules of a list. -/
def State.viewAcs (s : State) (a : Nat) : Word :=
  match inArr a 0x400080 4 0x1000 with
  | some q => s.rd a ||| BitVec.ofNat 32 ((s.lkp.filter fun l => l.kind == .acs && l.wks / 16 == q && l.res.isNone).length * 2 ^ 9)
  | none =>
    match inArr a 0x400804 64 8 with
    | some l => BitVec.ofNat 32 (((s.acs.copies.filter fun c => c.list == l && c.pend.isNone && bit c.smask s.newest).map ACopy.pos).eraseDups).length
    | none => s.rd a

/-- OBJ registers: what is free. -/
def State.viewObj (s : State) (a : Nat) : Word :=
  if a = OBJ_COPY_FREE then BitVec.ofNat 32 (s.copyFree 0 + s.copyFree 1 * 2 ^ 16)
  else if a = OBJ_POOL_FREE then BitVec.ofNat 32 s.bucketFree
  else if a = OBJ_REPL_FREE then BitVec.ofNat 32 s.replFree
  else s.rd a

/-- LPM registers: routes visible to the newest committed slot. -/
def State.viewLpm (s : State) (a : Nat) : Word :=
  let n (p : Route → Bool) : Word := BitVec.ofNat 32 (s.lpm.routes.filter fun r => s.visible r.v false s.newest && p r).length
  if a = LPM_V4_CNT then n fun r => !r.v6
  else if a = LPM_V6_CNT then n fun r => r.v6
  else if a = LPM_EXT_CNT then n fun r => r.ext
  else s.rd a

/-- XMT registers: the stash, the learn queue, and the entries of a table. -/
def State.viewXmt (s : State) (a : Nat) : Word :=
  if a = XMT_STAT then BitVec.ofNat 32 ((stashed s.xmt.entries).length + s.xmt.learnQ.length * 2 ^ 16)
  else
    let t := (pageIndex a - 1) * 32 + (a % 0x1000 - 0x800) / 0x40
    let seen (p : XEntry → Bool) : Word := BitVec.ofNat 32 (s.xmt.entries.filter fun e => e.tid == t && s.visible e.v e.l s.newest && p e).length
    if pageIndex a = 0 || a % 0x1000 < 0x800 then s.rd a
    else if a % 0x40 = 0x1C then s.rd a ||| BitVec.ofNat 32 (((stashed s.xmt.entries).filter fun e => e.tid == t).length * 2 ^ 16)
    else if a % 0x40 = 0x20 then seen fun _ => true
    else if a % 0x40 = 0x24 then seen fun e => e.place == .ext
    else s.rd a

/-- CST registers: the workshops that hold the new image. -/
def State.viewCst (s : State) (a : Nat) : Word :=
  if a = CST_STAT then
    s.rd a ||| BitVec.ofNat 32 ((if s.cst.ver = 0 then [] else workshops.filter fun n => (s.rd (CST_WVER n)).toNat == s.cst.ver).length * 2 ^ 16)
  else s.rd a

/-- WKS registers: busy contexts, outstanding tickets and dispatch queues. -/
def State.viewWks (s : State) (a : Nat) : Word :=
  let n := pageIndex a
  let k := 2 * (n / 4)
  match a % 0x1000 with
  | 0x80 => s.rd a ||| BitVec.ofNat 32 (s.busyCtx n * 256)
  | 0x400 => if n % 4 = 0 then BitVec.ofNat 32 ((s.stageOf k).out.length + (s.stageOf (k + 1)).out.length * 2 ^ 16) else s.rd a
  | 0x408 => if n % 4 = 0 then BitVec.ofNat 32 ((s.dispQ k).length + (s.dispQ (k + 1)).length * 2 ^ 16) else s.rd a
  | _ => s.rd a

/-- The word of LOOM_CALRD_DATA: four slots of the calendar in use that LOOM_CALRD_SEL names. -/
def State.calWord (s : State) : Nat :=
  let g := s.get LOOM_CALRD_SEL_GROUP
  let w := s.get LOOM_CALRD_SEL_WORD
  let c := if s.get LOOM_CALRD_SEL_DIR = 1 then (s.grp g).rcal else (s.grp g).cal
  if 80 ≤ w then 0 else ((List.range 4).map fun k => c.getD (4 * w + k) 31 * 2 ^ (8 * k)).sum

/-- The word that a read of the register at an address returns (R35, R43 aside), by block. -/
def State.readWord (s : State) (a : Nat) : Word :=
  if a % 0x1000 < 0x80 then s.headerWord a
  else match blockOf a with
    | 1 => s.viewLdg a
    | 2 => s.viewSec a
    | 3 => s.viewFlt a
    | 4 => s.viewAon a
    | 5 => s.viewIcu a
    | 6 => if a = HIF_TS_STAT then BitVec.ofNat 32 s.hif.tsQ.length else s.rd a
    | 8 => s.viewCnt a
    | 9 => if a = CAP_STAT then BitVec.ofNat 32 s.cap.q.length else s.rd a
    | 10 => if a = CLY_STAT then s.rd a ||| BitVec.ofNat 32 s.stageUsed else s.rd a
    | 11 => if a % 0x1000 = 0xA0 then s.rd a ||| BitVec.ofNat 32 (s.debtMax (pageIndex a)) else s.rd a
    | 12 => s.viewSch a
    | 13 => s.viewBuf a
    | 14 => s.viewVoq a
    | 15 => s.viewAcs a
    | 16 => s.viewObj a
    | 17 => s.viewLpm a
    | 18 => s.viewXmt a
    | 19 => s.viewCst a
    | 20 => s.viewWks a
    | 21 => if a % 0x1000 = 0x80 then BitVec.ofNat 32 (s.engines (pageIndex a)).length else s.rd a
    | 22 => if a = LOOM_CALRD_DATA then BitVec.ofNat 32 s.calWord else s.rd a
    | 23 => if a % 0x1000 = 0x88 then s.rd a ||| BitVec.ofNat 32 (s.headFill (pageIndex a)) else s.rd a
    | _ => s.rd a

/-! ### Reads (R33, R43) -/

/-- The word that initiator `i` reads at an address: its own staged word where READ_STAGED is set (R43). -/
def State.readFor (s : State) (i a : Nat) : Word :=
  if s.get (LDG_TXN_CTL_READ_STAGED i) = 1 then
    match Tbl.get (fun _ => none) (s.txn i).staged a with
    | some w => mergeRws (rwsMask a) (s.readWord a) w
    | none => s.readWord a
  else s.readWord a

/-- The part that a register takes in a pair (R33). -/
def pairOf (a : Nat) : PairKind := if a % 0x1000 < 0x80 then .plain else match findRow a with | some r => r.kind | none => .plain

/-- The _LO register of a 64-bit quantity. -/
def isLo (a : Nat) : Bool := pairOf a == .snapLo || pairOf a == .rwLo

/-- The _HI register of a 64-bit quantity. -/
def isHi (a : Nat) : Bool := pairOf a == .snapHi || pairOf a == .rwHi

/-- A read of a _LO register (R7, R33): it replaces the initiator's capture with the value of the paired _HI. -/
def State.readLo (s : State) (i a : Nat) : Word × State :=
  (s.readFor i a, { s with hiCap := Tbl.set (fun _ => none) s.hiCap i (some (a + 4, s.readWord (a + 4))) })

/-- A read of a _HI register (R33): the initiator's capture of that pair, given up, or else the current value. -/
def State.readHi (s : State) (i a : Nat) : Word × State :=
  match Tbl.get (fun _ => none) s.hiCap i with
  | some (b, w) => if b = a then (w, { s with hiCap := Tbl.set (fun _ => none) s.hiCap i none }) else (s.readFor i a, s)
  | none => (s.readFor i a, s)

/-- A read by initiator `i` of a register whose page it reaches: claims (17 R392), the captures of TIM (18 R420), pairs, and all others. -/
def State.regRead (s : State) (i a : Nat) : Word × State :=
  if a = ICU_ISL_CLAIM then s.claim 256
  else if a = TIM_NOW_NS then s.timeRead i
  else if a = TIM_NOW_SLO then s.timCapRead i 0 (BitVec.ofNat 32 s.tb.sec)
  else if a = TIM_NOW_SHI then s.timCapRead i 1 s.nowShi
  else if a = TIM_PPS_IN_NS then s.ppsInRead i
  else if a = TIM_PPS_IN_SLO then s.timCapRead i 2 (s.rd TIM_PPS_IN_SLO)
  else match inArr a 0x50800 256 8 with
    | some t => s.claim t
    | none => if isLo a then s.readLo i a else if isHi a then s.readHi i a else (s.readFor i a, s)

/-! ### Writes by access code (R9, R10) -/

/-- A word after a write of `w` to a register's RW and W1C bits (Table 0.3); every other bit is as before. -/
def RegRow.plain (r : RegRow) (old w : Word) : Word :=
  mergeRws (BitVec.ofNat 32 r.rw) old w &&& ~~~(w &&& BitVec.ofNat 32 r.w1c)

/-- A write to a register by its access codes alone. -/
def State.plainWrite (s : State) (a : Nat) (w : Word) : State :=
  match findRow a with
  | some r => s.wr a (r.plain (s.rd a) w)
  | none => s

/-- A write of a 32-bit word to a register of the common page header (Table 2.3, R36). -/
def State.headerWrite (s : State) (i a : Nat) (w : Word) : State :=
  let pg := pageOf a
  match a % 0x1000 with
  | 0x08 =>
    let s := if ctlActsAtOnce (blockOf a) then s.set (ctlEn pg) (bits w.toNat 0 1) else s.stageWord i a (w &&& 1)
    if bit w.toNat 1 then s.softReset pg else s
  | 0x10 => (s.wr a (s.rd a &&& ~~~w)).fltSettle
  | 0x14 => s.withIrq pg fun s => s.wr a (s.rd a &&& ~~~w)
  | 0x18 => s.withIrq pg fun s => s.wr a w
  | 0x20 => s.wr a w
  | 0x24 => s.wr a (s.rd a &&& ~~~w)
  | _ => s

/-! ### Writes of registers with an effect of their own -/

/-- The command code of a word: its low `n` bits. -/
def codeOf (w : Word) (n : Nat) : Nat := bits w.toNat 0 n

/-- LDG: transaction, slot and cascade commands; a change of LDG_CC_MASK makes a checkpoint due (16 R365). -/
def State.writeLdg (s : State) (a : Nat) (w : Word) : State :=
  match inArr a 0x10100 5 0x40, inArr a 0x10700 64 4 with
  | some k, _ => (match codeOf w 2 with | 1 => s.txnBegin k | 2 => s.txnCommit k | 3 => s.txnRollback k | _ => s)
  | _, some _ => if s.rd a = w then s else (s.plainWrite a w).ckptDue
  | none, none =>
    if a = LDG_SLOT_CMD then (if codeOf w 2 = 1 then s.retireOldest else s)
    else if a = LDG_CC_CMD then (match codeOf w 2 with | 1 => s.ccCmdPrepare | 2 => s.ccCmdAbort | _ => s)
    else s.plainWrite a w

/-- FLT: source configuration, record window, trap acknowledge, ERROR_N and safe state; REL counts before EXIT. -/
def State.writeFlt (s : State) (a : Nat) (w : Word) : State :=
  if a = FLT_SRC_CFG then s.fltSetCfg w
  else if a = FLT_REC_SEL then s.recordSelect w false
  else if a = FLT_NMT then (if bit w.toNat 1 then s.nmtAck else s)
  else if a = FLT_PIN then
    let s := if bit w.toNat 2 then s.pinRelease else s
    if bit w.toNat 3 then s.safeExit else s
  else s.plainWrite a w

/-- AON: commands; a channel that is disabled loses its filter state (20 R454). -/
def State.writeAon (s : State) (a : Nat) (w : Word) : State :=
  if a = AON_CMD then (match codeOf w 2 with | 1 => s.islandOnly | 2 => s.wakeCtrl | _ => s)
  else
    let s := s.plainWrite a w
    match inArr a 0x40200 32 8 with
    | some c => if bit w.toNat 12 then s else { s with aon := { s.aon with filt := Tbl.set (fun _ => none) s.aon.filt c none } }
    | none => s

/-- ICU: the selected source and target, pending bits and ends of interrupt. -/
def State.writeIcu (s : State) (a : Nat) (w : Word) : State :=
  let t := s.get ICU_TGT_SEL_TGT
  if a = ICU_SRC_CFG then s.sourceConfig (s.get ICU_SRC_SEL_SRC) w
  else if a = ICU_PEND_SET then s.pendSet (codeOf w 12) (bit w.toNat 31)
  else if a = ICU_TGT_DATA then s.setItgt t { s.itgt t with data := w }
  else if a = ICU_TGT_CTL then s.setItgt t { s.itgt t with
    mask := bit w.toNat 0
    sleep := bit w.toNat 1 }
  else if a = ICU_ISL_EOI then s.eoi 256 (codeOf w 12)
  else match inArr a 0x50804 256 8 with
    | some k => s.eoi k (codeOf w 12)
    | none => s.plainWrite a w

/-- HIF: ring commands; HIF_PUNT_CFG changes only while port 256 is down (17 R381). -/
def State.writeHif (s : State) (a : Nat) (w : Word) : State :=
  if a = HIF_RING_CMD then (match codeOf w 2 with | 1 => s.ringWrite | 2 => s.ringRead | _ => s)
  else if a = HIF_PUNT_CFG && s.hostPortUp then s
  else s.plainWrite a w

/-- CLY: the device's identity (16 R345), commands of the master, remote and reach registers, and link enables (R347). -/
def State.writeCly (s : State) (a : Nat) (w : Word) : State :=
  if a = CLY_ID then
    (if s.get (ctlEn clyPage) = 1 then (if (s.rd a ^^^ w) &&& 0x1FFF = 0 then s else s.set CLY_STAT_ID_ERR 1) else s.plainWrite a w)
  else if a = CLY_MST_CMD then (match codeOf w 2 with | 1 => s.rehearseCmd | 2 => s.handoverCmd | _ => s)
  else if a = CLY_RW_CMD then (match codeOf w 2 with | 1 => s.rwStart false | 2 => s.rwStart true | _ => s)
  else if a = CLY_RCH_CMD then (match codeOf w 2 with | 1 => s.reachWrite | 2 => s.reachRead | _ => s)
  else
    let s := s.plainWrite a w
    match links.find? fun l => CLY_LINK_CFG (l / 32) (l % 32) == a with
    | some l =>
      if bit w.toNat 0 then (if s.linkState l = 0 && s.portMode l == 9 then s.setLink l 1 else s) else s.setLink l 0
    | none => s

/-- HBC: stack commands; any 1 written to PEAK makes it the current TEMP. -/
def State.writeHbc (s : State) (a : Nat) (w : Word) : State :=
  let h := pageIndex a
  match a % 0x1000 with
  | 0x8C => (match codeOf w 3 with | 1 => s.hbcTrain h | 2 => s.hbcTest h | 3 => s.srefEnter h | 4 => s.srefExit h | _ => s)
  | 0x9C => if bits w.toNat 8 8 = 0 then s else s.set (HBC_TEMP_PEAK h) (s.get (HBC_TEMP_TEMP h))
  | _ => s.plainWrite a w

/-- SCH: policer and gate commands and the sample window. -/
def State.writeSch (s : State) (a : Nat) (w : Word) : State :=
  if a = SCH_POL_CMD then (match codeOf w 2 with | 1 => s.policerWrite | 2 => s.policerRead | _ => s)
  else if a = SCH_GATE_CMD then (match codeOf w 2 with | 1 => s.gateWrite | 2 => s.gateRead | _ => s)
  else if a = SCH_SMP_SEL then s.sampleSelect (codeOf w 12)
  else s.plainWrite a w

/-- BUF: any 1 written to LWM makes it the current FREE. -/
def State.writeBuf (s : State) (a : Nat) (w : Word) : State :=
  match inArr a 0x200108 8 0x20 with
  | some p => if codeOf w 22 = 0 then s else s.set (BUF_POOL_LWM_LWM p) (s.get (BUF_POOL_FREE_FREE p))
  | none => s.plainWrite a w

/-- CST: commands and the debug window. -/
def State.writeCst (s : State) (a : Nat) (w : Word) : State :=
  if a = CST_CMD then s.cstCommand (codeOf w 2)
  else if a = CST_DBG_ADDR then s.debugRead w
  else s.plainWrite a w

/-- A write of a word by initiator `i` to a register with no staged field beyond the header: the commands of each block, else by access code. -/
def State.writeLive (s : State) (i a : Nat) (w : Word) : State :=
  let job (start abort : State) : State := match bits w.toNat 16 2 with | 1 => start | 2 => abort | _ => s
  match blockOf a with
  | 0 => (match inArr a 0x10C0 8 4 with | some t => s.puntWrite t w | none => s.plainWrite a w)
  | 1 => s.writeLdg a w
  | 2 => if a = SEC_CMD then s.secCommand (codeOf w 3) else s.plainWrite a w
  | 3 => s.writeFlt a w
  | 4 => s.writeAon a w
  | 5 => s.writeIcu a w
  | 6 => s.writeHif a w
  | 7 => if a = TIM_CMD then (match codeOf w 2 with | 1 => s.timeSet | 2 => s.timeStep | _ => s) else s.plainWrite a w
  | 8 => if a = CNT_CMD then (match codeOf w 2 with | 1 => s.counterWrite (bit w.toNat 2) | 2 => s.counterRead | _ => s) else s.plainWrite a w
  | 10 => s.writeCly a w
  | 11 => s.writeHbc a w
  | 12 => s.writeSch a w
  | 13 => s.writeBuf a w
  | 14 => if a = VOQ_MAP_CMD then (match codeOf w 2 with | 1 => s.mapWrite | 2 => s.mapRead | _ => s) else s.plainWrite a w
  | 15 => if a = ACS_JOB_CMD then job (s.acsJobStart i (codeOf w 16)) s.acsJobAbort else s.plainWrite a w
  | 16 => if a = OBJ_JOB_CMD then job (s.objJobStart i (codeOf w 16)) s.objJobAbort else s.plainWrite a w
  | 17 => if a = LPM_JOB_CMD then job (s.lpmJobStart i (codeOf w 16)) s.lpmJobAbort else s.plainWrite a w
  | 18 =>
    if a = XMT_JOB_CMD then
      (match bits w.toNat 24 2 with | 1 => s.xmtJobStart i (bits w.toNat 16 8) (codeOf w 16) | 2 => s.xmtJobAbort | _ => s)
    else s.plainWrite a w
  | 19 => s.writeCst a w
  | 21 =>
    if a % 0x1000 = 0x104 then (match codeOf w 2 with | 1 => s.gmemWrite i (pageIndex a) | 2 => s.gmemRead i (pageIndex a) | _ => s)
    else s.plainWrite a w
  | 22 => if a = LOOM_HNOTICE then s.hostNotice w else s.plainWrite a w
  | 23 =>
    if a % 0x1000 = 0x88 then (if bits w.toNat 16 11 = 0 then s else s.set (PRT_HQ_STAT_HWM (pageIndex a)) 0) else s.plainWrite a w
  | _ => s.plainWrite a w

/-! ### 64-bit RW quantities (R33) -/

/-- A write to the _LO word of a 64-bit RW quantity is held (R33). -/
def State.holdLo (s : State) (a : Nat) (w : Word) : State := { s with loHold := Tbl.set (fun _ => none) s.loHold a (some w) }

/-- A write to the _HI word changes the quantity together with the held _LO word (R33); without one the low word stays. -/
def State.writeHi (s : State) (a : Nat) (w : Word) : State :=
  let lo := (Tbl.get (fun _ => none) s.loHold (a - 4)).getD (s.readWord (a - 4))
  let s := { s with loHold := Tbl.set (fun _ => none) s.loHold (a - 4) none }
  if a = ICU_TGT_ADDR_HI then
    let t := s.get ICU_TGT_SEL_TGT
    s.setItgt t { s.itgt t with addr := lo.toNat + 2 ^ 32 * w.toNat }
  else (s.wr (a - 4) lo).wr a w

/-- A write of a 32-bit word by initiator `i` to a register whose page it reaches. -/
def State.regWrite (s : State) (i a : Nat) (w : Word) : State :=
  if a % 0x1000 < 0x80 then s.headerWrite i a w
  else if rwsMask a ≠ 0 then s.stageWord i a (w &&& rwsMask a)
  else if pairOf a = .rwLo then s.holdLo a w
  else if pairOf a = .rwHi then s.writeHi a w
  else s.writeLive i a w

end Sys2Proof.Machine
end

