-- ==== Sys2Proof/Machine/Commands.lean ====
section
/-! DEFINITION. The commands that are accesses to registers: the generic ones of 02 and, row by row, the writes and reads that the table of
operations names on their own. Each takes the initiator of the access. -/

namespace Sys2Proof.Machine

open Reg

/-! ### Writes and reads of registers (02 R9, R32, R33, R42) -/

/-- The address of an access is a multiple of 4, and of 8 for a 64-bit access (R32). -/
def aligned (a : Nat) (wide : Bool) : Bool := if wide then a % 8 == 0 else a % 4 == 0

/-- An access that BAR0 does not accept: it raises SYS source 1 with its address (R32). -/
def State.badAccess (s : State) (i a : Nat) : State := if s.held then s else (s.wakeFor i a).raise 0 1 (addr := a)

/-- REGISTER_WRITE (02 R9, R32): a 32-bit write, or a 64-bit one as two, low address first. -/
def execRegisterWrite (i : Fin 5) (addr : BitVec 27) (w : Word) (hi : Option Word) (s : State) : Host.Outcome State Fault Refusal :=
  let a := addr.toNat
  if !aligned a hi.isSome then .next (s.badAccess i a)
  else
    let t := s.atReg i a fun s => s.regWrite i a w
    match hi with
    | none => .next t
    | some h => .next (if assigned a then t.atReg i (a + 4) fun s => s.regWrite i (a + 4) h else t)

/-- BAR0_INVALID_ACCESS (02 R32, 22 R489): an access of `len` bytes that no register page takes: a read returns 0, a write is ignored. -/
def execBar0InvalidAccess (i : Fin 5) (addr : BitVec 27) (len : Nat) (write : Bool) (s : State) : Host.Outcome State Fault Refusal :=
  let a := addr.toNat
  let t := if (len == 4 && a % 4 == 0) || (len == 8 && a % 8 == 0) then
      (if (s.accessFault i a).isSome then s.atReg i a id else s)
    else s.badAccess i a
  .next (if write then t else t.answerRead i 0)

/-- LO_REGISTER_READ (02 R33): a 32-bit read, or a 64-bit one of a pair, whose second word is the answer at 8 + the initiator. -/
def execLoRegisterRead (i : Fin 5) (addr : BitVec 27) (wide : Bool) (s : State) : Host.Outcome State Fault Refusal :=
  let a := addr.toNat
  if !aligned a wide then .next ((s.badAccess i a).answerRead i 0)
  else
    let r := s.atRead i a fun s => s.regRead i a
    let t := r.2.answerRead i r.1
    if !wide then .next t
    else
      let r := if assigned a then t.atRead i (a + 4) (fun s => s.regRead i (a + 4)) else (0, t)
      .next (r.2.answerRead (8 + i.val) r.1)

/-- HI_REGISTER_READ (02 R33). -/
def execHiRegisterRead (i : Fin 5) (addr : BitVec 27) (s : State) : Host.Outcome State Fault Refusal :=
  let a := addr.toNat
  if !aligned a false then .next ((s.badAccess i a).answerRead i 0)
  else
    let r := s.atRead i a fun s => s.regRead i a
    .next (r.2.answerRead i r.1)

/-- RW64_LO_WRITE (02 R33): a write to the _LO word of a 64-bit RW quantity is held; any other register is none of this row's. -/
def execRw64LoWrite (i : Fin 5) (addr : BitVec 27) (w : Word) (s : State) : Host.Outcome State Fault Refusal :=
  let a := addr.toNat
  .next (if a % 4 = 0 && pairOf a == .rwLo then s.atReg i a fun s => s.holdLo a w else s)

/-- RW64_HI_WRITE (02 R33): the quantity changes. -/
def execRw64HiWrite (i : Fin 5) (addr : BitVec 27) (w : Word) (s : State) : Host.Outcome State Fault Refusal :=
  let a := addr.toNat
  .next (if a % 4 = 0 && pairOf a == .rwHi then s.atReg i a fun s => s.writeHi a w else s)

/-- STAGED_WRITE (02 R42, 11 R254): a write of an initiator to an RWS register. -/
def execStagedWrite (i : Fin 5) (addr : BitVec 27) (w : Word) (s : State) : Host.Outcome State Fault Refusal :=
  let a := addr.toNat
  .next (if a % 4 ≠ 0 || rwsMask a = 0 then s else s.atReg i a fun s => s.stageWord i a (w &&& rwsMask a))

/-- SOFT_RESET (02 R36, R37): a write to CTL of a page with SRST 1; EN is staged, or acts at once where it is RW. -/
def execSoftReset (i : Fin 5) (b : Fin 24) (page : Fin 256) (en : Bool) (s : State) : Host.Outcome State Fault Refusal :=
  let a := blockBase b + 0x1000 * page + 8
  .next (if page < blockPages b then s.atReg i a fun s => s.headerWrite i a (BitVec.ofNat 32 (2 + b2n en)) else s)

/-! ### BAR2 and BAR4 (02 R38, R39) -/

/-- A byte of HBM as BAR4 reads it: that of the capture and dump areas as they were written; in the spill region and the table extension,
whose layout the manual gives in part, a free value; 0 in a stack that is not available (13 R300). -/
def State.apertureByte (s : State) (a k : Nat) : Byte :=
  if !s.hAvail (hbmStack a) then 0
  else if s.dumpBase ≤ a then s.hbmByte a
  else (Config.freeWord (s.free + k)).setWidth 8

/-- BAR4_READ (02 R38, 13 R298): `n` bytes of the selected window from `off`; an uncorrectable line returns 0. -/
def execBar4Read (off : Word) (n : Fin 257) (bad : Bool) (s : State) : Host.Outcome State Fault Refusal :=
  let a := s.get SYS_BAR4_WIN_WINDOW * 2 ^ 32 + off.toNat
  let ok := !s.held && s.get SYS_BAR4_WIN_EN == 1 && decide (s.get SYS_BAR4_WIN_WINDOW ≤ 35) && !bad
  .next { s with
    rbytes := (List.range n.val).map fun k => if ok then s.apertureByte (a + k) k else 0
    free := s.free + n.val }

/-- BAR4_WRITE (02 R38): ignored, with SYS source 2. -/
def execBar4Write (s : State) : Host.Outcome State Fault Refusal := .next (if s.held then s else s.raise 0 2)

/-- An offset of BAR2 lies in an assigned range (Table 2.5). -/
def bar2Assigned (off : Nat) : Bool := decide (off < 0x800000) || (decide (0x1000000 ≤ off) && decide (off < 0x2000000))

/-- BAR2_INVALID_ACCESS (02 R39): outside the assigned ranges a read returns 0, a write is ignored, and SYS source 3 is raised. -/
def execBar2InvalidAccess (off : BitVec 26) (n : Fin 9) (write : Bool) (s : State) : Host.Outcome State Fault Refusal :=
  if bar2Assigned off.toNat || s.held then .next s
  else
    let t := s.raise 0 3 (addr := off.toNat)
    .next (if write then t else { t with rbytes := List.replicate n.val 0 })

/-! ### Reads with an effect of their own -/

/-- CLAIM (17 R392): a read of ICU_CLAIM of a target, or of ICU_ISL_CLAIM for the island's. -/
def execClaim (i : Fin 5) (t : Fin 257) (s : State) : Host.Outcome State Fault Refusal :=
  let r := s.atRead i (if t.val = 256 then ICU_ISL_CLAIM else ICU_CLAIM t.val) fun s => s.claim t
  .next (r.2.answerRead i r.1)

/-- TIME_READ (18 R420): a read of TIM_NOW_NS. -/
def execTimeRead (i : Fin 5) (s : State) : Host.Outcome State Fault Refusal :=
  let r := s.atRead i TIM_NOW_NS fun s => s.timeRead i
  .next (r.2.answerRead i r.1)

/-- PPS_IN_READ (18 R420): a read of TIM_PPS_IN_NS. -/
def execPpsInRead (i : Fin 5) (s : State) : Host.Outcome State Fault Refusal :=
  let r := s.atRead i TIM_PPS_IN_NS fun s => s.ppsInRead i
  .next (r.2.answerRead i r.1)

/-! ### Writes of command registers -/

/-- BEGIN: BEGIN of initiator `i` (02 R44). -/
def execBegin (i : Fin 5) (s : State) : Host.Outcome State Fault Refusal :=
  .next (s.atReg i (LDG_TXN_CMD i.val) fun s => s.txnBegin i)

/-- COMMIT: COMMIT of initiator `i` (02 R44). -/
def execCommit (i : Fin 5) (s : State) : Host.Outcome State Fault Refusal :=
  .next (s.atReg i (LDG_TXN_CMD i.val) fun s => s.txnCommit i)

/-- ROLLBACK: ROLLBACK of initiator `i` (02 R44). -/
def execRollback (i : Fin 5) (s : State) : Host.Outcome State Fault Refusal :=
  .next (s.atReg i (LDG_TXN_CMD i.val) fun s => s.txnRollback i)

/-- RETIRE_OLDEST: RETIRE_OLDEST (11 R250). -/
def execRetireOldest (i : Fin 5) (s : State) : Host.Outcome State Fault Refusal :=
  .next (s.atReg i (LDG_SLOT_CMD) fun s => s.retireOldest)

/-- CC_PREPARE: PREPARE of a cascade commit (11 R255). -/
def execCcPrepare (i : Fin 5) (s : State) : Host.Outcome State Fault Refusal :=
  .next (s.atReg i (LDG_CC_CMD) fun s => s.ccCmdPrepare)

/-- CC_ABORT: ABORT of a cascade commit (11 R257). -/
def execCcAbort (i : Fin 5) (s : State) : Host.Outcome State Fault Refusal :=
  .next (s.atReg i (LDG_CC_CMD) fun s => s.ccCmdAbort)

/-- XMT_JOB_START: START of an exact-table job, which belongs to its initiator (08 R184, 16 R362). -/
def execXmtJobStart (i : Fin 5) (tid : Fin 256) (count : BitVec 16) (s : State) : Host.Outcome State Fault Refusal :=
  .next (s.atReg i (XMT_JOB_CMD) fun s => s.xmtJobStart i tid count.toNat)

/-- XMT_JOB_ABORT: ABORT of an exact-table job (08 R186). -/
def execXmtJobAbort (i : Fin 5) (s : State) : Host.Outcome State Fault Refusal :=
  .next (s.atReg i (XMT_JOB_CMD) fun s => s.xmtJobAbort)

/-- LPM_JOB_START: START of a route job (09 R215). -/
def execLpmJobStart (i : Fin 5) (count : BitVec 16) (s : State) : Host.Outcome State Fault Refusal :=
  .next (s.atReg i (LPM_JOB_CMD) fun s => s.lpmJobStart i count.toNat)

/-- LPM_JOB_ABORT: ABORT of a route job (09 R215, 08 R186). -/
def execLpmJobAbort (i : Fin 5) (s : State) : Host.Outcome State Fault Refusal :=
  .next (s.atReg i (LPM_JOB_CMD) fun s => s.lpmJobAbort)

/-- OBJ_JOB_START: START of an object job (09 R215). -/
def execObjJobStart (i : Fin 5) (count : BitVec 16) (s : State) : Host.Outcome State Fault Refusal :=
  .next (s.atReg i (OBJ_JOB_CMD) fun s => s.objJobStart i count.toNat)

/-- OBJ_JOB_ABORT: ABORT of an object job (09 R215, 08 R186). -/
def execObjJobAbort (i : Fin 5) (s : State) : Host.Outcome State Fault Refusal :=
  .next (s.atReg i (OBJ_JOB_CMD) fun s => s.objJobAbort)

/-- ACS_JOB_START: START of a rule job (10 R235). -/
def execAcsJobStart (i : Fin 5) (count : BitVec 16) (s : State) : Host.Outcome State Fault Refusal :=
  .next (s.atReg i (ACS_JOB_CMD) fun s => s.acsJobStart i count.toNat)

/-- ACS_JOB_ABORT: ABORT of a rule job (10 R235). -/
def execAcsJobAbort (i : Fin 5) (s : State) : Host.Outcome State Fault Refusal :=
  .next (s.atReg i (ACS_JOB_CMD) fun s => s.acsJobAbort)

/-- VOQ_MAP_WRITE: WRITE of a destination or multicast entry (12 R269, R270). -/
def execVoqMapWrite (i : Fin 5) (s : State) : Host.Outcome State Fault Refusal :=
  .next (s.atReg i (VOQ_MAP_CMD) fun s => s.mapWrite)

/-- VOQ_MAP_READ: READ of a destination or multicast entry (12 R269, R270). -/
def execVoqMapRead (i : Fin 5) (s : State) : Host.Outcome State Fault Refusal :=
  .next (s.atReg i (VOQ_MAP_CMD) fun s => s.mapRead)

/-- POLICER_WRITE: WRITE of a policer (14 R325). -/
def execPolicerWrite (i : Fin 5) (s : State) : Host.Outcome State Fault Refusal :=
  .next (s.atReg i (SCH_POL_CMD) fun s => s.policerWrite)

/-- POLICER_READ: READ of a policer (14 R325). -/
def execPolicerRead (i : Fin 5) (s : State) : Host.Outcome State Fault Refusal :=
  .next (s.atReg i (SCH_POL_CMD) fun s => s.policerRead)

/-- GATE_WRITE: WRITE of a gate entry (14 R326, R327). -/
def execGateWrite (i : Fin 5) (s : State) : Host.Outcome State Fault Refusal :=
  .next (s.atReg i (SCH_GATE_CMD) fun s => s.gateWrite)

/-- GATE_READ: READ of a gate entry (14 R327). -/
def execGateRead (i : Fin 5) (s : State) : Host.Outcome State Fault Refusal :=
  .next (s.atReg i (SCH_GATE_CMD) fun s => s.gateRead)

/-- SAMPLE_SELECT: A write of SCH_SMP_SEL (14 R330). -/
def execSampleSelect (i : Fin 5) (queue : Fin 4096) (s : State) : Host.Outcome State Fault Refusal :=
  .next (s.atReg i (SCH_SMP_SEL) fun s => s.sampleSelect queue.val)

/-- GMEM_WRITE: WRITE of graph memory (05 R118). -/
def execGmemWrite (i : Fin 5) (slice : Fin 16) (s : State) : Host.Outcome State Fault Refusal :=
  .next (s.atReg i (PRS_GMEM_CMD slice.val) fun s => s.gmemWrite i slice)

/-- GMEM_READ: READ of graph memory (05 R118). -/
def execGmemRead (i : Fin 5) (slice : Fin 16) (s : State) : Host.Outcome State Fault Refusal :=
  .next (s.atReg i (PRS_GMEM_CMD slice.val) fun s => s.gmemRead i slice)

/-- HOST_NOTICE: A host notice (04 R83). -/
def execHostNotice (i : Fin 5) (w : Word) (s : State) : Host.Outcome State Fault Refusal :=
  .next (s.atReg i (LOOM_HNOTICE) fun s => s.hostNotice w)

/-- REMOTE_WRITE: A remote write of the master (16 R362). -/
def execRemoteWrite (i : Fin 5) (s : State) : Host.Outcome State Fault Refusal :=
  .next (s.atReg i (CLY_RW_CMD) fun s => s.rwStart false)

/-- REMOTE_READ: A remote read of the master (16 R362). -/
def execRemoteRead (i : Fin 5) (s : State) : Host.Outcome State Fault Refusal :=
  .next (s.atReg i (CLY_RW_CMD) fun s => s.rwStart true)

/-- HANDOVER: HANDOVER (16 R368). -/
def execHandover (i : Fin 5) (s : State) : Host.Outcome State Fault Refusal :=
  .next (s.atReg i (CLY_MST_CMD) fun s => s.handoverCmd)

/-- REHEARSE: REHEARSE (16 R369). -/
def execRehearse (i : Fin 5) (s : State) : Host.Outcome State Fault Refusal :=
  .next (s.atReg i (CLY_MST_CMD) fun s => s.rehearseCmd)

/-- REACH_WRITE: WRITE of a reach entry (16 R350). -/
def execReachWrite (i : Fin 5) (s : State) : Host.Outcome State Fault Refusal :=
  .next (s.atReg i (CLY_RCH_CMD) fun s => s.reachWrite)

/-- REACH_READ: READ of a reach entry (16 R350). -/
def execReachRead (i : Fin 5) (s : State) : Host.Outcome State Fault Refusal :=
  .next (s.atReg i (CLY_RCH_CMD) fun s => s.reachRead)

/-- PUNT_WRITE: A write of a punt bucket (15 R341). -/
def execPuntWrite (i : Fin 5) (t : Fin 8) (w : Word) (s : State) : Host.Outcome State Fault Refusal :=
  .next (s.atReg i (SYS_OVL_PUNT t.val) fun s => s.puntWrite t w)

/-- CST_LOAD: LOAD (07 R158). -/
def execCstLoad (i : Fin 5) (s : State) : Host.Outcome State Fault Refusal :=
  .next (s.atReg i (CST_CMD) fun s => s.cstCommand 1)

/-- CST_PATCH: PATCH (07 R158). -/
def execCstPatch (i : Fin 5) (s : State) : Host.Outcome State Fault Refusal :=
  .next (s.atReg i (CST_CMD) fun s => s.cstCommand 2)

/-- CST_ABORT: ABORT (07 R161). -/
def execCstAbort (i : Fin 5) (s : State) : Host.Outcome State Fault Refusal :=
  .next (s.atReg i (CST_CMD) fun s => s.cstCommand 3)

/-- CST_DEBUG_READ: A write of CST_DBG_ADDR (07 R140). -/
def execCstDebugRead (i : Fin 5) (w : Word) (s : State) : Host.Outcome State Fault Refusal :=
  .next (s.atReg i (CST_DBG_ADDR) fun s => s.debugRead w)

/-- SEC_LOAD: LOAD (21 R511). -/
def execSecLoad (i : Fin 5) (s : State) : Host.Outcome State Fault Refusal :=
  .next (s.atReg i (SEC_CMD) fun s => s.secCommand 1)

/-- ATTEST: ATTEST (21 R482). -/
def execAttest (i : Fin 5) (s : State) : Host.Outcome State Fault Refusal :=
  .next (s.atReg i (SEC_CMD) fun s => s.secCommand 2)

/-- SVN_ADVANCE: SVN_ADVANCE (21 R479). -/
def execSvnAdvance (i : Fin 5) (s : State) : Host.Outcome State Fault Refusal :=
  .next (s.atReg i (SEC_CMD) fun s => s.secCommand 3)

/-- REVOKE: REVOKE (21 R480). -/
def execRevoke (i : Fin 5) (s : State) : Host.Outcome State Fault Refusal :=
  .next (s.atReg i (SEC_CMD) fun s => s.secCommand 4)

/-- RECOVER: RECOVER (21 R478). -/
def execRecover (i : Fin 5) (s : State) : Host.Outcome State Fault Refusal :=
  .next (s.atReg i (SEC_CMD) fun s => s.secCommand 5)

/-- HBC_TRAIN: TRAIN of a stack (13 R296). -/
def execHbcTrain (i : Fin 5) (h : Fin 6) (s : State) : Host.Outcome State Fault Refusal :=
  .next (s.atReg i (HBC_CMD h.val) fun s => s.hbcTrain h)

/-- HBC_TEST: TEST of a stack (13 R297). -/
def execHbcTest (i : Fin 5) (h : Fin 6) (s : State) : Host.Outcome State Fault Refusal :=
  .next (s.atReg i (HBC_CMD h.val) fun s => s.hbcTest h)

/-- SREF_ENTER: SREF_ENTER of a stack (13 R295). -/
def execSrefEnter (i : Fin 5) (h : Fin 6) (s : State) : Host.Outcome State Fault Refusal :=
  .next (s.atReg i (HBC_CMD h.val) fun s => s.srefEnter h)

/-- SREF_EXIT: SREF_EXIT of a stack (13 R295). -/
def execSrefExit (i : Fin 5) (h : Fin 6) (s : State) : Host.Outcome State Fault Refusal :=
  .next (s.atReg i (HBC_CMD h.val) fun s => s.srefExit h)

/-- PEND_SET: A write of ICU_PEND_SET (17 R389). -/
def execPendSet (i : Fin 5) (n : Fin 4096) (clr : Bool) (s : State) : Host.Outcome State Fault Refusal :=
  .next (s.atReg i (ICU_PEND_SET) fun s => s.pendSet n clr)

/-- SOURCE_CONFIG_WRITE: A write of the selected source (17 R388, R390). -/
def execSourceConfigWrite (i : Fin 5) (w : Word) (s : State) : Host.Outcome State Fault Refusal :=
  .next (s.atReg i (ICU_SRC_CFG) fun s => s.sourceConfig (s.get ICU_SRC_SEL_SRC) w)

/-- EOI: an end of interrupt (17 R393). -/
def execEoi (i : Fin 5) (t : Fin 257) (n : Fin 4096) (s : State) : Host.Outcome State Fault Refusal :=
  .next (s.atReg i (if t.val = 256 then ICU_ISL_EOI else ICU_EOI t.val) fun s => s.eoi t n)

/-- RING_WRITE: WRITE of a ring (17 R377). -/
def execRingWrite (i : Fin 5) (s : State) : Host.Outcome State Fault Refusal :=
  .next (s.atReg i (HIF_RING_CMD) fun s => s.ringWrite)

/-- RING_READ: READ of a ring (17 R377). -/
def execRingRead (i : Fin 5) (s : State) : Host.Outcome State Fault Refusal :=
  .next (s.atReg i (HIF_RING_CMD) fun s => s.ringRead)

/-- COUNTER_WRITE: WRITE of a programmable counter (18 R405). -/
def execCounterWrite (i : Fin 5) (clear : Bool) (s : State) : Host.Outcome State Fault Refusal :=
  .next (s.atReg i (CNT_CMD) fun s => s.counterWrite clear)

/-- COUNTER_READ: READ of a programmable counter (18 R405). -/
def execCounterRead (i : Fin 5) (s : State) : Host.Outcome State Fault Refusal :=
  .next (s.atReg i (CNT_CMD) fun s => s.counterRead)

/-- TIME_SET: SET of the time base (18 R421). -/
def execTimeSet (i : Fin 5) (s : State) : Host.Outcome State Fault Refusal :=
  .next (s.atReg i (TIM_CMD) fun s => s.timeSet)

/-- TIME_STEP: STEP of the time base (18 R421). -/
def execTimeStep (i : Fin 5) (s : State) : Host.Outcome State Fault Refusal :=
  .next (s.atReg i (TIM_CMD) fun s => s.timeStep)

/-- NMT_ACK: ACK of every trap (19 R439). -/
def execNmtAck (i : Fin 5) (s : State) : Host.Outcome State Fault Refusal :=
  .next (s.atReg i (FLT_NMT) fun s => s.nmtAck)

/-- ERROR_PIN_RELEASE: REL of ERROR_N (19 R441). -/
def execErrorPinRelease (i : Fin 5) (s : State) : Host.Outcome State Fault Refusal :=
  .next (s.atReg i (FLT_PIN) fun s => s.pinRelease)

/-- SAFE_STATE_EXIT: EXIT of safe state (19 R442). -/
def execSafeStateExit (i : Fin 5) (s : State) : Host.Outcome State Fault Refusal :=
  .next (s.atReg i (FLT_PIN) fun s => s.safeExit)

/-- FIRST_REARM: A 1 written to FIRST_V (19 R448). -/
def execFirstRearm (i : Fin 5) (s : State) : Host.Outcome State Fault Refusal :=
  .next (s.atReg i (FLT_FIRST_CTL) fun s => s.set FLT_FIRST_CTL_FIRST_V 0)

/-- RECORD_SELECT: A write of FLT_REC_SEL (19 R447). -/
def execRecordSelect (i : Fin 5) (w : Word) (bad : Bool) (s : State) : Host.Outcome State Fault Refusal :=
  .next (s.atReg i (FLT_REC_SEL) fun s => s.recordSelect w bad)

/-- ISLAND_ONLY: ISLAND_ONLY (20 R468). -/
def execIslandOnly (i : Fin 5) (s : State) : Host.Outcome State Fault Refusal :=
  .next (s.atReg i (AON_CMD) fun s => s.islandOnly)

/-- WAKE_CTRL: WAKE_CTRL (20 R451). -/
def execWakeCtrl (i : Fin 5) (s : State) : Host.Outcome State Fault Refusal :=
  .next (s.atReg i (AON_CMD) fun s => s.wakeCtrl)

end Sys2Proof.Machine
end

