-- ==== Sys2Proof/Machine/Remote.lean ====
section
/-! DEFINITION. What a device does with the master's REGWR and REGRD (16 R361, R362): the accesses of initiator 2. -/

namespace Sys2Proof.Machine

open Reg

/-- REGACK (16 R362, Table 16.3): its TAG, RESULT and data. -/
def regAck (tag : Nat) (refused : Bool) (w : Word) : List Byte :=
  [14] ++ leBytes 2 tag ++ leBytes 1 (b2n refused) ++ leBytes 4 0 ++ leBytes 4 w.toNat

/-- The answer to the access with this TAG is sent and kept for repetitions of it (R362). -/
def State.ackAccess (s : State) (src tag : Nat) (refused : Bool) (w : Word) : State :=
  let b := regAck tag refused w
  { s with cly := { s.cly with
    lastTag := some tag
    lastAck := b } }.sendCtrl src b

/-- A staged write of initiator 2 has been taken up (02 R42, 11 R254). -/
def State.taken (s : State) (a : Nat) (w : Word) : Bool :=
  rwsMask a == 0 || Tbl.get (fun _ => none) (s.txn 2).staged a == some (w &&& rwsMask a)

/-- An access that reaches no register (02 R32): refused, with the fault of R32. -/
def State.remoteBad (s : State) (a : Nat) : State := if a % 4 = 0 then s.raise 0 1 (addr := a) else s.badAccess 2 a

/-- A REGWR of the accepted master (R362): performed as initiator 2, refused where no register takes it. -/
def State.remoteWrite (s : State) (src tag a : Nat) (w : Word) : State :=
  if a % 4 ≠ 0 || !assigned a then (s.remoteBad a).ackAccess src tag true 0
  else
    let t := s.atReg 2 a fun s => s.regWrite 2 a w
    t.ackAccess src tag (!t.taken a w) 0

/-- A REGRD of the accepted master (R362). -/
def State.remoteRead (s : State) (src tag a : Nat) : State :=
  if a % 4 ≠ 0 || !assigned a then (s.remoteBad a).ackAccess src tag true 0
  else
    let r := s.atRead 2 a fun s => s.regRead 2 a
    r.2.ackAccess src tag false r.1

/-- REGWR_MESSAGE (R361, R362): from the accepted master only; a repeated TAG is answered again and not performed again. -/
def execRegwrMessage (s : State) : Host.Outcome State Fault Refusal :=
  match s.popMsg 12 with
  | none => .next s
  | some (m, s) =>
    if !s.fromMaster m.src then .next s.reject
    else if s.cly.lastTag = some (m.num 1 2) then .next (s.sendCtrl m.src s.cly.lastAck)
    else .next (s.remoteWrite m.src (m.num 1 2) (m.num 4 4) (BitVec.ofNat 32 (m.num 8 4)))

/-- REGRD_MESSAGE (R361, R362). -/
def execRegrdMessage (s : State) : Host.Outcome State Fault Refusal :=
  match s.popMsg 13 with
  | none => .next s
  | some (m, s) =>
    if !s.fromMaster m.src then .next s.reject
    else if s.cly.lastTag = some (m.num 1 2) then .next (s.sendCtrl m.src s.cly.lastAck)
    else .next (s.remoteRead m.src (m.num 1 2) (m.num 4 4))

end Sys2Proof.Machine
end

