-- ==== Sys2Proof/Machine/Switch.lean ====
section
/-! DEFINITION. A block switches to the committed values (02 R46, R47), with what the chapters decide in the switching cycle. -/

namespace Sys2Proof.Machine

open Reg

/-- The word at an address changes in the switching cycle; `old` gives the words by which the block acted before. -/
def State.changes (s : State) (old : Nat → Word) (a : Nat) : Bool := old a != s.rd a

/-! ### Buffers and queues (12 R261, R268) -/

/-- Units of 128 bytes of a buffer of each pool (Table 12.1). -/
def poolUnits : List Nat := [1, 2, 4, 8, 13, 26, 77, 126]

/-- Units that the live counts of the pools take (R261). -/
def State.poolSum (s : State) : Nat := ((List.range 8).map fun p => s.get (BUF_POOL_CFG_COUNT_K p) * 1024 * poolUnits.getD p 0).sum

/-- The counts are refused: BUF_STAT.CFG_ERR and its interrupt. -/
def State.bufErr (s : State) : State := (s.set ⟨BUF_STAT, 1, 1⟩ 1).setInt bufPage 2

/-- BUF's switching cycle (R261): the commit that first makes EN live at 1 fixes the counts within the limit; later changes are refused. -/
def State.switchBuf (s : State) (old : Nat → Word) : State :=
  if s.buf.fixed then
    forEach (List.range 8) (fun p s =>
      let f := BUF_POOL_CFG_COUNT_K p
      if f.of (old f.addr) = s.get f then s else (s.set f (f.of (old f.addr))).bufErr) s
  else if s.get (ctlEn bufPage) = 0 then s
  else if 3145728 < s.poolSum then (s.set (ctlEn bufPage) 0).bufErr
  else { s with buf := { s.buf with fixed := true } }

/-- VOQ's switching cycle (R268): QPD stays while a unicast VOQ holds a frame. -/
def State.switchVoq (s : State) (old : Nat → Word) : State :=
  let q := VOQ_GEO_QPD.of (old VOQ_GEO)
  if q ≠ s.get VOQ_GEO_QPD && s.voq.q.any (fun p => decide (p.1 < mcBase) && !p.2.isEmpty) then
    ((s.set VOQ_GEO_QPD q).set ⟨0x300088, 0, 1⟩ 1).setInt voqPage 0
  else s

/-! ### HBM areas (13 R287) -/

/-- The area values are refused: HBC_REGION_STAT.CFG_ERR and its interrupt. -/
def State.hbcErr (s : State) : State := (s.set ⟨HBC_REGION_STAT, 1, 1⟩ 1).setInt (hbcPage 0) 5

/-- HBC's switching cycle (R287): the commit that first makes EN of page 0 live at 1 fixes the areas. -/
def State.switchHbc (s : State) (old : Nat → Word) : State :=
  let sum := s.get HBC_REGION_CFG_CAP_U + s.get HBC_REGION_CFG_STAT_U
  if s.get HBC_REGION_STAT_FIXED = 1 then
    (if s.changes old HBC_REGION_CFG then (s.wr HBC_REGION_CFG (old HBC_REGION_CFG)).hbcErr else s)
  else if s.get (ctlEn (hbcPage 0)) = 0 then s
  else if 256 < sum then (s.set (ctlEn (hbcPage 0)) 0).hbcErr
  else (s.set HBC_REGION_STAT_FIXED 1).set HBC_REGION_STAT_EXT_U (256 - sum)

/-! ### The Porter (14 R308, R317, R327) -/

/-- The nominal rate of a port in Mb/s (14 R306): its PHY's, or that of a FlexE client's home calendar. -/
def State.nominal (s : State) (p : Nat) : Nat :=
  match s.clientOf p with
  | some x => 5000 * slotsOf (s.home x.1) x.2
  | none =>
    let m := modeInfo (s.get (PRT_SLICE_MODE_MODE (p / 16)))
    if m.1 ≠ 0 && p % 16 % m.1 = 0 then m.2 else 0

/-- A port's part of SCH's switching cycle: profile S is refused below 800,000 Mb/s, another gate list becomes pending. -/
def State.switchPort (s : State) (old : Nat → Word) (p : Nat) : State :=
  let i := p / 16
  let k := p % 16
  let f := SCH_PORT_CFG_PROF i k
  let s := if f.of (old f.addr) = 0 && s.get f = 1 && decide (s.nominal p < 800000) then
      ((s.set f 0).set ⟨SCH_PORT_STAT i k, 3, 1⟩ 1).setInt schPage 3
    else s
  let g := SCH_PORT_CFG_GATE_LIST i k
  let s := if g.of (old g.addr) = s.get g then s
    else { s with sch := { s.sch with gatePend := Tbl.set (fun _ => none) s.sch.gatePend p (some s.tbNs) } }.set (SCH_PORT_STAT_LIST_PEND i k) 1
  if s.changes old (SCH_EQ_THR i k) then s.refreshXoff p else s

/-- EN, RATE or BURST of a shaper changes. -/
def State.shaperChanges (s : State) (old : Nat → Word) (k : Nat) : Bool :=
  if k < 4096 then
    s.changes old (SCH_Q_SHP (k / 256) (k / 16 % 16) (k % 16)) || s.changes old (SCH_Q_BURST (k / 256) (k / 16 % 16) (k % 16))
  else s.changes old (SCH_PORT_SHP ((k - 4096) / 16) (k % 16)) || s.changes old (SCH_PORT_BURST ((k - 4096) / 16) (k % 16))

/-- SCH's switching cycle. -/
def State.switchSch (s : State) (old : Nat → Word) : State :=
  let s := forEach (List.range 256) (fun p s => s.switchPort old p) s
  forEach (List.range 4352) (fun k s => if s.shaperChanges old k then s.shaperReset k else s) s

/-! ### The cascade and the island (16 R363, 19 fault source 4 of AON) -/

/-- CLY's switching cycle (16 R363): at EN 1 a master-capable device announces at once. -/
def State.switchCly (s : State) (old : Nat → Word) : State :=
  let f := ctlEn clyPage
  if f.of (old f.addr) = 0 && s.get f = 1 then { s with cly := { s.cly with annAt := none } } else s

/-- AON's switching cycle: a rule that is written acts again after an uncorrectable error (20). `ws` are the addresses written. -/
def State.switchAon (s : State) (ws : List Nat) : State :=
  { s with aon := { s.aon with badRules := s.aon.badRules.filter fun r =>
    !(ws.contains (AON_RULE0 r) || ws.contains (AON_RULE1 r) || ws.contains (AON_RULE2 r)) } }

/-! ### The switching cycle -/

/-- What block `b` decides as it switches; `old` gives the words by which it acted, `ws` the addresses of the words that change hands. -/
def State.switchEffects (s : State) (b : Nat) (old : Nat → Word) (ws : List Nat) : State :=
  match b with
  | 4 => s.switchAon ws
  | 10 => s.switchCly old
  | 11 => s.switchHbc old
  | 12 => s.switchSch old
  | 13 => s.switchBuf old
  | 14 => s.switchVoq old
  | 22 => s.switchLoom (s.changes old)
  | 23 => s.switchPrt old
  | _ => s

/-- Block `b` acts on the committed values from now on (R46). -/
def State.switchBlock (s : State) (b : Nat) : State :=
  let own := s.unsw.filter fun p => blockOf p.1 == b
  let old := s.act
  let t := { s with unsw := s.unsw.filter fun p => blockOf p.1 != b }
  t.switchEffects b old (own.map fun p => p.1)

/-- The commit notes that block `b` has switched: once every frame-bound one has, heads are stamped with the new slot (11 R245), and once
every block has, the transaction ends (R46). -/
def State.switched (s : State) (b : Nat) : State :=
  let w := s.ldg.switchWait.filter fun x => x != b
  let s := { s with ldg := { s.ldg with
    switchWait := w
    stampSlot := if w.any frameBound then s.ldg.stampSlot else s.newest } }
  match s.ldg.switchInit with
  | some i => if w.isEmpty then s.finishCommit i else s
  | none => s

/-- BLOCK_SWITCH (02 R46, R47, 03 R52, 04 R92, 12 R261, R268, 13 R287, 14 R308, R317, R327): a block that a commit waits for switches. -/
def execBlockSwitch (b : Fin 24) (s : State) : Host.Outcome State Fault Refusal :=
  .next (if s.ldg.switchWait.contains b.val then (s.switchBlock b).switched b else s)

end Sys2Proof.Machine
end

