-- ==== Sys2Proof/Machine/Resets.lean ====
section
/-! DEFINITION. The resets of the whole device and of its PCIe function (22 R485–R491, 17 R372, 19 R443, 23 R508). -/

namespace Sys2Proof.Machine

open Reg

/-- The assigned pages of the device. -/
def allPages : List Nat := (List.range 24).flatMap fun b => (List.range (blockPages b)).map fun i => blockBase b + 0x1000 * i

/-- RESET_CAUSE of every page holds one cause only (R487). -/
def State.loadCause (s : State) (w : Word) : State := forEach allPages (fun pg s => s.wr (pg + 0x24) w) s

/-- The device as a reset leaves every block (R486): registers at their reset values, tables, queues and stacks without content, every
workshop ASLEEP, slot 0 CURRENT with epoch 0. What is not in the device stays: the model's time, its counter of free values, the
commands that wait, what has left the device, the latched straps and the fuses. -/
def State.cleared (s : State) : State :=
  { now := s.now
    free := s.free
    pending := s.pending
    rdata := s.rdata
    rbytes := s.rbytes
    straps := s.straps
    hostWrites := s.hostWrites
    hif := { pmes := s.hif.pmes }
    prt := { pfcOut := s.prt.pfcOut, lineOut := s.prt.lineOut }
    cly := { out := s.cly.out }
    sec := { svn := s.sec.svn, revoked := s.sec.revoked } }

/-- The island's filter state and slow clock, which a pin or chip reset leaves (Table 22.2). -/
def State.keepIsland (t s : State) : State :=
  { t with aon := { t.aon with
    filt := s.aon.filt
    tickAt := s.aon.tickAt
    cperAt := s.aon.cperAt } }

/-- The record store, FIRST, FLT_SEQ and ERROR_N of `s`, which a chip reset leaves (19 R441, R443). -/
def State.keepFaults (t s : State) : State :=
  let t := { t with flt := { recs := s.flt.recs, read := s.flt.read } }
  let t := forEach (List.range 8) (fun k t => t.wr (FLT_FIRST k) (s.rd (FLT_FIRST k))) t
  let t := (t.wr FLT_REC_STAT (s.rd FLT_REC_STAT)).wr FLT_SEQ (s.rd FLT_SEQ)
  (t.set FLT_FIRST_CTL_FIRST_V (s.get FLT_FIRST_CTL_FIRST_V)).set FLT_PIN_ERRN (s.get FLT_PIN_ERRN)

/-- POWER_ON_RESET (22 R485, R486, 23 R508): every block is reset; RESET_CAUSE is POR everywhere, its reset value. `blown` fuses of a fuse
command in progress had been blown (21 R479). The device stays in reset until RESET_N is released. -/
def execPowerOnReset (blown : Nat) (s : State) : Host.Outcome State Fault Refusal :=
  .next { (s.blow blown).cleared with held := true }

/-- PIN_RESET (22 R486, R487): RESET_N is low. In a reset already in force it changes nothing (R487). -/
def execPinReset (blown : Nat) (s : State) : Host.Outcome State Fault Refusal :=
  if s.held then .next s
  else .next (({ (s.blow blown).cleared with held := true }.keepIsland s).loadCause 2)

/-- CHIP_RESET (19 R443, 22 R486, R491): the reset that a chip-reset raise ordered; the boot ROM starts again by itself. -/
def execChipReset (blown : Nat) (s : State) : Host.Outcome State Fault Refusal :=
  match s.flt.chipPend with
  | none => .next s
  | some _ => .next ((((s.blow blown).cleared.keepIsland s).loadCause 4).keepFaults s)

/-- RESET_RELEASE (22 R489, 23 R505): RESET_N is high and the references run, so the device leaves reset with STRAP0–3 latched; BOOT_ROM
follows (21 R476). -/
def execResetRelease (straps : BitVec 4) (s : State) : Host.Outcome State Fault Refusal :=
  .next (if s.refLost || !s.held then s else { s with held := false, straps := straps })

/-- REFCLK25_LOSS (23 R508): every clock derived from REFCLK25 stops, the island's among them; a power-on reset ends it. -/
def execRefclk25Loss (s : State) : Host.Outcome State Fault Refusal :=
  .next { s with
    held := true
    refLost := true
    aon := { s.aon with fast := false } }

/-- PCIE_RESET (17 R372, R398): HIF and ICU are reset; `linkDown` tells a link-down reset from a hot reset. In a reset of the device it
changes nothing (22 R487). -/
def execPcieReset (linkDown : Bool) (s : State) : Host.Outcome State Fault Refusal :=
  if s.held then .next s
  else
    let pgs := [hifPage, icuPage, icuPage + 0x1000]
    let t := ((s.clearPages pgs 5).resetHif.resetEnded pgs)
    let t := { t with icu := {} }
    .next (if linkDown then t.raise hifPage 2 else t)

end Sys2Proof.Machine
end

