-- ==== Sys2Proof/Machine/Dispatch.lean ====
section
/-! DEFINITION. The dispatch: one arm per command, each a direct call of its meaning. -/

namespace Sys2Proof.Machine

/-- The effect of one command on everything but the queue. -/
def exec (i : Instr) (s : State) : Host.Outcome State Fault Refusal :=
  match i with
  | .registerWrite who addr w hi => Sys2Proof.Machine.execRegisterWrite who addr w hi s
  | .bar0InvalidAccess who addr len write => Sys2Proof.Machine.execBar0InvalidAccess who addr len write s
  | .loRegisterRead who addr wide => Sys2Proof.Machine.execLoRegisterRead who addr wide s
  | .hiRegisterRead who addr => Sys2Proof.Machine.execHiRegisterRead who addr s
  | .rw64LoWrite who addr w => Sys2Proof.Machine.execRw64LoWrite who addr w s
  | .rw64HiWrite who addr w => Sys2Proof.Machine.execRw64HiWrite who addr w s
  | .softReset who b page en => Sys2Proof.Machine.execSoftReset who b page en s
  | .blockResetDone b inst => Sys2Proof.Machine.execBlockResetDone b inst s
  | .bar4Read off n bad => Sys2Proof.Machine.execBar4Read off n bad s
  | .bar4Write => Sys2Proof.Machine.execBar4Write s
  | .bar2InvalidAccess off n write => Sys2Proof.Machine.execBar2InvalidAccess off n write s
  | .stagedWrite who addr w => Sys2Proof.Machine.execStagedWrite who addr w s
  | .begin who => Sys2Proof.Machine.execBegin who s
  | .commit who => Sys2Proof.Machine.execCommit who s
  | .rollback who => Sys2Proof.Machine.execRollback who s
  | .txnTimeout who => Sys2Proof.Machine.execTxnTimeout who s
  | .commitGrant => Sys2Proof.Machine.execCommitGrant s
  | .commitCycle => Sys2Proof.Machine.execCommitCycle s
  | .blockSwitch b => Sys2Proof.Machine.execBlockSwitch b s
  | .commitTimeout who => Sys2Proof.Machine.execCommitTimeout who s
  | .portUp port => Sys2Proof.Machine.execPortUp port s
  | .portDown port lf rf => Sys2Proof.Machine.execPortDown port lf rf s
  | .frameReceive port b whole => Sys2Proof.Machine.execFrameReceive port b whole s
  | .frameEnd f rest => Sys2Proof.Machine.execFrameEnd f rest s
  | .fcsResult f ok => Sys2Proof.Machine.execFcsResult f ok s
  | .pfcRepeat port pri => Sys2Proof.Machine.execPfcRepeat port pri s
  | .pfcReceive port vec times => Sys2Proof.Machine.execPfcReceive port vec times s
  | .pfcPauseExpiry port pri => Sys2Proof.Machine.execPfcPauseExpiry port pri s
  | .pauseReceive port => Sys2Proof.Machine.execPauseReceive port s
  | .workingCalendarDerive g => Sys2Proof.Machine.execWorkingCalendarDerive g s
  | .calendarBoundary g => Sys2Proof.Machine.execCalendarBoundary g s
  | .porterRateSwitch g => Sys2Proof.Machine.execPorterRateSwitch g s
  | .caReceive g => Sys2Proof.Machine.execCaReceive g s
  | .farCBitChange g received => Sys2Proof.Machine.execFarCBitChange g received s
  | .overheadMultiframe g received => Sys2Proof.Machine.execOverheadMultiframe g received s
  | .noticeFrame n len w => Sys2Proof.Machine.execNoticeFrame n len w s
  | .hostNotice who w => Sys2Proof.Machine.execHostNotice who w s
  | .noticeAckFall n => Sys2Proof.Machine.execNoticeAckFall n s
  | .noticeAbandon g => Sys2Proof.Machine.execNoticeAbandon g s
  | .phyFault g k => Sys2Proof.Machine.execPhyFault g k s
  | .phyRestore g k => Sys2Proof.Machine.execPhyRestore g k s
  | .parseFrame slice err => Sys2Proof.Machine.execParseFrame slice err s
  | .parseResume f err => Sys2Proof.Machine.execParseResume f err s
  | .parseResultRelease slice => Sys2Proof.Machine.execParseResultRelease slice s
  | .gmemWrite who slice => Sys2Proof.Machine.execGmemWrite who slice s
  | .gmemRead who slice => Sys2Proof.Machine.execGmemRead who slice s
  | .dispatchGrant w c => Sys2Proof.Machine.execDispatchGrant w c s
  | .contextLoaded w c => Sys2Proof.Machine.execContextLoaded w c s
  | .microwordIssue w j err => Sys2Proof.Machine.execMicrowordIssue w j err s
  | .watchdogExpiry w c => Sys2Proof.Machine.execWatchdogExpiry w c s
  | .lookupResult k => Sys2Proof.Machine.execLookupResult k s
  | .ticketRelease slice egress headErr => Sys2Proof.Machine.execTicketRelease slice egress headErr s
  | .ticketSkip slice egress => Sys2Proof.Machine.execTicketSkip slice egress s
  | .workshopAsleep w => Sys2Proof.Machine.execWorkshopAsleep w s
  | .workshopAwake w => Sys2Proof.Machine.execWorkshopAwake w s
  | .cstLoad who => Sys2Proof.Machine.execCstLoad who s
  | .cstPatch who => Sys2Proof.Machine.execCstPatch who s
  | .cstAbort who => Sys2Proof.Machine.execCstAbort who s
  | .cstContainerChecked c => Sys2Proof.Machine.execCstContainerChecked c s
  | .cstLoadWritten => Sys2Proof.Machine.execCstLoadWritten s
  | .cstPatchWorkshopDone w out => Sys2Proof.Machine.execCstPatchWorkshopDone w out s
  | .cstRollbackDone => Sys2Proof.Machine.execCstRollbackDone s
  | .cstEccRewrite => Sys2Proof.Machine.execCstEccRewrite s
  | .cstDebugRead who w => Sys2Proof.Machine.execCstDebugRead who w s
  | .exactLookup k err => Sys2Proof.Machine.execExactLookup k err s
  | .learnLookup k => Sys2Proof.Machine.execLearnLookup k s
  | .learnDecision => Sys2Proof.Machine.execLearnDecision s
  | .stashReplace tid => Sys2Proof.Machine.execStashReplace tid s
  | .xmtJobStart who tid count => Sys2Proof.Machine.execXmtJobStart who tid count s
  | .xmtJobAbort who => Sys2Proof.Machine.execXmtJobAbort who s
  | .xmtJobRecord rec => Sys2Proof.Machine.execXmtJobRecord rec s
  | .rehashComplete => Sys2Proof.Machine.execRehashComplete s
  | .bankUtilWindow => Sys2Proof.Machine.execBankUtilWindow s
  | .replicaFree bank => Sys2Proof.Machine.execReplicaFree bank s
  | .entryDemote tid => Sys2Proof.Machine.execEntryDemote tid s
  | .entryPromote tid => Sys2Proof.Machine.execEntryPromote tid s
  | .assayerRecord rec => Sys2Proof.Machine.execAssayerRecord rec s
  | .parityRewrite tid => Sys2Proof.Machine.execParityRewrite tid s
  | .lpmLookup k err => Sys2Proof.Machine.execLpmLookup k err s
  | .objLookup k ecc => Sys2Proof.Machine.execObjLookup k ecc s
  | .ecmpLookup k ecc => Sys2Proof.Machine.execEcmpLookup k ecc s
  | .coneDemote v6 => Sys2Proof.Machine.execConeDemote v6 s
  | .conePromote v6 => Sys2Proof.Machine.execConePromote v6 s
  | .lpmNodeRebuild => Sys2Proof.Machine.execLpmNodeRebuild s
  | .lpmJobStart who count => Sys2Proof.Machine.execLpmJobStart who count s
  | .lpmJobAbort who => Sys2Proof.Machine.execLpmJobAbort who s
  | .lpmJobRecord rec => Sys2Proof.Machine.execLpmJobRecord rec s
  | .objJobStart who count => Sys2Proof.Machine.execObjJobStart who count s
  | .objJobAbort who => Sys2Proof.Machine.execObjJobAbort who s
  | .objJobRecord rec list => Sys2Proof.Machine.execObjJobRecord rec list s
  | .acsSearch k hits misses ecc => Sys2Proof.Machine.execAcsSearch k hits misses ecc s
  | .acsRowRewrite q => Sys2Proof.Machine.execAcsRowRewrite q s
  | .acsScrub q found => Sys2Proof.Machine.execAcsScrub q found s
  | .acsSummaryRecompute => Sys2Proof.Machine.execAcsSummaryRecompute s
  | .acsRulestoreRewrite => Sys2Proof.Machine.execAcsRulestoreRewrite s
  | .acsJobStart who count => Sys2Proof.Machine.execAcsJobStart who count s
  | .acsJobAbort who => Sys2Proof.Machine.execAcsJobAbort who s
  | .acsJobRecord rec => Sys2Proof.Machine.execAcsJobRecord rec s
  | .slotDrained k => Sys2Proof.Machine.execSlotDrained k s
  | .slotFreed k => Sys2Proof.Machine.execSlotFreed k s
  | .retireOldest who => Sys2Proof.Machine.execRetireOldest who s
  | .ccPrepare who => Sys2Proof.Machine.execCcPrepare who s
  | .prepareMessage => Sys2Proof.Machine.execPrepareMessage s
  | .readyMessage => Sys2Proof.Machine.execReadyMessage s
  | .ccPrepTimeout => Sys2Proof.Machine.execCcPrepTimeout s
  | .goMessage => Sys2Proof.Machine.execGoMessage s
  | .ccCommitTime => Sys2Proof.Machine.execCcCommitTime s
  | .ccAbort who => Sys2Proof.Machine.execCcAbort who s
  | .abortMessage => Sys2Proof.Machine.execAbortMessage s
  | .doneMessage => Sys2Proof.Machine.execDoneMessage s
  | .goRepeat => Sys2Proof.Machine.execGoRepeat s
  | .drainMessage => Sys2Proof.Machine.execDrainMessage s
  | .releaseMessage => Sys2Proof.Machine.execReleaseMessage s
  | .bufferGrant pool ecc => Sys2Proof.Machine.execBufferGrant pool ecc s
  | .bufInitDone => Sys2Proof.Machine.execBufInitDone s
  | .voqEnqueue ecc => Sys2Proof.Machine.execVoqEnqueue ecc s
  | .spillWrite f => Sys2Proof.Machine.execSpillWrite f s
  | .drainRateUpdate => Sys2Proof.Machine.execDrainRateUpdate s
  | .spillReturn v => Sys2Proof.Machine.execSpillReturn v s
  | .voqDequeue v link bufErr ecc => Sys2Proof.Machine.execVoqDequeue v link bufErr ecc s
  | .ageingVisit v => Sys2Proof.Machine.execAgeingVisit v s
  | .auditEpochTick => Sys2Proof.Machine.execAuditEpochTick s
  | .tallyVisit bitmap => Sys2Proof.Machine.execTallyVisit bitmap s
  | .voqMapWrite who => Sys2Proof.Machine.execVoqMapWrite who s
  | .voqMapRead who => Sys2Proof.Machine.execVoqMapRead who s
  | .hbmAccess h arrivals => Sys2Proof.Machine.execHbmAccess h arrivals s
  | .hbmArbWindow => Sys2Proof.Machine.execHbmArbWindow s
  | .refreshTick h pc => Sys2Proof.Machine.execRefreshTick h pc s
  | .makeupRefresh h pc => Sys2Proof.Machine.execMakeupRefresh h pc s
  | .hbmTempRead h t => Sys2Proof.Machine.execHbmTempRead h t s
  | .powerDownEntry h pc => Sys2Proof.Machine.execPowerDownEntry h pc s
  | .hbcTrain who h => Sys2Proof.Machine.execHbcTrain who h s
  | .hbcTest who h => Sys2Proof.Machine.execHbcTest who h s
  | .srefEnter who h => Sys2Proof.Machine.execSrefEnter who h s
  | .srefExit who h => Sys2Proof.Machine.execSrefExit who h s
  | .trainDone h lanes failed => Sys2Proof.Machine.execTrainDone h lanes failed s
  | .initDone h => Sys2Proof.Machine.execInitDone h s
  | .testDone h failed => Sys2Proof.Machine.execTestDone h failed s
  | .retrainDone h ok => Sys2Proof.Machine.execRetrainDone h ok s
  | .recoverDone h => Sys2Proof.Machine.execRecoverDone h s
  | .eyeRecentre h => Sys2Proof.Machine.execEyeRecentre h s
  | .hbmScrub h ecc => Sys2Proof.Machine.execHbmScrub h ecc s
  | .selectionInstant port q link stateErr => Sys2Proof.Machine.execSelectionInstant port q link stateErr s
  | .transmitEnd port bufErr => Sys2Proof.Machine.execTransmitEnd port bufErr s
  | .shaperRefill => Sys2Proof.Machine.execShaperRefill s
  | .creditRefill => Sys2Proof.Machine.execCreditRefill s
  | .voqReport => Sys2Proof.Machine.execVoqReport s
  | .creditArrive => Sys2Proof.Machine.execCreditArrive s
  | .policeLookup k err => Sys2Proof.Machine.execPoliceLookup k err s
  | .policerWrite who => Sys2Proof.Machine.execPolicerWrite who s
  | .policerRead who => Sys2Proof.Machine.execPolicerRead who s
  | .gateWrite who => Sys2Proof.Machine.execGateWrite who s
  | .gateRead who => Sys2Proof.Machine.execGateRead who s
  | .gateListSwitch port => Sys2Proof.Machine.execGateListSwitch port s
  | .gateWindowEdge port => Sys2Proof.Machine.execGateWindowEdge port s
  | .samplePeriodEnd => Sys2Proof.Machine.execSamplePeriodEnd s
  | .sampleSelect who queue => Sys2Proof.Machine.execSampleSelect who queue s
  | .requestBitTimeout dev port cls => Sys2Proof.Machine.execRequestBitTimeout dev port cls s
  | .overloadWindow => Sys2Proof.Machine.execOverloadWindow s
  | .spillBudgetReset => Sys2Proof.Machine.execSpillBudgetReset s
  | .bankAccess bank arrivals write => Sys2Proof.Machine.execBankAccess bank arrivals write s
  | .puntRefill => Sys2Proof.Machine.execPuntRefill s
  | .puntWrite who t w => Sys2Proof.Machine.execPuntWrite who t w s
  | .linkTrained l => Sys2Proof.Machine.execLinkTrained l s
  | .helloSend l => Sys2Proof.Machine.execHelloSend l s
  | .helloReceive => Sys2Proof.Machine.execHelloReceive s
  | .linkDown l lockLost => Sys2Proof.Machine.execLinkDown l lockLost s
  | .cellSend l => Sys2Proof.Machine.execCellSend l s
  | .cellReceive l b err => Sys2Proof.Machine.execCellReceive l b err s
  | .reorderSkip src cls => Sys2Proof.Machine.execReorderSkip src cls s
  | .contextStart src cls => Sys2Proof.Machine.execContextStart src cls s
  | .ackSend => Sys2Proof.Machine.execAckSend s
  | .ackMessage => Sys2Proof.Machine.execAckMessage s
  | .stopMessage => Sys2Proof.Machine.execStopMessage s
  | .goCellsMessage => Sys2Proof.Machine.execGoCellsMessage s
  | .reportRefresh v => Sys2Proof.Machine.execReportRefresh v s
  | .reportMessage => Sys2Proof.Machine.execReportMessage s
  | .creditMessage => Sys2Proof.Machine.execCreditMessage s
  | .pingMessage => Sys2Proof.Machine.execPingMessage s
  | .pongMessage turn => Sys2Proof.Machine.execPongMessage turn s
  | .remoteWrite who => Sys2Proof.Machine.execRemoteWrite who s
  | .remoteRead who => Sys2Proof.Machine.execRemoteRead who s
  | .remoteResend => Sys2Proof.Machine.execRemoteResend s
  | .regwrMessage => Sys2Proof.Machine.execRegwrMessage s
  | .regrdMessage => Sys2Proof.Machine.execRegrdMessage s
  | .regackMessage => Sys2Proof.Machine.execRegackMessage s
  | .masterAnnounce => Sys2Proof.Machine.execMasterAnnounce s
  | .masterMessage => Sys2Proof.Machine.execMasterMessage s
  | .checkpointSend sw => Sys2Proof.Machine.execCheckpointSend sw s
  | .ckptAckMessage => Sys2Proof.Machine.execCkptAckMessage s
  | .checkpointResend => Sys2Proof.Machine.execCheckpointResend s
  | .stbyLost => Sys2Proof.Machine.execStbyLost s
  | .takeover => Sys2Proof.Machine.execTakeover s
  | .handover who => Sys2Proof.Machine.execHandover who s
  | .rehearse who => Sys2Proof.Machine.execRehearse who s
  | .probeMessage => Sys2Proof.Machine.execProbeMessage s
  | .probeAckMessage => Sys2Proof.Machine.execProbeAckMessage s
  | .rehearseTimeout => Sys2Proof.Machine.execRehearseTimeout s
  | .reachWrite who => Sys2Proof.Machine.execReachWrite who s
  | .reachRead who => Sys2Proof.Machine.execReachRead who s
  | .pcieReset linkDown => Sys2Proof.Machine.execPcieReset linkDown s
  | .submissionDoorbell n w => Sys2Proof.Machine.execSubmissionDoorbell n w s
  | .completionDoorbell n w => Sys2Proof.Machine.execCompletionDoorbell n w s
  | .ringWrite who => Sys2Proof.Machine.execRingWrite who s
  | .ringRead who => Sys2Proof.Machine.execRingRead who s
  | .ringFetch e => Sys2Proof.Machine.execRingFetch e s
  | .entryFetched n e => Sys2Proof.Machine.execEntryFetched n e s
  | .injectDataRead table data frag => Sys2Proof.Machine.execInjectDataRead table data frag s
  | .puntDeliver bad => Sys2Proof.Machine.execPuntDeliver bad s
  | .puntFlush => Sys2Proof.Machine.execPuntFlush s
  | .recordWrite c bad => Sys2Proof.Machine.execRecordWrite c bad s
  | .tailWriteback c => Sys2Proof.Machine.execTailWriteback c s
  | .sourceMessage => Sys2Proof.Machine.execSourceMessage s
  | .pendSet who n clr => Sys2Proof.Machine.execPendSet who n clr s
  | .sourceConfigWrite who w => Sys2Proof.Machine.execSourceConfigWrite who w s
  | .messageEmit t srcs tgts => Sys2Proof.Machine.execMessageEmit t srcs tgts s
  | .claim who t => Sys2Proof.Machine.execClaim who t s
  | .eoi who t n => Sys2Proof.Machine.execEoi who t n s
  | .sampleAnswer t => Sys2Proof.Machine.execSampleAnswer t s
  | .targetWake t => Sys2Proof.Machine.execTargetWake t s
  | .completionTimer c => Sys2Proof.Machine.execCompletionTimer c s
  | .counterReport sample bad => Sys2Proof.Machine.execCounterReport sample bad s
  | .counterWrite who clear => Sys2Proof.Machine.execCounterWrite who clear s
  | .counterRead who => Sys2Proof.Machine.execCounterRead who s
  | .countLookup k bad => Sys2Proof.Machine.execCountLookup k bad s
  | .counterPageRead page w wide => Sys2Proof.Machine.execCounterPageRead page w wide s
  | .dumpInstant => Sys2Proof.Machine.execDumpInstant s
  | .dumpCommit ok => Sys2Proof.Machine.execDumpCommit ok s
  | .captureTrigger => Sys2Proof.Machine.execCaptureTrigger s
  | .captureWrite bad => Sys2Proof.Machine.execCaptureWrite bad s
  | .timeSet who => Sys2Proof.Machine.execTimeSet who s
  | .timeStep who => Sys2Proof.Machine.execTimeStep who s
  | .timeRead who => Sys2Proof.Machine.execTimeRead who s
  | .ppsInRead who => Sys2Proof.Machine.execPpsInRead who s
  | .pllLockLoss => Sys2Proof.Machine.execPllLockLoss s
  | .ppsInEdge => Sys2Proof.Machine.execPpsInEdge s
  | .ppsOutEdge => Sys2Proof.Machine.execPpsOutEdge s
  | .synceSquelch n lost => Sys2Proof.Machine.execSynceSquelch n lost s
  | .synceRestore n => Sys2Proof.Machine.execSynceRestore n s
  | .timeSend => Sys2Proof.Machine.execTimeSend s
  | .timeMessage => Sys2Proof.Machine.execTimeMessage s
  | .timeHoldover => Sys2Proof.Machine.execTimeHoldover s
  | .faultRaise same bad => Sys2Proof.Machine.execFaultRaise same bad s
  | .shadowClose => Sys2Proof.Machine.execShadowClose s
  | .nmtAck who => Sys2Proof.Machine.execNmtAck who s
  | .errorPinRelease who => Sys2Proof.Machine.execErrorPinRelease who s
  | .safeStateExit who => Sys2Proof.Machine.execSafeStateExit who s
  | .firstRearm who => Sys2Proof.Machine.execFirstRearm who s
  | .recordSelect who w bad => Sys2Proof.Machine.execRecordSelect who w bad s
  | .chipReset blown => Sys2Proof.Machine.execChipReset blown s
  | .islandTick ain power bad => Sys2Proof.Machine.execIslandTick ain power bad s
  | .wakeBegin => Sys2Proof.Machine.execWakeBegin s
  | .wakeFail w => Sys2Proof.Machine.execWakeFail w s
  | .levelChangeDone sl => Sys2Proof.Machine.execLevelChangeDone sl s
  | .coolPeriod => Sys2Proof.Machine.execCoolPeriod s
  | .tachGate k edges => Sys2Proof.Machine.execTachGate k edges s
  | .dieSensorReading k t => Sys2Proof.Machine.execDieSensorReading k t s
  | .sensorTimeout k => Sys2Proof.Machine.execSensorTimeout k s
  | .islandOnly who => Sys2Proof.Machine.execIslandOnly who s
  | .wakeCtrl who => Sys2Proof.Machine.execWakeCtrl who s
  | .islandRestart => Sys2Proof.Machine.execIslandRestart s
  | .secLoad who => Sys2Proof.Machine.execSecLoad who s
  | .containerCheck c => Sys2Proof.Machine.execContainerCheck c s
  | .attest who => Sys2Proof.Machine.execAttest who s
  | .svnAdvance who => Sys2Proof.Machine.execSvnAdvance who s
  | .revoke who => Sys2Proof.Machine.execRevoke who s
  | .recover who => Sys2Proof.Machine.execRecover who s
  | .fuseCommandDone => Sys2Proof.Machine.execFuseCommandDone s
  | .bootRom fuseErr katFail dir0 dir1 boot0 boot1 isl0 isl1 => Sys2Proof.Machine.execBootRom fuseErr katFail dir0 dir1 boot0 boot1 isl0 isl1 s
  | .powerOnReset blown => Sys2Proof.Machine.execPowerOnReset blown s
  | .pinReset blown => Sys2Proof.Machine.execPinReset blown s
  | .resetRelease straps => Sys2Proof.Machine.execResetRelease straps s
  | .pageIdleClose h pc bank => Sys2Proof.Machine.execPageIdleClose h pc bank s
  | .restoreRetry g => Sys2Proof.Machine.execRestoreRetry g s
  | .overheadLockChange g k locked instOk => Sys2Proof.Machine.execOverheadLockChange g k locked instOk s
  | .linkPing l => Sys2Proof.Machine.execLinkPing l s
  | .handoverTimeout => Sys2Proof.Machine.execHandoverTimeout s
  | .pcieLinkTrained speed width flit => Sys2Proof.Machine.execPcieLinkTrained speed width flit s
  | .pcieDstateChange d3 pme => Sys2Proof.Machine.execPcieDstateChange d3 pme s
  | .pcieL1Entry lpm => Sys2Proof.Machine.execPcieL1Entry lpm s
  | .timePllLock => Sys2Proof.Machine.execTimePllLock s
  | .refclk25Loss => Sys2Proof.Machine.execRefclk25Loss s
  | .islandControllerHalt => Sys2Proof.Machine.execIslandControllerHalt s
  | .attestReportSigned keyBad => Sys2Proof.Machine.execAttestReportSigned keyBad s

end Sys2Proof.Machine
end

