-- ==== Sys2Proof/Machine/Frame.lean ====
section
/-! DEFINITION. What statements say a command leaves alone, the canonical form of the memory of the stacks, and what an outcome
goes on with. -/

namespace Sys2Proof.Machine

/-- The canonical form of the memory of the stacks: addresses strictly rising and no byte listed that reads as an unlisted one. -/
def Memory.wf (m : List Host.Cell) : Bool := Tbl.wf (fun _ => 0) m

/-- What few commands change: the queue, the reset and reference-clock lines, the model's time and the fuses (21 R479, R480). -/
def State.outside (s : State) : List Instr × Bool × Bool × Nat × Option Nat × Nat :=
  (s.pending, s.held, s.refLost, s.now, s.sec.svn, s.sec.revoked)

/-- That and the content of the stacks (13 R292). -/
def State.kept (s : State) : (List Instr × Bool × Bool × Nat × Option Nat × Nat) × List Host.Cell := (s.outside, s.hbm)

/-- The outcome is a next state that meets `P`. -/
def Goes (o : Host.Outcome State Fault Refusal) (P : State → Prop) : Prop := ∃ t, o = .next t ∧ P t

end Sys2Proof.Machine
end

