-- ==== Sys2Proof/WellFormed.lean ====
section
/-! DEFINITION. Well-formed commands: what the types of the operands do not say. -/

namespace Sys2Proof

/-- Fetched bytes have the length of what was fetched. -/
def fetchedLen (f : Fetched) (n : Nat) : Bool :=
  match f with
  | .bytes b => b.length == n
  | .failed => true

/-- The operands of a command are ones that the outside world can give it. -/
def Instr.wf : Instr → Bool
  -- a register lies at a multiple of 4 (02 R32)
  | .registerWrite _ addr _ _ => addr.toNat % 4 == 0
  -- a register lies at a multiple of 4 (02 R32)
  | .rw64LoWrite _ addr _ | .rw64HiWrite _ addr _ | .stagedWrite _ addr _ => addr.toNat % 4 == 0
  -- the access is one that R32 calls invalid
  | .bar0InvalidAccess _ addr len _ => decide (1 ≤ len) && (!Machine.assigned addr.toNat || (len != 4 && len != 8) || addr.toNat % len != 0)
  -- the page is one of the block (02 R34)
  | .softReset _ b page _ => decide (page.val < Machine.blockPages b)
  -- the instance is one of the block (02 R34)
  | .blockResetDone b inst => decide (inst.val < Machine.blockPages b)
  -- a frame has a byte (03 R55)
  | .frameReceive _ b _ => !b.isEmpty
  -- one time per priority (03 R60)
  | .pfcReceive _ _ times => times.length == 8
  -- a slot of a calendar names a client in five bits (04, LOOM_CAL_A)
  | .farCBitChange _ received | .overheadMultiframe _ received => received.all fun c => decide (c < 32)
  -- a record is 64 bytes (08 R184, R191, 09 R215)
  | .xmtJobRecord rec | .lpmJobRecord rec | .assayerRecord rec => fetchedLen rec 64
  -- a record is 64 bytes (09 R215)
  | .objJobRecord rec _ => fetchedLen rec 64
  -- a record is 256 bytes (10 R235)
  | .acsJobRecord rec => fetchedLen rec 256
  -- a write stays in its line (13 R285)
  | .hbmAccess _ arrivals => arrivals.all fun r => match r.write with | none => true | some d => !d.isEmpty && decide (r.addr % 256 + d.length ≤ 256)
  -- a cell is 272 bytes (16 R346)
  | .cellReceive _ b _ => b.length == 272
  -- eight analogue inputs (20 Table 20.2)
  | .islandTick ain _ _ => ain.length == 8
  -- at most the 64 counter fuses are blown (21 R479)
  | .powerOnReset blown | .pinReset blown | .chipReset blown => decide (blown ≤ 64)
  -- the types of the operands say all there is to say
  | .loRegisterRead _ _ _ | .hiRegisterRead _ _ | .bar4Read _ _ _ | .bar4Write | .bar2InvalidAccess _ _ _ | .begin _ | .commit _
  | .rollback _ | .txnTimeout _ | .commitGrant | .commitCycle | .blockSwitch _ | .commitTimeout _ | .portUp _ | .portDown _ _ _
  | .frameEnd _ _ | .fcsResult _ _ | .pfcRepeat _ _ | .pfcPauseExpiry _ _ | .pauseReceive _ | .workingCalendarDerive _
  | .calendarBoundary _ | .porterRateSwitch _ | .caReceive _ | .noticeFrame _ _ _ | .hostNotice _ _ | .noticeAckFall _ | .noticeAbandon _
  | .phyFault _ _ | .phyRestore _ _ | .parseFrame _ _ | .parseResume _ _ | .parseResultRelease _ | .gmemWrite _ _ | .gmemRead _ _
  | .dispatchGrant _ _ | .contextLoaded _ _ | .microwordIssue _ _ _ | .watchdogExpiry _ _ | .lookupResult _ | .ticketRelease _ _ _
  | .ticketSkip _ _ | .workshopAsleep _ | .workshopAwake _ | .cstLoad _ | .cstPatch _ | .cstAbort _ | .cstContainerChecked _
  | .cstLoadWritten | .cstPatchWorkshopDone _ _ | .cstRollbackDone | .cstEccRewrite | .cstDebugRead _ _ | .exactLookup _ _
  | .learnLookup _ | .learnDecision | .stashReplace _ | .xmtJobStart _ _ _ | .xmtJobAbort _ | .rehashComplete | .bankUtilWindow
  | .replicaFree _ | .entryDemote _ | .entryPromote _ | .parityRewrite _ | .lpmLookup _ _ | .objLookup _ _ | .ecmpLookup _ _
  | .coneDemote _ | .conePromote _ | .lpmNodeRebuild | .lpmJobStart _ _ | .lpmJobAbort _ | .objJobStart _ _ | .objJobAbort _
  | .acsSearch _ _ _ _ | .acsRowRewrite _ | .acsScrub _ _ | .acsSummaryRecompute | .acsRulestoreRewrite | .acsJobStart _ _
  | .acsJobAbort _ | .slotDrained _ | .slotFreed _ | .retireOldest _ | .ccPrepare _ | .prepareMessage | .readyMessage | .ccPrepTimeout
  | .goMessage | .ccCommitTime | .ccAbort _ | .abortMessage | .doneMessage | .goRepeat | .drainMessage | .releaseMessage
  | .bufferGrant _ _ | .bufInitDone | .voqEnqueue _ | .spillWrite _ | .drainRateUpdate | .spillReturn _ | .voqDequeue _ _ _ _
  | .ageingVisit _ | .auditEpochTick | .tallyVisit _ | .voqMapWrite _ | .voqMapRead _ | .hbmArbWindow | .refreshTick _ _
  | .makeupRefresh _ _ | .hbmTempRead _ _ | .powerDownEntry _ _ | .hbcTrain _ _ | .hbcTest _ _ | .srefEnter _ _ | .srefExit _ _
  | .trainDone _ _ _ | .initDone _ | .testDone _ _ | .retrainDone _ _ | .recoverDone _ | .eyeRecentre _ | .hbmScrub _ _
  | .selectionInstant _ _ _ _ | .transmitEnd _ _ | .shaperRefill | .creditRefill | .voqReport | .creditArrive | .policeLookup _ _
  | .policerWrite _ | .policerRead _ | .gateWrite _ | .gateRead _ | .gateListSwitch _ | .gateWindowEdge _ | .samplePeriodEnd
  | .sampleSelect _ _ | .requestBitTimeout _ _ _ | .overloadWindow | .spillBudgetReset | .bankAccess _ _ _ | .puntRefill
  | .puntWrite _ _ _ | .linkTrained _ | .helloSend _ | .helloReceive | .linkDown _ _ | .cellSend _ | .reorderSkip _ _ | .contextStart _ _
  | .ackSend | .ackMessage | .stopMessage | .goCellsMessage | .reportRefresh _ | .reportMessage | .creditMessage | .pingMessage
  | .pongMessage _ | .remoteWrite _ | .remoteRead _ | .remoteResend | .regwrMessage | .regrdMessage | .regackMessage | .masterAnnounce
  | .masterMessage | .checkpointSend _ | .ckptAckMessage | .checkpointResend | .stbyLost | .takeover | .handover _ | .rehearse _
  | .probeMessage | .probeAckMessage | .rehearseTimeout | .reachWrite _ | .reachRead _ | .pcieReset _ | .submissionDoorbell _ _
  | .completionDoorbell _ _ | .ringWrite _ | .ringRead _ | .ringFetch _ | .entryFetched _ _ | .injectDataRead _ _ _ | .puntDeliver _
  | .puntFlush | .recordWrite _ _ | .tailWriteback _ | .sourceMessage | .pendSet _ _ _ | .sourceConfigWrite _ _ | .messageEmit _ _ _
  | .claim _ _ | .eoi _ _ _ | .sampleAnswer _ | .targetWake _ | .completionTimer _ | .counterReport _ _ | .counterWrite _ _
  | .counterRead _ | .countLookup _ _ | .counterPageRead _ _ _ | .dumpInstant | .dumpCommit _ | .captureTrigger | .captureWrite _
  | .timeSet _ | .timeStep _ | .timeRead _ | .ppsInRead _ | .pllLockLoss | .ppsInEdge | .ppsOutEdge | .synceSquelch _ _ | .synceRestore _
  | .timeSend | .timeMessage | .timeHoldover | .faultRaise _ _ | .shadowClose | .nmtAck _ | .errorPinRelease _ | .safeStateExit _
  | .firstRearm _ | .recordSelect _ _ _ | .wakeBegin | .wakeFail _ | .levelChangeDone _ | .coolPeriod | .tachGate _ _
  | .dieSensorReading _ _ | .sensorTimeout _ | .islandOnly _ | .wakeCtrl _ | .islandRestart | .secLoad _ | .containerCheck _ | .attest _
  | .svnAdvance _ | .revoke _ | .recover _ | .fuseCommandDone | .bootRom _ _ _ _ _ _ _ _ | .resetRelease _ | .pageIdleClose _ _ _
  | .restoreRetry _ | .overheadLockChange _ _ _ _ | .linkPing _ | .handoverTimeout | .pcieLinkTrained _ _ _ | .pcieDstateChange _ _
  | .pcieL1Entry _ | .timePllLock | .refclk25Loss | .islandControllerHalt | .attestReportSigned _ => true

end Sys2Proof
end

