-- ==== Sys2Proof/Safety.lean ====
section
/-! DEFINITION. What counts as a safe run: every step answers a next state, and the invariant that every step keeps. -/

namespace Sys2Proof.Machine

/-- `k` steps from `s` all answer a next state. -/
def runsSafe : Nat → State → Prop
  | 0, _ => True
  | k + 1, s => Goes (step s) fun t => runsSafe k t

/-- The invariant of the model: the memory of the stacks is in its canonical form and every waiting command is well formed. -/
def StateInv (s : State) : Prop := Memory.wf s.hbm = true ∧ ∀ c ∈ s.pending, c.wf = true

/-- The fuses only ever advance (21 R479, R480): the security version does not fall and a revoked key slot stays revoked. -/
def Advances (s t : State) : Prop := s.fuseSvn ≤ t.fuseSvn ∧ ∀ k, s.fuseRevoked.testBit k = true → t.fuseRevoked.testBit k = true

end Sys2Proof.Machine
end

