-- ==== Sys2Proof/Certificates/Slice0/Obligations.lean ====
section
/-! DEFINITION. The statements for the provers, chapter by chapter of the manual. A clause of the form `∃ t, exec c s = .next t ∧ …` says
that the command completes from every state and operand that meets its hypotheses; `kept` is what a command leaves unchanged of the queue,
the reset and reference lines, the model's time, the fuses and every byte of the stacks, `outside` the same without the stacks. -/

section

open Sys2Proof Sys2Proof.Machine Sys2Proof.Machine.Reg

/-! ### The queue, the whole device and reset -/

/-- A step takes the command at the front of the queue: it is that command's effect on the state with the rest of the queue. -/
def Obligations.StepRunsFrontCommand : Prop :=
  ∀ (c : Instr) (rest : List Instr) (s : State), s.pending = c :: rest → step s = exec c { s with pending := rest }

/-- No command of the table stops the machine, and none but the step itself takes a command from the queue or puts one there. -/
def Obligations.EveryCommandCompletes : Prop :=
  ∀ (c : Instr) (s : State), ∃ t, exec c s = .next t ∧ t.pending = s.pending

/-- The invariant is kept by every step: the memory of the stacks stays in its canonical form and the waiting commands well formed. -/
def Obligations.EveryStepKeepsTheInvariant : Prop :=
  ∀ s t : State, StateInv s → step s = .next t → StateInv t

/-- The state after a power-on reset meets the invariant. -/
def Obligations.ResetMeetsTheInvariant : Prop := StateInv State.reset

/-- Over every step the anti-rollback counter does not fall and no revoked key slot returns (R479, R480): resets, roll-backs and commands
of every other block included. -/
def Obligations.FusesOnlyAdvance : Prop :=
  ∀ s t : State, step s = .next t → Advances s t

/-- Only the reset rows and the loss of the reference change whether the device is held in reset or has its reference, only the four rows
that blow fuses change them, and no command moves the model's time. -/
def Obligations.OnlyResetsHoldTheDevice : Prop :=
  ∀ (c : Instr) (s t : State), exec c s = .next t →
    t.now = s.now ∧
    (t.held = s.held ∧ t.refLost = s.refLost ∨ (∃ n, c = .powerOnReset n) ∨ (∃ n, c = .pinReset n) ∨ (∃ n, c = .chipReset n) ∨
      (∃ p, c = .resetRelease p) ∨ c = .refclk25Loss) ∧
    (t.sec.svn = s.sec.svn ∧ t.sec.revoked = s.sec.revoked ∨ c = .fuseCommandDone ∨ (∃ n, c = .powerOnReset n) ∨
      (∃ n, c = .pinReset n) ∨ ∃ n, c = .chipReset n)

/-- The commands that may change what the stacks hold: accesses and the life of a stack (13), register writes that reach its commands,
the writers of the dump and capture areas (18), and what forces safe state or resets the device (19, 20, 22). -/
def Sys2Proof.changesStacks : Instr → Bool
  | .registerWrite _ _ _ _ => true
  | .softReset _ _ _ _ => true
  | .hbmAccess _ _ => true
  | .hbcTrain _ _ => true
  | .hbcTest _ _ => true
  | .srefEnter _ _ => true
  | .initDone _ => true
  | .hbmScrub _ _ => true
  | .regwrMessage => true
  | .dumpInstant => true
  | .dumpCommit _ => true
  | .captureWrite _ => true
  | .faultRaise _ _ => true
  | .islandTick _ _ _ => true
  | .dieSensorReading _ _ => true
  | .islandOnly _ => true
  | .powerOnReset _ => true
  | .pinReset _ => true
  | .chipReset _ => true
  | _ => false

/-- Every other command leaves every byte of the stacks as it is. -/
def Obligations.OtherCommandsLeaveTheStacks : Prop :=
  ∀ (c : Instr) (s t : State), changesStacks c = false → exec c s = .next t → ∀ a, t.hbmByte a = s.hbmByte a

/-- What every reset of the device leaves without content: transactions, tables, frames, queues, stacks, links, interrupts and the time base. -/
def Sys2Proof.emptied (t : State) : Prop :=
  t.hbm = [] ∧ t.frames = [] ∧ t.ldg = {} ∧ t.xmt = {} ∧ t.lpm = {} ∧ t.obj = {} ∧ t.acs = {} ∧ t.buf = {} ∧ t.voq = {} ∧ t.sch = {} ∧ t.icu = {} ∧
    t.cnt = {} ∧ t.cap = {} ∧ t.tb = {} ∧ t.tim = {} ∧ t.hbc = {} ∧ t.hif.sr = [] ∧ t.hif.cr = [] ∧ t.cly.links = [] ∧ t.cly.ctx = [] ∧ t.cst = {} ∧
    t.wks = {} ∧ t.raises = [] ∧ t.icuMsgs = [] ∧ t.safe = false ∧ t.refLost = false

/-- The fuses after a reset that had blown `n` fuses of the command in progress (R479, R480); without one they are as before. -/
def Sys2Proof.fusesAfter (n : Nat) (s t : State) : Prop :=
  (s.sec.cmd = 3 → t.fuseSvn = max s.fuseSvn (min s.sec.arg (s.fuseSvn + n)) ∧ t.fuseRevoked = s.fuseRevoked) ∧
  (s.sec.cmd = 4 → n ≠ 0 → t.fuseSvn = s.fuseSvn ∧ t.fuseRevoked = s.fuseRevoked ||| 2 ^ s.sec.arg) ∧
  (s.sec.cmd ≠ 3 → s.sec.cmd ≠ 4 ∨ n = 0 → t.fuseSvn = s.fuseSvn ∧ t.fuseRevoked = s.fuseRevoked)

/-- POWER_ON_RESET, PIN_RESET, CHIP_RESET, RESET_RELEASE and REFCLK25_LOSS (R441, R443, R479, R485, R486, R487, R489, R508), and the state after reset:
every register has its reset value and every table, queue and stack is without content; RESET_CAUSE holds the one cause; a pin reset in force is not
restarted; a chip reset keeps the records, FIRST, FLT_SEQ and ERROR_N; the fuses blown by a fuse command that the reset cuts short stay blown. -/
def Obligations.ResetsLeaveTheSpecifiedState : Prop :=
  (State.reset.rd 0x00024 = 1 ∧ State.reset.rd 0x10024 = 1 ∧ State.reset.rd 0x80024 = 1 ∧
    State.reset.slotState 0 = .current ∧ (∀ k : Fin 16, k ≠ 0 → State.reset.slotState k = .free) ∧ State.reset.epoch 0 = 0 ∧
    State.reset.get LDG_EPOCH_EPOCH = 0 ∧ (∀ i : Fin 5, State.reset.txnState i = .idle) ∧
    (∀ n : Fin 64, State.reset.get (WKS_STAT_STATE n) = 0) ∧ (∀ h : Fin 6, State.reset.get (HBC_STAT_STATE h) = 0) ∧
    State.reset.tb = {} ∧ State.reset.get SEC_STAT_STATE = 0 ∧ State.reset.pending = [] ∧ State.reset.hbm = []) ∧
  (∀ (n : Nat) (s : State), ∃ t, exec (.powerOnReset n) s = .next t ∧ (∀ a, t.rd a = resetWord a) ∧ emptied t ∧ t.aon = {} ∧ t.flt = {} ∧
    t.held = true ∧ fusesAfter n s t ∧ t.now = s.now ∧ t.pending = s.pending) ∧
  (∀ (n : Nat) (s : State),
    (s.held = true → exec (.pinReset n) s = .next s) ∧
    (s.held = false → ∃ t, exec (.pinReset n) s = .next t ∧ (∀ a, a ∉ allPages.map (· + 0x24) → t.rd a = resetWord a) ∧
      (∀ pg, pg ∈ allPages → t.rd (pg + 0x24) = 2) ∧ emptied t ∧ t.flt = {} ∧ t.get FLT_PIN_ERRN = 0 ∧
      t.aon = { filt := s.aon.filt, tickAt := s.aon.tickAt, cperAt := s.aon.cperAt } ∧ t.held = true ∧ fusesAfter n s t ∧ t.now = s.now ∧
      t.pending = s.pending)) ∧
  (∀ (n : Nat) (s : State),
    (s.flt.chipPend = none → exec (.chipReset n) s = .next s) ∧
    (∀ q, s.flt.chipPend = some q → ∃ t, exec (.chipReset n) s = .next t ∧
      (∀ a, a ∉ allPages.map (· + 0x24) → pageOf a ≠ 0x30000 → t.rd a = resetWord a) ∧ (∀ pg, pg ∈ allPages → t.rd (pg + 0x24) = 4) ∧ emptied t ∧
      t.flt = { recs := s.flt.recs, read := s.flt.read } ∧ (∀ k : Fin 8, t.rd (FLT_FIRST k) = s.rd (FLT_FIRST k)) ∧
      t.get FLT_FIRST_CTL_FIRST_V = s.get FLT_FIRST_CTL_FIRST_V ∧ t.rd FLT_SEQ = s.rd FLT_SEQ ∧ t.get FLT_PIN_ERRN = s.get FLT_PIN_ERRN ∧
      t.aon = { filt := s.aon.filt, tickAt := s.aon.tickAt, cperAt := s.aon.cperAt } ∧ t.held = false ∧ t.straps = s.straps ∧ fusesAfter n s t ∧ t.now = s.now ∧
      t.pending = s.pending)) ∧
  (∀ s : State,
    (∀ p : BitVec 4, s.refLost = true ∨ s.held = false → exec (.resetRelease p) s = .next s) ∧
    (∀ p : BitVec 4, s.refLost = false → s.held = true → exec (.resetRelease p) s = .next { s with
      held := false
      straps := p }) ∧
    exec .refclk25Loss s = .next { s with
      held := true
      refLost := true
      aon := { s.aon with fast := false } })

/-! ### 02: register accesses -/

/-- REGISTER_WRITE (R9, R10, R35, R36), for a register without staged fields of CAP or of a workshop page and for the common header of any page:
each bit of code RW takes the bit written, each W1C bit is cleared by a 1, every other bit stays, and no other register changes; EN takes effect at
once on the pages of R36; IDENT, CAPS, STAT, LEDGER_STAT and CLK_STAT ignore writes. -/
def Obligations.RegisterWritesFollowTheirCodes : Prop :=
  (∀ (i : Fin 5) (addr : BitVec 27) (w : Word) (r : RegRow) (s : State), addr.toNat % 4 = 0 → s.reaches i addr.toNat = true →
    (blockOf addr.toNat = 9 ∨ blockOf addr.toNat = 20) → 0x80 ≤ addr.toNat % 0x1000 → rwsMask addr.toNat = 0 →
    pairOf addr.toNat = .plain → findRow addr.toNat = some r →
    ∃ t, exec (.registerWrite i addr w none) s = .next t ∧
      (∀ k : Fin 32, (t.rd addr.toNat).getLsbD k =
        ((if (BitVec.ofNat 32 r.rw).getLsbD k then w.getLsbD k else (s.rd addr.toNat).getLsbD k) &&
          !(w.getLsbD k && (BitVec.ofNat 32 r.w1c).getLsbD k))) ∧
      (∀ b, b ≠ addr.toNat → t.rd b = s.rd b) ∧ t = { s with regs := t.regs }) ∧
  ∀ (i : Fin 5) (addr : BitVec 27) (w : Word) (s : State), s.reaches i addr.toNat = true →
    (addr.toNat % 0x1000 = 0x20 → exec (.registerWrite i addr w none) s = .next (s.wr addr.toNat w)) ∧
    (addr.toNat % 0x1000 = 0x24 → exec (.registerWrite i addr w none) s = .next (s.wr addr.toNat (s.rd addr.toNat &&& ~~~w))) ∧
    (addr.toNat % 0x1000 = 0x10 → ∃ t, exec (.registerWrite i addr w none) s = .next t ∧ t.rd addr.toNat = s.rd addr.toNat &&& ~~~w ∧
      (∀ b, b ≠ addr.toNat → t.rd b = s.rd b) ∧ t.kept = s.kept) ∧
    (addr.toNat % 0x1000 = 0x14 → ∃ t, exec (.registerWrite i addr w none) s = .next t ∧ t.rd addr.toNat = s.rd addr.toNat &&& ~~~w ∧
      (∀ b, b ≠ addr.toNat → t.rd b = s.rd b) ∧ t.kept = s.kept) ∧
    (addr.toNat % 0x1000 = 0x18 → ∃ t, exec (.registerWrite i addr w none) s = .next t ∧ t.rd addr.toNat = w ∧
      (∀ b, b ≠ addr.toNat → t.rd b = s.rd b) ∧ t.kept = s.kept) ∧
    (addr.toNat % 0x1000 = 0x08 → ctlActsAtOnce (blockOf addr.toNat) = true → bit w.toNat 1 = false →
      ∃ t, exec (.registerWrite i addr w none) s = .next t ∧ t.get (ctlEn (pageOf addr.toNat)) = b2n (bit w.toNat 0) ∧
        (∀ b, b ≠ addr.toNat → t.rd b = s.rd b) ∧ t = { s with regs := t.regs }) ∧
    (addr.toNat % 0x1000 = 0x00 ∨ addr.toNat % 0x1000 = 0x04 ∨ addr.toNat % 0x1000 = 0x0C ∨ addr.toNat % 0x1000 = 0x1C ∨
      addr.toNat % 0x1000 = 0x28 → exec (.registerWrite i addr w none) s = .next s)

/-- LO_REGISTER_READ, HI_REGISTER_READ, RW64_LO_WRITE and RW64_HI_WRITE (R7, R32, R33), reads outside ICU and TIM: a read of _LO replaces the
initiator's capture with the value of the paired _HI; the next read of that _HI by the same initiator answers the captured value and clears the
capture, and with none it answers the current value; a 64-bit read answers both words of one cycle. A write to _LO is held and changes nothing else;
the write to _HI changes the whole quantity together with the held word. -/
def Obligations.PairRegistersActAsOne : Prop :=
  (∀ (i : Fin 5) (addr : BitVec 27) (s : State), addr.toNat % 4 = 0 → s.reaches i addr.toNat = true →
    blockOf addr.toNat ≠ 5 → blockOf addr.toNat ≠ 7 →
    (isLo addr.toNat = true →
      ∃ t, exec (.loRegisterRead i addr false) s = .next t ∧
        Tbl.get (fun _ => none) t.hiCap i = some (addr.toNat + 4, s.readWord (addr.toNat + 4)) ∧
        Tbl.get (fun _ => 0) t.rdata i = s.readFor i addr.toNat ∧
        (∀ j, j ≠ i.val → Tbl.get (fun _ => none) t.hiCap j = Tbl.get (fun _ => none) s.hiCap j ∧
          Tbl.get (fun _ => 0) t.rdata j = Tbl.get (fun _ => 0) s.rdata j) ∧
        t = { s with
          hiCap := t.hiCap
          rdata := t.rdata }) ∧
    (isLo addr.toNat = true → addr.toNat % 8 = 0 → isHi (addr.toNat + 4) = true → s.reaches i (addr.toNat + 4) = true →
      blockOf (addr.toNat + 4) = blockOf addr.toNat →
      ∃ t, exec (.loRegisterRead i addr true) s = .next t ∧ Tbl.get (fun _ => 0) t.rdata i = s.readFor i addr.toNat ∧
        Tbl.get (fun _ => 0) t.rdata (8 + i.val) = s.readWord (addr.toNat + 4) ∧ Tbl.get (fun _ => none) t.hiCap i = none ∧
        t = { s with
          hiCap := t.hiCap
          rdata := t.rdata }) ∧
    (isHi addr.toNat = true → ∀ w, Tbl.get (fun _ => none) s.hiCap i = some (addr.toNat, w) →
      ∃ t, exec (.hiRegisterRead i addr) s = .next t ∧ Tbl.get (fun _ => 0) t.rdata i = w ∧
        Tbl.get (fun _ => none) t.hiCap i = none ∧
        (∀ j, j ≠ i.val → Tbl.get (fun _ => none) t.hiCap j = Tbl.get (fun _ => none) s.hiCap j) ∧
        t = { s with
          hiCap := t.hiCap
          rdata := t.rdata }) ∧
    (isHi addr.toNat = true → (∀ w, Tbl.get (fun _ => none) s.hiCap i ≠ some (addr.toNat, w)) →
      ∃ t, exec (.hiRegisterRead i addr) s = .next t ∧ Tbl.get (fun _ => 0) t.rdata i = s.readFor i addr.toNat ∧
        t = { s with rdata := t.rdata }) ∧
    (isLo addr.toNat = false → isHi addr.toNat = false →
      ∃ t, exec (.loRegisterRead i addr false) s = .next t ∧ Tbl.get (fun _ => 0) t.rdata i = s.readFor i addr.toNat ∧
        t = { s with rdata := t.rdata })) ∧
  (∀ (i : Fin 5) (addr : BitVec 27) (w : Word) (s : State), addr.toNat % 4 = 0 → s.reaches i addr.toNat = true →
    (pairOf addr.toNat = .rwLo →
      ∃ t, exec (.rw64LoWrite i addr w) s = .next t ∧ t.regs = s.regs ∧ Tbl.get (fun _ => none) t.loHold addr.toNat = some w ∧
        (∀ b, b ≠ addr.toNat → Tbl.get (fun _ => none) t.loHold b = Tbl.get (fun _ => none) s.loHold b) ∧
        t = { s with loHold := t.loHold }) ∧
    (∀ lo, pairOf addr.toNat = .rwHi → addr.toNat ≠ ICU_TGT_ADDR_HI → Tbl.get (fun _ => none) s.loHold (addr.toNat - 4) = some lo →
      4 ≤ addr.toNat →
      ∃ t, exec (.rw64HiWrite i addr w) s = .next t ∧ t.rd addr.toNat = w ∧ t.rd (addr.toNat - 4) = lo ∧
        (∀ b, b ≠ addr.toNat → b ≠ addr.toNat - 4 → t.rd b = s.rd b) ∧ Tbl.get (fun _ => none) t.loHold (addr.toNat - 4) = none ∧
        t = { s with
          regs := t.regs
          loHold := t.loHold }) ∧
    (∀ lo k, addr.toNat = ICU_TGT_ADDR_HI → Tbl.get (fun _ => none) s.loHold ICU_TGT_ADDR_LO = some lo → k = s.get ICU_TGT_SEL_TGT →
      ∃ t, exec (.rw64HiWrite i addr w) s = .next t ∧ t.itgt k = { s.itgt k with addr := lo.toNat + 2 ^ 32 * w.toNat } ∧
        (∀ m, m ≠ k → t.itgt m = s.itgt m) ∧ Tbl.get (fun _ => none) t.loHold ICU_TGT_ADDR_LO = none ∧
        t = { s with
          icu := t.icu
          loHold := t.loHold }))

/-- BAR0_INVALID_ACCESS, BAR2_INVALID_ACCESS and BAR4_WRITE (R32, R38, R39): what BAR0 does not accept raises SYS source 1 with its address, an
access outside the ranges of BAR2 source 3, a write to BAR4 source 2; a read answers 0 and no other register changes. -/
def Obligations.InvalidAccessesRaiseTheirSource : Prop :=
  (∀ (i : Fin 5) (addr : BitVec 27) (len : Nat) (write : Bool) (s : State), s.held = false → s.aon.only = false →
    ¬((len = 4 ∧ addr.toNat % 4 = 0) ∨ (len = 8 ∧ addr.toNat % 8 = 0)) →
    ∃ t, exec (.bar0InvalidAccess i addr len write) s = .next t ∧ t.get ⟨0x10, 1, 1⟩ = 1 ∧
      t.raises = s.raises ++ [⟨1, 0, addr.toNat, 0, 0, 0, s.tb.sec % 2 ^ 32, s.tb.ns⟩] ∧ (∀ b, b ≠ 0x10 → t.rd b = s.rd b) ∧
      (write = false → Tbl.get (fun _ => 0) t.rdata i = 0) ∧ t.kept = s.kept) ∧
  (∀ (i : Fin 5) (addr : BitVec 27) (write : Bool) (s : State), s.held = false → s.aon.only = false → addr.toNat % 4 = 0 →
    assigned addr.toNat = false →
    ∃ t, exec (.bar0InvalidAccess i addr 4 write) s = .next t ∧ t.get ⟨0x10, 1, 1⟩ = 1 ∧ (∀ b, b ≠ 0x10 → t.rd b = s.rd b) ∧
      (write = false → Tbl.get (fun _ => 0) t.rdata i = 0) ∧ t.kept = s.kept) ∧
  (∀ (off : BitVec 26) (n : Fin 9) (write : Bool) (s : State), s.held = false → bar2Assigned off.toNat = false →
    ∃ t, exec (.bar2InvalidAccess off n write) s = .next t ∧ t.get ⟨0x10, 3, 1⟩ = 1 ∧ (∀ b, b ≠ 0x10 → t.rd b = s.rd b) ∧
      (write = false → t.rbytes = List.replicate n.val 0) ∧ t.kept = s.kept) ∧
  (∀ s : State, s.held = false →
    ∃ t, exec .bar4Write s = .next t ∧ t.get ⟨0x10, 2, 1⟩ = 1 ∧ (∀ b, b ≠ 0x10 → t.rd b = s.rd b) ∧ t.kept = s.kept)

/-- BAR4_READ (R38, 13 R298): with the window enabled and in range the read answers the bytes that the available stacks hold in the capture
and dump areas; disabled, out of range or uncorrectable it answers zeros. The device changes in nothing else. -/
def Obligations.BarFourReadsTheWindow : Prop :=
  ∀ (off : Word) (n : Fin 257) (bad : Bool) (s : State),
    ∃ t, exec (.bar4Read off n bad) s = .next t ∧ t.rbytes.length = n.val ∧
      (∀ k, k < n.val → s.held = false → bad = false → s.get SYS_BAR4_WIN_EN = 1 → s.get SYS_BAR4_WIN_WINDOW ≤ 35 →
        s.dumpBase ≤ s.get SYS_BAR4_WIN_WINDOW * 2 ^ 32 + off.toNat + k →
        s.hAvail (hbmStack (s.get SYS_BAR4_WIN_WINDOW * 2 ^ 32 + off.toNat + k)) = true →
        t.rbytes[k]? = some (s.hbmByte (s.get SYS_BAR4_WIN_WINDOW * 2 ^ 32 + off.toNat + k))) ∧
      (s.held = true ∨ s.get SYS_BAR4_WIN_EN = 0 ∨ 35 < s.get SYS_BAR4_WIN_WINDOW ∨ bad = true → t.rbytes = List.replicate n.val 0) ∧
      t = { s with
        rbytes := t.rbytes
        free := s.free + n.val }

/-- STAGED_WRITE (R42, 11 R254) by the writer's transaction state: without a transaction it sets ORPHAN and records the first writer and
address; DOOMED and COMMITTING refuse it with no effect; OPEN stages or replaces the word, unless another initiator holds it or the
staging store is full, which dooms the writer. The register keeps its live value in every case. -/
def Obligations.StagedWriteFollowsTheTransaction : Prop :=
  ∀ (i : Fin 5) (addr : BitVec 27) (w : Word) (s : State), addr.toNat % 4 = 0 → rwsMask addr.toNat ≠ 0 → s.reaches i addr.toNat = true →
    (s.txnState i = .idle → s.get LDG_ORPHAN_STAT_ORPHAN = 0 →
      ∃ t, exec (.stagedWrite i addr w) s = .next t ∧ t.get LDG_ORPHAN_STAT_ORPHAN = 1 ∧ t.get LDG_ORPHAN_STAT_INIT = i ∧
        t.get LDG_ORPHAN_ADDR_ADDR = addr.toNat ∧ t.get ⟨0x10014, 16, 1⟩ = 1 ∧ t.ldg = s.ldg ∧ t.kept = s.kept) ∧
    (s.txnState i = .doomed ∨ s.txnState i = .committing → exec (.stagedWrite i addr w) s = .next s) ∧
    (s.txnState i = .opened → (frameBound (blockOf addr.toNat) = true → s.cascadeRefuses i = false) →
      (s.stagedBy addr.toNat = some i.val ∨ s.stagedBy addr.toNat = none ∧ s.stagedUsed < 16384) →
      ∃ t, exec (.stagedWrite i addr w) s = .next t ∧
        Tbl.get (fun _ => none) (t.txn i).staged addr.toNat = some (w &&& rwsMask addr.toNat) ∧
        (∀ b, b ≠ addr.toNat → Tbl.get (fun _ => none) (t.txn i).staged b = Tbl.get (fun _ => none) (s.txn i).staged b) ∧
        (∀ j, j ≠ i.val → t.txn j = s.txn j) ∧ t.regs = s.regs ∧ t.kept = s.kept) ∧
    (s.txnState i = .opened → (frameBound (blockOf addr.toNat) = true → s.cascadeRefuses i = false) →
      ((∃ j, j ≠ i.val ∧ s.stagedBy addr.toNat = some j) ∨ s.stagedBy addr.toNat = none ∧ 16384 ≤ s.stagedUsed) →
      ∃ t, exec (.stagedWrite i addr w) s = .next t ∧ t.txnState i = .doomed ∧ (t.txn i).staged = [] ∧
        t.get (LDG_TXN_STAT_RESULT i) = (if s.stagedBy addr.toNat = none then 5 else 4) ∧ t.get ⟨0x10014, 8 + i, 1⟩ = 1 ∧
        (∀ j, j ≠ i.val → t.txn j = s.txn j) ∧ t.kept = s.kept)

/-- SOFT_RESET and BLOCK_RESET_DONE (R37): SRST reads 1 from the write on; every register of CAP and VOQ takes its reset value, with
RESETTING 1 and RESET_CAUSE bit 3; at the end RESETTING and SRST of every page of the instance read 0. -/
def Obligations.BlockResetTakesAndReleasesItsPages : Prop :=
  (∀ (i : Fin 5) (b : Fin 24) (page : Fin 256) (en : Bool) (s : State), page.val < blockPages b →
    s.reaches i (blockBase b + 0x1000 * page + 8) = true →
    ∃ t, exec (.softReset i b page en) s = .next t ∧ t.get ⟨blockBase b + 0x1000 * page + 8, 1, 1⟩ = 1 ∧ t.outside = s.outside) ∧
  (∀ (i : Fin 5) (b : Fin 24) (en : Bool) (s : State), (b = 9 ∨ b = 14) → s.reaches i (blockBase b + 8) = true →
    (resetPages b 0).any s.resetting = false →
    ∃ t, exec (.softReset i b 0 en) s = .next t ∧
      (∀ pg ∈ resetPages b 0, t.resetting pg = true ∧ t.get ⟨pg + 0x24, 3, 1⟩ = 1 ∧
        ∀ o, 0x80 ≤ o → o < 0x1000 → t.rd (pg + o) = resetWord (pg + o)) ∧
      (b = 9 → t.cap = {}) ∧ t.kept = s.kept) ∧
  (∀ (b : Fin 24) (inst : Fin 64) (s : State), inst.val < blockPages b → (resetPages b inst).any s.resetting = true →
    s.cst.rstPend = none → Tbl.get (fun _ => false) s.hbc.retrain inst.val = false →
    ∃ t, exec (.blockResetDone b inst) s = .next t ∧
      (∀ pg ∈ resetPages b inst, t.resetting pg = false ∧ t.get ⟨pg + 8, 1, 1⟩ = 0) ∧ t.kept = s.kept)

/-! ### 03: the Ledger -/

/-- BEGIN, COMMIT and ROLLBACK (R44, R49, Table 2.7): BEGIN opens an IDLE transaction with nothing staged; COMMIT puts an OPEN one last in the
order of commits, and ends a DOOMED one with its cause; ROLLBACK ends an OPEN or DOOMED one with RESULT 2 and its INT_STAT bit and discards
what it staged; a command that does not fit sets CMD_ERR and changes nothing else. -/
def Obligations.TransactionCommandsFollowTheStates : Prop :=
  ∀ (i : Fin 5) (s : State), s.reaches i (LDG_TXN_CMD i) = true →
    (s.txnState i = .idle →
      ∃ t, exec (.begin i) s = .next t ∧ t.txnState i = .opened ∧ t.get (LDG_TXN_STAT_CMD_ERR i) = 0 ∧ (t.txn i).staged = [] ∧
        (t.txn i).opened = s.now ∧ (∀ j, j ≠ i.val → t.txn j = s.txn j) ∧
        (∀ b, b ≠ LDG_TXN_STAT i → b ≠ LDG_TXN_CONFLICT_ADDR i → t.rd b = s.rd b) ∧ t.kept = s.kept) ∧
    (s.txnState i = .opened → s.role = 0 ∨ s.opensSlot i = false →
      ∃ t, exec (.commit i) s = .next t ∧ t.txnState i = .committing ∧ t.get (LDG_TXN_STAT_CMD_ERR i) = 0 ∧
        t.ldg.order = s.ldg.order ++ [i.val] ∧ (t.txn i).staged = (s.txn i).staged ∧ (t.txn i).phase = .waiting ∧
        (∀ j, j ≠ i.val → t.txn j = s.txn j) ∧ (∀ b, b ≠ LDG_TXN_STAT i → t.rd b = s.rd b) ∧ t.kept = s.kept) ∧
    (s.txnState i = .doomed →
      ∃ t, exec (.commit i) s = .next t ∧ t.txnState i = .idle ∧ t.get (LDG_TXN_STAT_RESULT i) = s.get (LDG_TXN_STAT_RESULT i) ∧
        t.get (LDG_TXN_STAT_CMD_ERR i) = 0 ∧ (∀ j, j ≠ i.val → t.txn j = s.txn j) ∧ (∀ b, b ≠ LDG_TXN_STAT i → t.rd b = s.rd b) ∧
        t.kept = s.kept) ∧
    (s.txnState i = .opened ∨ s.txnState i = .doomed →
      ∃ t, exec (.rollback i) s = .next t ∧ t.txnState i = .idle ∧ t.get (LDG_TXN_STAT_RESULT i) = 2 ∧
        t.get (LDG_TXN_STAT_CMD_ERR i) = 0 ∧ t.get ⟨0x10014, i, 1⟩ = 1 ∧ (t.txn i).staged = [] ∧
        (∀ j, j ≠ i.val → t.txn j = s.txn j) ∧ t.kept = s.kept) ∧
    (s.txnState i ≠ .idle → exec (.begin i) s = .next (s.set (LDG_TXN_STAT_CMD_ERR i) 1)) ∧
    (s.txnState i = .idle ∨ s.txnState i = .committing →
      exec (.commit i) s = .next (s.set (LDG_TXN_STAT_CMD_ERR i) 1) ∧ exec (.rollback i) s = .next (s.set (LDG_TXN_STAT_CMD_ERR i) 1))

/-- TXN_TIMEOUT (R45): a transaction OPEN for longer than its timeout is doomed with RESULT 3 and its words discarded; at a timeout of 0, not
yet past it, or COMMITTING because COMMIT came first, nothing changes. -/
def Obligations.OpenTransactionTimesOut : Prop :=
  ∀ (i : Fin 5) (s : State),
    (s.txnState i = .opened → s.get (LDG_TXN_TIMEOUT_TIMEOUT_US i) ≠ 0 →
      s.get (LDG_TXN_TIMEOUT_TIMEOUT_US i) * 1000 < s.now - (s.txn i).opened →
      ∃ t, exec (.txnTimeout i) s = .next t ∧ t.txnState i = .doomed ∧ t.get (LDG_TXN_STAT_RESULT i) = 3 ∧ (t.txn i).staged = [] ∧
        t.get ⟨0x10014, 8 + i, 1⟩ = 1 ∧ (∀ j, j ≠ i.val → t.txn j = s.txn j) ∧
        (∀ b, b ≠ LDG_TXN_STAT i → b ≠ 0x10014 → t.rd b = s.rd b) ∧ t.kept = s.kept) ∧
    (s.txnState i ≠ .opened ∨ s.get (LDG_TXN_TIMEOUT_TIMEOUT_US i) = 0 ∨
      s.now - (s.txn i).opened ≤ s.get (LDG_TXN_TIMEOUT_TIMEOUT_US i) * 1000 → exec (.txnTimeout i) s = .next s)

/-- COMMIT_GRANT and COMMIT_TIMEOUT (R242, R243): one commit at a time, in the order of the COMMITs, held by a running job; a slot-opening one
takes the lowest-numbered FREE slot with the next epoch or is counted waiting; a commit that waits too long before its grant ends with
RESULT 7 and its words discarded. -/
def Obligations.CommitsAreGrantedInOrder : Prop :=
  (∀ s : State, s.ldg.order = [] ∨ s.committing.isSome = true → exec .commitGrant s = .next s) ∧
  (∀ (i : Fin 5) (r : List Nat) (s : State), s.ldg.order = i.val :: r → s.jobRuns i = true → exec .commitGrant s = .next s) ∧
  (∀ (i : Fin 5) (r : List Nat) (s : State), s.ldg.order = i.val :: r → s.committing = none → s.jobRuns i = false → s.opensSlot i = false →
    ∃ t, exec .commitGrant s = .next t ∧ t.ldg.order = r ∧ (t.txn i).phase = .bound none ∧ (t.txn i).staged = (s.txn i).staged ∧
      (∀ j, j ≠ i.val → t.txn j = s.txn j) ∧ t.regs = s.regs ∧ t.kept = s.kept) ∧
  (∀ (i : Fin 5) (r : List Nat) (k : Fin 16) (s : State), s.ldg.order = i.val :: r → s.committing = none → s.jobRuns i = false →
    s.opensSlot i = true → s.slotState k = .free → (∀ j : Fin 16, j < k → s.slotState j ≠ .free) →
    ∃ t, exec .commitGrant s = .next t ∧ t.ldg.order = r ∧ (t.txn i).phase = .bound (some k.val) ∧ t.slotState k = .binding ∧
      t.epoch k = (s.get LDG_EPOCH_EPOCH + 1) % 2 ^ 32 ∧ (∀ j : Fin 16, j ≠ k → t.slotState j = s.slotState j) ∧
      (∀ j, j ≠ i.val → t.txn j = s.txn j) ∧ t.kept = s.kept) ∧
  (∀ (i : Fin 5) (r : List Nat) (s : State), s.ldg.order = i.val :: r → s.committing = none → s.jobRuns i = false → s.opensSlot i = true →
    (∀ j : Fin 16, s.slotState j ≠ .free) →
    ∃ t, exec .commitGrant s = .next t ∧ t.ldg.order = s.ldg.order ∧ (t.txn i).waited = true ∧
      ((s.txn i).waited = false → t.get LDG_SLOT_WAITS_SLOT_WAITS = min (s.get LDG_SLOT_WAITS_SLOT_WAITS + 1) (2 ^ 32 - 1)) ∧
      ((s.txn i).waited = true → t = s) ∧ (∀ b, b ≠ LDG_SLOT_WAITS → t.rd b = s.rd b) ∧ t.kept = s.kept) ∧
  (∀ (i : Fin 5) (s : State), (s.txn i).phase = .waiting → s.get LDG_COMMIT_TIMEOUT_TIMEOUT_US ≠ 0 →
    s.get LDG_COMMIT_TIMEOUT_TIMEOUT_US * 1000 < s.now - (s.txn i).arrived →
    ∃ t, exec (.commitTimeout i) s = .next t ∧ t.txnState i = .idle ∧ t.get (LDG_TXN_STAT_RESULT i) = 7 ∧ (t.txn i).staged = [] ∧
      t.get ⟨0x10014, 8 + i, 1⟩ = 1 ∧ t.ldg.order = s.ldg.order.filter (fun j => j != i.val) ∧ t.kept = s.kept)

/-- COMMIT_CYCLE (R46), for a commit without a version slot: every staged word reads as its staged bits over the live ones at once, its
block still acting on the word it acted on before; registers that the transaction does not stage stay, but for the Ledger's own and, at the
end of a graph load, those of SEC. -/
def Obligations.CommitCycleMakesStagedWordsLive : Prop :=
  ∀ (i : Fin 5) (s : State), s.committing = some i.val → (s.txn i).phase = .bound none →
    (∀ p ∈ (s.txn i).staged, blockOf p.1 ≠ 1) →
    ∃ t, exec .commitCycle s = .next t ∧
      (∀ a, blockOf a ≠ 1 → blockOf a ≠ 2 → t.rd a =
        (match Tbl.get (fun _ => none) (s.txn i).staged a with | some w => mergeRws (rwsMask a) (s.rd a) w | none => s.rd a)) ∧
      (∀ a w, blockOf a ≠ 2 → Tbl.get (fun _ => none) (s.txn i).staged a = some w → t.act a = s.act a) ∧
      ((∃ p ∈ (s.txn i).staged, blockOf p.1 < 24) → (t.txn i).phase = .switching ∧ t.ldg.switchInit = some i.val ∧
        ∀ p ∈ (s.txn i).staged, blockOf p.1 < 24 → blockOf p.1 ∈ t.ldg.switchWait) ∧
      ((s.txn i).staged = [] → t.txnState i = .idle ∧ t.get (LDG_TXN_STAT_RESULT i) = 1 ∧ t.get ⟨0x10014, i, 1⟩ = 1) ∧
      (∀ j, j ≠ i.val → t.txn j = s.txn j) ∧ t.kept = s.kept

/-- BLOCK_SWITCH (R46): a block that the commit waits for goes over to the committed words of all its registers and is waited for no longer;
with the last one the transaction ends COMMITTED. The blocks named are those whose switching decides nothing further. -/
def Obligations.BlockSwitchGoesOver : Prop :=
  ∀ (b : Fin 24) (s : State), (s.ldg.switchWait.contains b.val = false → exec (.blockSwitch b) s = .next s) ∧
    (s.ldg.switchWait.contains b.val = true → b ≠ 1 → b ≠ 2 → b ≠ 11 → b ≠ 12 → b ≠ 13 → b ≠ 14 → b ≠ 22 → b ≠ 23 →
      ∃ t, exec (.blockSwitch b) s = .next t ∧ (∀ a, blockOf a = b.val → t.act a = s.rd a) ∧
        (∀ a, blockOf a ≠ b.val → blockOf a ≠ 1 → blockOf a ≠ 2 → t.act a = s.act a) ∧
        t.ldg.switchWait = s.ldg.switchWait.filter (fun x => x != b.val) ∧
        (∀ i : Fin 5, s.ldg.switchInit = some i.val → t.ldg.switchWait = [] →
          t.txnState i = .idle ∧ t.get (LDG_TXN_STAT_RESULT i) = 1 ∧ t.get ⟨0x10014, i, 1⟩ = 1 ∧ t.ldg.switchInit = none) ∧
        (t.ldg.switchWait ≠ [] → t.regs = s.regs ∧ t.ldg.txns = s.ldg.txns) ∧ t.kept = s.kept)

/-- SLOT_DRAINED, SLOT_FREED and RETIRE_OLDEST (R249, R250, R251) outside a cascade: a slot without frames becomes SWEEPING when no older one is
live, else DRAINED; a SWEEPING slot becomes FREE; the oldest OLD slot is retired, its PRE moved to RPRE and its generation toggled, or the
command is refused NONE_OLD or GEN_BUSY with nothing else changed. -/
def Obligations.SlotsAreReleasedInOrder : Prop :=
  (∀ (k : Fin 16) (s : State), s.role = 0 → s.slotState k = .old ∨ s.slotState k = .retiring ∨ s.slotState k = .drained →
    s.get (LDG_SLOT_PRE_COUNT k) = 0 → s.get (LDG_SLOT_POST_COUNT k) = 0 →
    ∃ t, exec (.slotDrained k) s = .next t ∧
      ((∀ j : Fin 16, s.live j = true → s.slotBefore j k = false) → t.slotState k = .sweeping) ∧
      ((∃ j : Fin 16, s.live j = true ∧ s.slotBefore j k = true) → t.slotState k = .drained) ∧
      (∀ b, b ≠ LDG_SLOT_STAT k → t.rd b = s.rd b) ∧ t.kept = s.kept) ∧
  (∀ (k : Fin 16) (s : State), s.slotState k = .sweeping →
    ∃ t, exec (.slotFreed k) s = .next t ∧ t.slotState k = .free ∧
      (∀ a, a < 2 ^ 28 → Tbl.get (fun _ => none) t.slotVals (slotKey k a) = none) ∧ t.kept = s.kept) ∧
  (∀ (k : Fin 16) (s : State), s.slotState k ≠ .sweeping → exec (.slotFreed k) s = .next s) ∧
  (∀ (i : Fin 5) (k : Fin 16) (s : State), s.reaches i LDG_SLOT_CMD = true → s.role = 0 → s.oldestLive = k.val →
    (s.slotState k ≠ .old → exec (.retireOldest i) s = .next (s.set LDG_SLOT_CMD_STAT_RESULT 2)) ∧
    (s.slotState k = .old → s.get (LDG_SLOT_RPRE_RPRE k) ≠ 0 →
      exec (.retireOldest i) s = .next (s.set LDG_SLOT_CMD_STAT_RESULT 3)) ∧
    (s.slotState k = .old → s.get (LDG_SLOT_RPRE_RPRE k) = 0 →
      ∃ t, exec (.retireOldest i) s = .next t ∧ t.slotState k = .retiring ∧ t.get (LDG_SLOT_PRE_COUNT k) = 0 ∧
        t.get (LDG_SLOT_RPRE_RPRE k) = s.get (LDG_SLOT_PRE_COUNT k) ∧
        t.get (LDG_SLOT_STAT_GEN k) = 1 - s.get (LDG_SLOT_STAT_GEN k) ∧ t.get LDG_SLOT_CMD_STAT_RESULT = 1 ∧
        t.get LDG_SLOT_CMD_STAT_SLOT = k ∧ (∀ j : Fin 16, j ≠ k → t.slotState j = s.slotState j) ∧ t = { s with regs := t.regs }))

/-! ### 04: version slots and the cascade commit -/

/-- COMMIT_CYCLE of a commit that opened a slot (R245): the new slot becomes CURRENT, the previous current one OLD, LDG_EPOCH and the
initiator's LDG_TXN_EPOCH take the new epoch and the words of each frame-bound block are still to switch; without a granted commit nothing happens. -/
def Obligations.SlotCommitAdvancesTheEpoch : Prop :=
  (∀ s : State, s.committing = none → exec .commitCycle s = .next s) ∧
  (∀ (i : Fin 5) (k c : Fin 16) (s : State), s.committing = some i.val → (s.txn i).phase = .bound (some k.val) →
    (∀ p ∈ (s.txn i).staged, blockOf p.1 ≠ 1) → s.slotState k = .binding → s.newest = c.val → c ≠ k →
      ∃ t, exec .commitCycle s = .next t ∧ t.slotState k = .current ∧ t.slotState c = .old ∧ t.get LDG_EPOCH_EPOCH = s.epoch k ∧
        t.get (LDG_TXN_EPOCH_EPOCH i) = s.epoch k ∧ (∀ j : Fin 16, j ≠ k → j ≠ c → t.slotState j = s.slotState j) ∧
        (∀ j : Fin 16, t.epoch j = s.epoch j) ∧ (t.txn i).phase = .switching ∧ t.ldg.switchInit = some i.val ∧
        (∀ b, b < 24 → frameBound b = true → b ∈ t.ldg.switchWait) ∧ (∀ j, j ≠ i.val → t.txn j = s.txn j) ∧ t.kept = s.kept)

/-- CC_PREPARE, READY_MESSAGE, CC_ABORT and CC_PREP_TIMEOUT on the master (R255–R257), with other participating devices: PREPARE goes to each of
them with the lowest FREE slot and the next epoch and the own slot is PREPARED; GO follows the last READY with T_c; a refusal of its own or
of another, an abort and the timeout end with their RESULT and an ABORT. -/
def Obligations.MasterRunsTheCascadeCommit : Prop :=
  (∀ (i : Fin 5) (s : State), s.reaches i LDG_CC_CMD = true →
    (s.role ≠ 1 ∨ s.get LDG_CC_STAT_PHASE ≠ 0 → exec (.ccPrepare i) s = .next s) ∧
    (s.role ≠ 1 ∨ s.get LDG_CC_STAT_PHASE ≠ 1 → exec (.ccAbort i) s = .next s)) ∧
  (∀ (i : Fin 5) (k : Fin 16) (s : State), s.reaches i LDG_CC_CMD = true → s.role = 1 → s.get LDG_CC_STAT_PHASE = 0 → s.ccOthers ≠ [] →
    s.slotState k = .free → (∀ j : Fin 16, j < k → s.slotState j ≠ .free) →
    (s.txnState 2 = .opened → s.jobRuns 2 = false →
      ∃ t, exec (.ccPrepare i) s = .next t ∧ t.get LDG_CC_STAT_PHASE = 1 ∧ t.get LDG_CC_STAT_SLOT = k ∧
        t.get LDG_CC_EPOCH_EPOCH = (s.get LDG_EPOCH_EPOCH + 1) % 2 ^ 32 ∧ t.slotState k = .prepared ∧
        t.epoch k = (s.get LDG_EPOCH_EPOCH + 1) % 2 ^ 32 ∧ t.txnState 2 = .committing ∧ (t.txn 2).phase = .bound (some k.val) ∧
        t.ldg.cc.ready = [s.ownDev] ∧
        t.cly.ctrl = s.cly.ctrl ++ s.ccOthers.map (fun d =>
          (d, bytesAt ([5] ++ leBytes 3 k ++ leBytes 4 ((s.get LDG_EPOCH_EPOCH + 1) % 2 ^ 32)) 0 16)) ∧
        (∀ j : Fin 16, j ≠ k → t.slotState j = s.slotState j) ∧ t.kept = s.kept) ∧
    (s.txnState 2 ≠ .opened →
      ∃ t, exec (.ccPrepare i) s = .next t ∧ t.get LDG_CC_STAT_PHASE = 2 ∧ t.get LDG_CC_STAT_RESULT = 2 ∧
        t.get LDG_CC_STAT_REF_DEV = s.ownDev ∧ t.get LDG_CC_STAT_REF_CAUSE = 1 ∧ t.ldg.cc.abortSent = true ∧
        (∀ j : Fin 16, t.slotState j = s.slotState j) ∧ t.kept = s.kept)) ∧
  (∀ (m : CtlMsg) (r : List CtlMsg) (s : State), s.cly.inbox = m :: r → byteAt m.b 0 = 6 →
    (s.get LDG_CC_STAT_PHASE ≠ 1 ∨ byteAt m.b 1 ≠ s.ccSlot →
      exec .readyMessage s = .next { s with cly := { s.cly with inbox := r } }) ∧
    (s.get LDG_CC_STAT_PHASE = 1 → byteAt m.b 1 = s.ccSlot → byteAt m.b 2 = 0 →
      (∃ d ∈ s.ownDev :: s.ccOthers, d ≠ m.src ∧ d ∉ s.ldg.cc.ready) →
      ∃ t, exec .readyMessage s = .next t ∧ t.ldg.cc.ready = m.src :: s.ldg.cc.ready ∧ t.regs = s.regs ∧ t.cly.inbox = r ∧ t.kept = s.kept) ∧
    (s.get LDG_CC_STAT_PHASE = 1 → byteAt m.b 1 = s.ccSlot → byteAt m.b 2 = 0 → s.ldg.cc.goPend = false →
      s.get CLY_CKPT_STBY_EN = 0 → (∀ d ∈ s.ownDev :: s.ccOthers, d = m.src ∨ d ∈ s.ldg.cc.ready) →
      ∃ t, exec .readyMessage s = .next t ∧ t.get LDG_CC_STAT_PHASE = 3 ∧ t.ldg.cc.goSent = true ∧
        t.get LDG_CC_TIME_LO_TIME = (s.tbNs + max 1 (s.get LDG_CC_CFG_LEAD_US) * 1000) % 1000000000 ∧
        t.get LDG_CC_TIME_HI_TIME = (s.tbNs + max 1 (s.get LDG_CC_CFG_LEAD_US) * 1000) / 1000000000 % 2 ^ 32 ∧
        (t.cly.ctrl.drop s.cly.ctrl.length).map (fun p => p.1) = s.ccOthers ∧
        (∀ j : Fin 16, t.slotState j = s.slotState j) ∧ t.cly.inbox = r ∧ t.kept = s.kept) ∧
    (s.get LDG_CC_STAT_PHASE = 1 → byteAt m.b 1 = s.ccSlot → byteAt m.b 2 ≠ 0 → m.src < 2048 → s.ccOthers ≠ [] →
      ∃ t, exec .readyMessage s = .next t ∧ t.get LDG_CC_STAT_PHASE = 2 ∧ t.get LDG_CC_STAT_RESULT = 2 ∧
        t.get LDG_CC_STAT_REF_DEV = m.src ∧ t.get LDG_CC_STAT_REF_CAUSE = byteAt m.b 2 % 4 ∧ t.ldg.cc.abortSent = true ∧
        t.cly.inbox = r ∧ t.kept = s.kept)) ∧
  (∀ (i : Fin 5) (s : State), s.reaches i LDG_CC_CMD = true → s.role = 1 → s.get LDG_CC_STAT_PHASE = 1 → s.ccOthers ≠ [] →
    ∃ t, exec (.ccAbort i) s = .next t ∧ t.get LDG_CC_STAT_PHASE = 2 ∧ t.get LDG_CC_STAT_RESULT = 4 ∧ t.ldg.cc.abortSent = true ∧
      (s.ccPrepared s.ccSlot (s.get LDG_CC_EPOCH_EPOCH) = true →
        t.slotState s.ccSlot = .prepared ∧ t.txnState 2 = .idle ∧ t.get (LDG_TXN_STAT_RESULT 2) = 2) ∧ t.kept = s.kept) ∧
  (∀ s : State, (s.role = 1 → s.get LDG_CC_STAT_PHASE = 1 → s.ldg.cc.goPend = false → s.ccOthers ≠ [] →
      max 1 (s.get LDG_CC_PREP_TO_TIMEOUT_US) * 1000 ≤ s.now - s.ldg.cc.started →
      ∃ t, exec .ccPrepTimeout s = .next t ∧ t.get LDG_CC_STAT_PHASE = 2 ∧ t.get LDG_CC_STAT_RESULT = 3 ∧
        t.get ⟨0x10010, 1, 1⟩ = 1 ∧ t.ldg.cc.abortSent = true ∧ t.kept = s.kept) ∧
    (s.role ≠ 1 ∨ s.get LDG_CC_STAT_PHASE ≠ 1 ∨ s.now - s.ldg.cc.started < max 1 (s.get LDG_CC_PREP_TO_TIMEOUT_US) * 1000 →
      exec .ccPrepTimeout s = .next s))

/-- CC_COMMIT_TIME and GO_MESSAGE (R256, R361): a GO stores the commit time; when the time base has reached it the PREPARED slot becomes CURRENT
and LDG_EPOCH takes the cascade epoch; before, and while nothing is due, nothing changes. A GO from a device that is not the accepted master
is discarded and REJ rises; a completed epoch is answered with DONE. -/
def Obligations.GoCommitsThePreparedSlot : Prop :=
  (∀ (c k : Fin 16) (s : State), s.ldg.cc.retireAt = none → s.ccSlot = k.val → (∀ p ∈ (s.txn 2).staged, blockOf p.1 ≠ 1) →
    (s.ccDue = false → exec .ccCommitTime s = .next s) ∧
    (s.ccDue = true → s.newest = c.val → c ≠ k →
      ∃ t, exec .ccCommitTime s = .next t ∧ t.slotState k = .current ∧ t.slotState c = .old ∧
        t.get LDG_EPOCH_EPOCH = s.get LDG_CC_EPOCH_EPOCH ∧ t.get LDG_CC_STAT_RESULT = 1 ∧ t.kept = s.kept)) ∧
  (∀ (w : Nat) (s : State), s.ldg.cc.retireAt = some w → w ≤ s.tbNs → s.slotState s.oldestLive = .old →
    s.get (LDG_SLOT_RPRE_RPRE s.oldestLive) = 0 → s.role ≠ 2 → s.oldestLive < 16 →
    ∃ t, exec .ccCommitTime s = .next t ∧ t.slotState s.oldestLive = .retiring ∧ t.get (LDG_SLOT_PRE_COUNT s.oldestLive) = 0 ∧
      t.get (LDG_SLOT_RPRE_RPRE s.oldestLive) = s.get (LDG_SLOT_PRE_COUNT s.oldestLive) ∧ t.ldg.cc.retireAt = none ∧
      t = { s with
        regs := t.regs
        ldg := t.ldg }) ∧
  (∀ (m : CtlMsg) (r : List CtlMsg) (s : State), s.cly.inbox = m :: r → byteAt m.b 0 = 7 →
    (s.fromMaster m.src = false → ∃ t, exec .goMessage s = .next t ∧
      t.get CLY_REJ_REJ = min (s.get CLY_REJ_REJ + 1) (2 ^ CLY_REJ_REJ.w - 1) ∧ t.ldg = s.ldg ∧ t.cly.inbox = r ∧
      (∀ b, b ≠ CLY_REJ → b ≠ clyPage + 0x14 → t.rd b = s.rd b) ∧ t.kept = s.kept) ∧
    (s.fromMaster m.src = true → s.ccPrepared (byteAt m.b 1 % 16) (m.num 4 4) = true → s.get LDG_CC_STAT_PHASE ≠ 3 →
      s.reached (m.num 12 4) (m.num 8 4) = false →
      ∃ t, exec .goMessage s = .next t ∧ t.get LDG_CC_STAT_PHASE = 3 ∧ t.get LDG_CC_TIME_LO_TIME = m.num 8 4 ∧
        t.get LDG_CC_TIME_HI_TIME = m.num 12 4 ∧ (∀ j : Fin 16, t.slotState j = s.slotState j) ∧ t.cly.inbox = r ∧ t.kept = s.kept) ∧
    (s.fromMaster m.src = true → s.ccPrepared (byteAt m.b 1 % 16) (m.num 4 4) = false → s.get LDG_CC_EPOCH_EPOCH = m.num 4 4 →
      s.get LDG_CC_STAT_RESULT = 1 →
      ∃ t, exec .goMessage s = .next t ∧ t.regs = s.regs ∧ t.ldg = s.ldg ∧
        t.cly.ctrl = s.cly.ctrl ++
          [(m.src, bytesAt ([9] ++ leBytes 1 (byteAt m.b 1 % 16) ++ leBytes 2 1 ++ leBytes 4 (m.num 4 4)) 0 16)] ∧
        t.cly.inbox = r ∧ t.kept = s.kept))

/-- PREPARE_MESSAGE, ABORT_MESSAGE, RELEASE_MESSAGE, DONE_MESSAGE, DRAIN_MESSAGE, GO_REPEAT and SLOT_DRAINED on the devices of a cascade
(R255, R257, R258, R361): a member prepares, undoes and sweeps on the word of the accepted master alone and answers it; the master notes the
answers and the reports and repeats GO and ABORT to the devices that have not answered. -/
def Obligations.MembersFollowTheMaster : Prop :=
  (∀ (m : CtlMsg) (r : List CtlMsg) (s : State), s.cly.inbox = m :: r → byteAt m.b 0 = 5 → s.fromMaster m.src = true →
    (s.txnState 2 = .opened → s.slotState (byteAt m.b 1 % 16) = .free → s.jobRuns 2 = false →
      ∃ t, exec .prepareMessage s = .next t ∧ t.slotState (byteAt m.b 1 % 16) = .prepared ∧ t.epoch (byteAt m.b 1 % 16) = m.num 4 4 ∧
        t.txnState 2 = .committing ∧ (t.txn 2).phase = .bound (some (byteAt m.b 1 % 16)) ∧ t.get LDG_CC_STAT_PHASE = 2 ∧
        t.cly.ctrl = s.cly.ctrl ++ [(m.src, bytesAt ([6] ++ leBytes 1 (byteAt m.b 1) ++ leBytes 1 0) 0 16)] ∧ t.cly.inbox = r ∧
        t.kept = s.kept) ∧
    (∀ c, c = (if s.txnState 2 ≠ .opened then 1 else if s.slotState (byteAt m.b 1 % 16) ≠ .free then 2 else if s.jobRuns 2 = true then 3 else 0) →
      c ≠ 0 → ∃ t, exec .prepareMessage s = .next t ∧ t.regs = s.regs ∧ t.ldg = s.ldg ∧
        t.cly.ctrl = s.cly.ctrl ++ [(m.src, bytesAt ([6] ++ leBytes 1 (byteAt m.b 1) ++ leBytes 1 c) 0 16)] ∧ t.cly.inbox = r ∧
        t.kept = s.kept)) ∧
  (∀ (m : CtlMsg) (r : List CtlMsg) (s : State), s.cly.inbox = m :: r → byteAt m.b 0 = 8 → s.fromMaster m.src = true →
    s.ccPrepared (byteAt m.b 1 % 16) (m.num 4 4) = true →
      ∃ t, exec .abortMessage s = .next t ∧ t.slotState (byteAt m.b 1 % 16) = .free ∧ t.txnState 2 = .idle ∧
        t.get (LDG_TXN_STAT_RESULT 2) = 2 ∧ t.get LDG_CC_STAT_PHASE = 0 ∧ (t.txn 2).staged = [] ∧
        t.cly.ctrl = s.cly.ctrl ++ [(m.src, bytesAt ([9] ++ leBytes 3 (byteAt m.b 1 % 16) ++ leBytes 4 (m.num 4 4)) 0 16)] ∧
        t.cly.inbox = r ∧ t.kept = s.kept) ∧
  (∀ (m : CtlMsg) (r : List CtlMsg) (s : State), s.cly.inbox = m :: r → byteAt m.b 0 = 11 →
    (s.fromMaster m.src = false → ∃ t, exec .releaseMessage s = .next t ∧ t.ldg = s.ldg ∧
      (∀ b, b ≠ CLY_REJ → b ≠ clyPage + 0x14 → t.rd b = s.rd b) ∧ t.kept = s.kept) ∧
    (s.fromMaster m.src = true → ∃ t, exec .releaseMessage s = .next t ∧ t.cly.inbox = r ∧ t.kept = s.kept ∧
      ∀ j : Fin 16, t.slotState j = (if bit (m.num 1 2) j = true ∧ s.empty j = true then .sweeping else s.slotState j))) ∧
  (∀ (m : CtlMsg) (r : List CtlMsg) (s : State), s.cly.inbox = m :: r →
    (byteAt m.b 0 = 9 → m.num 4 4 ≠ s.get LDG_CC_EPOCH_EPOCH →
      exec .doneMessage s = .next { s with cly := { s.cly with inbox := r } }) ∧
    (byteAt m.b 0 = 9 → m.num 4 4 = s.get LDG_CC_EPOCH_EPOCH →
      ∃ t, exec .doneMessage s = .next t ∧ t.ldg.cc.doneDev = m.src :: s.ldg.cc.doneDev ∧ t.cly.inbox = r ∧ t.kept = s.kept) ∧
    (byteAt m.b 0 = 10 → s.role ≠ 1 →
      ∃ t, exec .drainMessage s = .next t ∧ (m.src, m.num 1 2) ∈ t.ldg.cc.drained ∧ (∀ v, (m.src, v) ∈ t.ldg.cc.drained → v = m.num 1 2) ∧
        t.regs = s.regs ∧ t.cly.inbox = r ∧ t.kept = s.kept)) ∧
  (∀ s : State, (s.ldg.cc.goSent = false → s.ldg.cc.abortSent = false → exec .goRepeat s = .next s) ∧
    (s.now - s.ldg.cc.lastSent < 100000 → exec .goRepeat s = .next s) ∧
    (s.ldg.cc.goSent = true ∨ s.ldg.cc.abortSent = true → 100000 ≤ s.now - s.ldg.cc.lastSent →
      ∃ t, exec .goRepeat s = .next t ∧ t.ldg.cc.lastSent = s.now ∧ t.kept = s.kept ∧
        (t.cly.ctrl.drop s.cly.ctrl.length).map (fun p => p.1) = s.ccOthers.filter (fun d => !s.ldg.cc.doneDev.contains d))) ∧
  (∀ (k : Fin 16) (s : State), s.role = 2 → s.get CLY_MST_STAT_VALID = 1 → s.emptyMask ≠ s.ldg.cc.sentMask →
    ∃ t, exec (.slotDrained k) s = .next t ∧ t.regs = s.regs ∧ t.ldg.cc.sentMask = s.emptyMask ∧
      t.cly.ctrl = s.cly.ctrl ++ [(s.get CLY_MST_STAT_MASTER, bytesAt ([10] ++ leBytes 2 s.emptyMask) 0 16)] ∧ t.kept = s.kept)

/-! ### 05: cascade links, cells and their order -/

/-- LINK_TRAINED, HELLO_SEND, HELLO_RECEIVE, LINK_DOWN, LINK_PING, PING_MESSAGE, PONG_MESSAGE, STOP_MESSAGE and GO_CELLS_MESSAGE (R347, R358, R360): a
trained link is ALIGNED; the third good HELLO in a row from another device makes it UP and its own ID sets LOOP; lost lock, or 30 µs without
a HELLO, takes it DOWN; STOP and GO set and end STOPPED; a PING is answered; a PONG gives the delay. -/
def Obligations.LinksComeUpAndGoDown : Prop :=
  (∀ (l : Fin 256) (s : State),
    (s.get (CLY_LINK_CFG_EN (l / 32) (l % 32)) = 1 → s.portMode l = 9 → s.cfg (ctlEn clyPage) = 1 → s.safe = false → s.linkState l < 2 →
      ∃ t, exec (.linkTrained l) s = .next t ∧ t.linkState l = 2 ∧ (t.lnk l).good = 0 ∧ t.kept = s.kept) ∧
    (s.get (CLY_LINK_CFG_EN (l / 32) (l % 32)) = 0 ∨ s.safe = true ∨ 2 ≤ s.linkState l → exec (.linkTrained l) s = .next s) ∧
    (2 ≤ s.linkState l → ∃ t, exec (.helloSend l) s = .next t ∧ (t.lnk l).msgs = (s.lnk l).msgs ++
      [bytesAt ([1] ++ leBytes 2 (s.get CLY_ID_DEV_ID) ++ leBytes 1 (s.get CLY_ID_FABRIC + 2 * s.get CLY_ID_PLANE)) 0 16] ∧
      t.regs = s.regs ∧ t.kept = s.kept) ∧
    (∀ lost, lost = true ∨ s.linkState l = 3 ∧ 30000 ≤ s.now - (s.lnk l).helloAt → s.linkState l ≠ 0 →
      ∃ t, exec (.linkDown l lost) s = .next t ∧ t.linkState l = 0 ∧ (t.lnk l).good = 0 ∧ (t.lnk l).msgs = [] ∧
        t.get ⟨0xB0014, 0, 1⟩ = 1 ∧ (s.linkState l = 3 → t.get (CLY_LINK_STAT_STOPPED (l / 32) (l % 32)) = 0) ∧ t.kept = s.kept) ∧
    (s.linkState l ≠ 3 ∨ s.now - (s.lnk l).helloAt < 30000 → exec (.linkDown l false) s = .next s) ∧
    (2 ≤ s.linkState l → ∃ t, exec (.linkPing l) s = .next t ∧ (t.lnk l).pingAt = some s.now ∧
      (t.lnk l).msgs.length = (s.lnk l).msgs.length + 1 ∧ t.regs = s.regs ∧ t.kept = s.kept)) ∧
  (∀ (l : Fin 256) (b : List Byte) (r : List (Nat × List Byte)) (s : State), s.cly.linkIn = (l.val, b) :: r →
    (byteAt b 0 = 1 → 2 ≤ s.linkState l → leNat (bytesAt b 1 2) % 2048 = s.ownDev →
      ∃ t, exec .helloReceive s = .next t ∧ t.get (CLY_LINK_STAT_LOOP (l / 32) (l % 32)) = 1 ∧ t.linkState l = s.linkState l ∧
        (t.lnk l).good = 0 ∧ t.cly.linkIn = r ∧ t.kept = s.kept) ∧
    (byteAt b 0 = 1 → 2 ≤ s.linkState l → leNat (bytesAt b 1 2) % 2048 ≠ s.ownDev →
      ∃ t, exec .helloReceive s = .next t ∧ t.get (CLY_LINK_STAT_LOOP (l / 32) (l % 32)) = 0 ∧
        t.get (CLY_LINK_STAT_FAR_DEV (l / 32) (l % 32)) = leNat (bytesAt b 1 2) % 2048 ∧ (t.lnk l).good = (s.lnk l).good + 1 ∧
        t.linkState l = (if 2 ≤ (s.lnk l).good then 3 else s.linkState l) ∧ t.cly.linkIn = r ∧ t.kept = s.kept) ∧
    (byteAt b 0 = 2 → ∃ t, exec .stopMessage s = .next t ∧ t.get (CLY_LINK_STAT_STOPPED (l / 32) (l % 32)) = 1 ∧
      (∀ a, a ≠ CLY_LINK_STAT (l / 32) (l % 32) → t.rd a = s.rd a) ∧ t.cly.linkIn = r ∧ t.kept = s.kept) ∧
    (byteAt b 0 = 3 → ∃ t, exec .goCellsMessage s = .next t ∧ t.get (CLY_LINK_STAT_STOPPED (l / 32) (l % 32)) = 0 ∧
      (∀ a, a ≠ CLY_LINK_STAT (l / 32) (l % 32) → t.rd a = s.rd a) ∧ t.cly.linkIn = r ∧ t.kept = s.kept) ∧
    (byteAt b 0 = 4 → ∃ t, exec .pingMessage s = .next t ∧ (t.lnk l).msgs.length = (s.lnk l).msgs.length + 1 ∧
      ((t.lnk l).msgs.getLast?.map fun m => byteAt m 0) = some 5 ∧ t.regs = s.regs ∧ t.cly.linkIn = r ∧ t.kept = s.kept) ∧
    (∀ (turn p : Nat), byteAt b 0 = 5 → (s.lnk l).pingAt = some p → (((s.now - p) * 256 - turn) / 2) < 2 ^ 24 →
      ∃ t, exec (.pongMessage turn) s = .next t ∧ t.get (CLY_LINK_DLY_DLY (l / 32) (l % 32)) = ((s.now - p) * 256 - turn) / 2 ∧
        (∀ a, a ≠ CLY_LINK_DLY (l / 32) (l % 32) → t.rd a = s.rd a) ∧ (t.lnk l).pingAt = none ∧ t.cly.linkIn = r ∧ t.kept = s.kept))

/-- CELL_SEND and CELL_RECEIVE (R350, R351, R355, R358), where nothing waits to be cut: LINK cells leave first, then CTRL and CKPT cells, and no DATA
cell on a stopped link. A received cell with a bad header check is counted and discarded; a cell of this device is held in its context, or
counted as a duplicate or as stale. -/
def Obligations.CellsAreSentAndChecked : Prop :=
  (∀ (l : Fin 256) (s : State), s.cly.ctrl = [] → s.cly.txq = [] →
    (∀ m r, (s.lnk l).msgs = m :: r → 2 ≤ s.linkState l →
      ∃ t, exec (.cellSend l) s = .next t ∧ (t.lnk l).msgs = r ∧ (t.lnk l).cells = (s.lnk l).cells ∧
        t.cly.out.length = s.cly.out.length + 1 ∧ (∀ k, k ≠ l.val → t.lnk k = s.lnk k) ∧
        t.get (CLY_LINK_CELLS_TX_CELLS_TX (l / 32) (l % 32)) =
          min (s.get (CLY_LINK_CELLS_TX_CELLS_TX (l / 32) (l % 32)) + 1) (2 ^ 32 - 1) ∧ t.kept = s.kept) ∧
    (∀ c q, (s.lnk l).msgs = [] → s.linkState l = 3 → (s.lnk l).cells = c :: q → c.type = 4 →
      ∃ t, exec (.cellSend l) s = .next t ∧ (t.lnk l).cells = q ∧ t.cly.out = s.cly.out ++ [(l.val, c.bytes)] ∧ t.kept = s.kept) ∧
    ((s.lnk l).msgs = [] → (∀ c ∈ (s.lnk l).cells, c.type = 1) → s.get (CLY_LINK_STAT_STOPPED (l / 32) (l % 32)) = 1 →
      exec (.cellSend l) s = .next s)) ∧
  (∀ (l : Fin 256) (b : List Byte) (e : CErr) (s : State), s.safe = true ∨ s.linkState l < 2 → exec (.cellReceive l b e) s = .next s) ∧
  (∀ (l : Fin 256) (b : List Byte) (e : CErr) (s : State), s.safe = false → s.linkState l = 3 → byteAt b 15 ≠ hcrc (bytesAt b 0 15) →
    ∃ t, exec (.cellReceive l b e) s = .next t ∧
      t.get (CLY_LINK_ERR_HCRC_ERR (l / 32) (l % 32)) = min (s.get (CLY_LINK_ERR_HCRC_ERR (l / 32) (l % 32)) + 1) (2 ^ 16 - 1) ∧
      t.cly = s.cly ∧ t.kept = s.kept) ∧
  (∀ (l : Fin 256) (b : List Byte) (k : Nat) (s : State), s.safe = false → s.linkState l = 3 → byteAt b 15 = hcrc (bytesAt b 0 15) →
    (cellOf b).type = 1 → bits (beNat (bytesAt b 0 16)) 8 32 = pcrc (cellOf b).len (cellOf b).payload → s.dataStaged < 64512 →
    (cellOf b).dst = s.ownDev → k = ctxKeyOf (cellOf b) →
    ((∃ h ∈ (s.ctxOf k).held, h.seq = (cellOf b).seq) → (cellOf b).eof = false →
      ∃ t, exec (.cellReceive l b .good) s = .next t ∧ t.cly.ctx = s.cly.ctx ∧
        t.get CLY_DUP_CELLS_DUP_CELLS = min (s.get CLY_DUP_CELLS_DUP_CELLS + 1) (2 ^ 32 - 1) ∧ t.kept = s.kept) ∧
    (∀ n, (s.ctxOf k).n = some n → (∀ h ∈ (s.ctxOf k).held, h.seq ≠ (cellOf b).seq ∧ h.seq ≠ n) → n < 2 ^ 32 →
      (0 < ((cellOf b).seq + 2 ^ 32 - n) % 2 ^ 32 → ((cellOf b).seq + 2 ^ 32 - n) % 2 ^ 32 < 65536 →
        ∃ t, exec (.cellReceive l b .good) s = .next t ∧ (t.ctxOf k).n = some n ∧
          (t.ctxOf k).held.map (fun c => c.seq) = (s.ctxOf k).held.map (fun c => c.seq) ++ [(cellOf b).seq] ∧ t.kept = s.kept) ∧
      (2 ^ 31 ≤ ((cellOf b).seq + 2 ^ 32 - n) % 2 ^ 32 → 65536 ≤ (n + 2 ^ 32 - (cellOf b).seq) % 2 ^ 32 →
        ∃ t, exec (.cellReceive l b .good) s = .next t ∧ t.cly.ctx = s.cly.ctx ∧
          t.get CLY_STALE_CELLS_STALE_CELLS = min (s.get CLY_STALE_CELLS_STALE_CELLS + 1) (2 ^ 32 - 1) ∧ t.kept = s.kept)))

/-- REORDER_SKIP, CONTEXT_START, ACK_SEND, ACK_MESSAGE, REPORT_REFRESH, REPORT_MESSAGE, CREDIT_MESSAGE, REACH_WRITE and REACH_READ (R350, R355–R357,
R359): a missing number is skipped after REORD_US; a new context starts at what it holds; each changed context is acknowledged, and an
acknowledgement ends the records it covers; reports set and clear request bits, credits raise balances; the reach table is written and read. -/
def Obligations.ContextsReportsAndReach : Prop :=
  (∀ (src : Fin 2048) (cls : Fin 9) (n w : Nat) (s : State), (s.ctxOf (16 * src + cls)).n = some n →
    (s.ctxOf (16 * src + cls)).since = some w →
    (s.now - w < s.reordUs * 1000 → exec (.reorderSkip src cls) s = .next s) ∧
    (s.reordUs * 1000 ≤ s.now - w → (s.ctxOf (16 * src + cls)).build = none →
      (∀ h ∈ (s.ctxOf (16 * src + cls)).held, h.seq ≠ (n + 1) % 2 ^ 32) →
      ∃ t, exec (.reorderSkip src cls) s = .next t ∧ (t.ctxOf (16 * src + cls)).n = some ((n + 1) % 2 ^ 32) ∧
        t.get CLY_SKIPS_SKIPS = min (s.get CLY_SKIPS_SKIPS + 1) (2 ^ 32 - 1) ∧
        (t.ctxOf (16 * src + cls)).held = (s.ctxOf (16 * src + cls)).held ∧ t.kept = s.kept)) ∧
  (∀ (src : Fin 2048) (cls : Fin 9) (w : Nat) (c : Cell) (s : State), (s.ctxOf (16 * src + cls)).n = none →
    (s.ctxOf (16 * src + cls)).since = some w → (s.ctxOf (16 * src + cls)).held = [c] → c.type = 2 → c.bad = false →
    (s.now - w < s.reordUs * 1000 → exec (.contextStart src cls) s = .next s) ∧
    (s.reordUs * 1000 ≤ s.now - w →
      ∃ t, exec (.contextStart src cls) s = .next t ∧ (t.ctxOf (16 * src + cls)).n = some ((c.seq + 1) % 2 ^ 32) ∧
        (t.ctxOf (16 * src + cls)).held = [] ∧ t.cly.inbox = s.cly.inbox ++ cellMsgs c ∧ t.kept = s.kept)) ∧
  (∀ s : State, ∃ t, exec .ackSend s = .next t ∧ t.regs = s.regs ∧ t.cly.inbox = s.cly.inbox ∧ t.kept = s.kept ∧
    (t.cly.ctrl.drop s.cly.ctrl.length).map (fun p => p.1) = (s.cly.ctx.filter fun p => p.2.changed).map (fun p => p.1 / 16)) ∧
  (∀ (m : CtlMsg) (r : List CtlMsg) (s : State), s.cly.inbox = m :: r →
    (byteAt m.b 0 = 3 → ∃ t, exec .ackMessage s = .next t ∧ t.cly.inbox = r ∧ t.kept = s.kept ∧
      t.cly.transit = s.cly.transit.filter (fun x =>
        !(x.dst == m.src && x.cls == byteAt m.b 1 && (x.seq == m.num 4 4 || precedes x.seq (m.num 4 4))))) ∧
    (byteAt m.b 0 = 1 → ∃ t, exec .reportMessage s = .next t ∧
      Tbl.get (fun _ => none) t.sch.flows (flowKey m.src (m.num 1 2 % 512) (byteAt m.b 3 % 8)) =
        (if bit (byteAt m.b 4) 0 then some s.now else none) ∧
      (∀ k, k ≠ flowKey m.src (m.num 1 2 % 512) (byteAt m.b 3 % 8) →
        Tbl.get (fun _ => none) t.sch.flows k = Tbl.get (fun _ => none) s.sch.flows k) ∧
      t = { s with
        cly := { s.cly with inbox := r }
        sch := t.sch }) ∧
    (byteAt m.b 0 = 2 → s.voqOfFlow m.src (m.num 1 2 % 512) (byteAt m.b 3 % 8) = none →
      ∃ t, exec .creditMessage s = .next t ∧ t.voq = s.voq ∧ t.cly.inbox = r ∧
        t.get CLY_CR_NODEST_CR_NODEST = min (s.get CLY_CR_NODEST_CR_NODEST + 1) (2 ^ 32 - 1) ∧ t.kept = s.kept) ∧
    (∀ v, byteAt m.b 0 = 2 → s.voqOfFlow m.src (m.num 1 2 % 512) (byteAt m.b 3 % 8) = some v →
      ∃ t, exec .creditMessage s = .next t ∧ t.regs = s.regs ∧ t.cly.inbox = r ∧ t.kept = s.kept ∧
        t.balance v = (if s.voqQ v = [] then s.balance v else s.balance v + (byteAt m.b 4 * 1024 : Nat)) ∧
        (∀ x, x ≠ v → t.balance x = s.balance x))) ∧
  (∀ (v : Fin 131072) (s : State),
    (s.voqDest v = none → exec (.reportRefresh v) s = .next s) ∧
    (∀ d, s.voqDest v = some d → d.dev ≠ s.ownDev → s.voqQ v ≠ [] → 50000 ≤ s.now - Tbl.get (fun _ => 0) s.voq.reportAt v →
      ∃ t, exec (.reportRefresh v) s = .next t ∧ Tbl.get (fun _ => 0) t.voq.reportAt v = s.now ∧ t.regs = s.regs ∧
        t.cly.ctrl = s.cly.ctrl ++ [(d.dev, bytesAt ([1] ++ leBytes 2 d.port ++ leBytes 1 d.cls ++ leBytes 1 1) 0 16)] ∧
        t.kept = s.kept)) ∧
  (∀ (i : Fin 5) (s : State), s.reaches i CLY_RCH_CMD = true →
    (∃ t, exec (.reachWrite i) s = .next t ∧
      (∀ w : Fin 8, (t.reach (s.get CLY_RCH_DEV_DEV)).toNat / 2 ^ (32 * w.val) % 2 ^ 32 = s.get (CLY_RCH_DATA_DATA w)) ∧
      (∀ d, d ≠ s.get CLY_RCH_DEV_DEV → t.reach d = s.reach d) ∧ t = { s with cly := t.cly }) ∧
    (∃ t, exec (.reachRead i) s = .next t ∧
      (∀ w : Fin 8, t.get (CLY_RCH_DATA_DATA w) = (s.reach (s.get CLY_RCH_DEV_DEV)).toNat / 2 ^ (32 * w.val) % 2 ^ 32) ∧
      (∀ a, (∀ w : Fin 8, a ≠ CLY_RCH_DATA w) → t.rd a = s.rd a) ∧ t = { s with regs := t.regs }))

/-! ### 06: remote accesses, the master and its standby -/

/-- REMOTE_WRITE, REMOTE_READ, REMOTE_RESEND, REGACK_MESSAGE, REGWR_MESSAGE and REGRD_MESSAGE (R361, R362): one access at a time, on the master
alone, sent up to four times 50 µs apart and ended by its REGACK or TIMEOUT; the target acts for the accepted master as initiator 2 and
answers a repeated TAG with the same REGACK without a second access. -/
def Obligations.RemoteAccessesAreAcknowledged : Prop :=
  (∀ (i : Fin 5) (s : State), s.reaches i CLY_RW_CMD = true →
    (s.get CLY_RW_STAT_RUNNING = 1 → exec (.remoteWrite i) s = .next (s.set CLY_RW_STAT_RESULT 2) ∧
      exec (.remoteRead i) s = .next (s.set CLY_RW_STAT_RESULT 2)) ∧
    (s.get CLY_RW_STAT_RUNNING = 0 → s.get CLY_MST_STAT_SELF = 0 →
      ∃ t, exec (.remoteWrite i) s = .next t ∧ exec (.remoteRead i) s = .next t ∧ t.get CLY_RW_STAT_RESULT = 4 ∧
        t.get CLY_RW_STAT_RUNNING = 0 ∧ t.get ⟨0xB0014, 5, 1⟩ = 1 ∧ t.cly = s.cly ∧ t.kept = s.kept) ∧
    (s.get CLY_RW_STAT_RUNNING = 0 → s.get CLY_MST_STAT_SELF = 1 →
      (∃ t, exec (.remoteWrite i) s = .next t ∧ t.get CLY_RW_STAT_RUNNING = 1 ∧ t.cly.rwRead = false ∧ t.cly.rwTries = 0 ∧
        t.cly.ctrl = s.cly.ctrl ++ [(s.get CLY_RW_DEV_DEV, bytesAt (leBytes 1 12 ++ leBytes 3 ((s.cly.rwTag + 1) % 2 ^ 16) ++
          leBytes 4 (s.get CLY_RW_ADDR_ADDR) ++ leBytes 4 (s.get CLY_RW_DATA_DATA)) 0 16)] ∧ t.kept = s.kept) ∧
      (∃ t, exec (.remoteRead i) s = .next t ∧ t.get CLY_RW_STAT_RUNNING = 1 ∧ t.cly.rwRead = true ∧ t.cly.rwTries = 0 ∧
        t.cly.ctrl = s.cly.ctrl ++ [(s.get CLY_RW_DEV_DEV, bytesAt (leBytes 1 13 ++ leBytes 3 ((s.cly.rwTag + 1) % 2 ^ 16) ++
          leBytes 4 (s.get CLY_RW_ADDR_ADDR)) 0 16)] ∧ t.kept = s.kept))) ∧
  (∀ s : State, (s.get CLY_RW_STAT_RUNNING = 0 ∨ s.now - s.cly.rwAt < 50000 → exec .remoteResend s = .next s) ∧
    (s.get CLY_RW_STAT_RUNNING = 1 → 50000 ≤ s.now - s.cly.rwAt → s.cly.rwTries < 3 →
      ∃ t, exec .remoteResend s = .next t ∧ t.cly.rwTries = s.cly.rwTries + 1 ∧ t.cly.rwAt = s.now ∧ t.regs = s.regs ∧
        t.cly.ctrl.length = s.cly.ctrl.length + 1 ∧ t.kept = s.kept) ∧
    (s.get CLY_RW_STAT_RUNNING = 1 → 50000 ≤ s.now - s.cly.rwAt → 3 ≤ s.cly.rwTries →
      ∃ t, exec .remoteResend s = .next t ∧ t.get CLY_RW_STAT_RUNNING = 0 ∧ t.get CLY_RW_STAT_RESULT = 3 ∧
        t.get ⟨0xB0014, 5, 1⟩ = 1 ∧ t.cly = s.cly ∧ t.kept = s.kept)) ∧
  (∀ (m : CtlMsg) (r : List CtlMsg) (s : State), s.cly.inbox = m :: r →
    (byteAt m.b 0 = 14 → s.get CLY_RW_STAT_RUNNING = 1 → m.src = s.get CLY_RW_DEV_DEV → m.num 1 2 = s.cly.rwTag →
      ∃ t, exec .regackMessage s = .next t ∧ t.get CLY_RW_STAT_RUNNING = 0 ∧ t.get ⟨0xB0014, 5, 1⟩ = 1 ∧
        t.get CLY_RW_STAT_RESULT = (if byteAt m.b 3 = 0 then 1 else 5) ∧
        t.get CLY_RW_DATA_DATA = (if s.cly.rwRead = true ∧ byteAt m.b 3 = 0 then m.num 8 4 else s.get CLY_RW_DATA_DATA) ∧
        t.cly.inbox = r ∧ t.kept = s.kept) ∧
    (byteAt m.b 0 = 12 ∨ byteAt m.b 0 = 13 → s.fromMaster m.src = true → s.cly.lastTag = some (m.num 1 2) →
      ∃ t, exec (if byteAt m.b 0 = 12 then .regwrMessage else .regrdMessage) s = .next t ∧ t.regs = s.regs ∧
        t.cly.ctrl = s.cly.ctrl ++ [(m.src, bytesAt s.cly.lastAck 0 16)] ∧ t.cly.inbox = r ∧ t.ldg = s.ldg ∧ t.kept = s.kept) ∧
    (byteAt m.b 0 = 12 ∨ byteAt m.b 0 = 13 → s.fromMaster m.src = false →
      ∃ t, exec (if byteAt m.b 0 = 12 then .regwrMessage else .regrdMessage) s = .next t ∧
        t.get CLY_REJ_REJ = min (s.get CLY_REJ_REJ + 1) (2 ^ 32 - 1) ∧ t.cly.ctrl = s.cly.ctrl ∧ t.cly.inbox = r ∧ t.kept = s.kept) ∧
    (byteAt m.b 0 = 12 → s.fromMaster m.src = true → s.cly.lastTag ≠ some (m.num 1 2) → m.num 4 4 % 0x1000 = 0x20 →
      assigned (m.num 4 4) = true → s.reaches 2 (m.num 4 4) = true →
      ∃ t, exec .regwrMessage s = .next t ∧ t.rd (m.num 4 4) = BitVec.ofNat 32 (m.num 8 4) ∧
        (∀ b, b ≠ m.num 4 4 → t.rd b = s.rd b) ∧ t.cly.lastTag = some (m.num 1 2) ∧ t.cly.lastAck = regAck (m.num 1 2) false 0 ∧
        t.kept = s.kept) ∧
    (byteAt m.b 0 = 13 → s.fromMaster m.src = true → s.cly.lastTag ≠ some (m.num 1 2) → m.num 4 4 % 0x1000 = 0x20 →
      assigned (m.num 4 4) = true → s.reaches 2 (m.num 4 4) = true →
      ∃ t, exec .regrdMessage s = .next t ∧ t.cly.lastTag = some (m.num 1 2) ∧
        t.cly.lastAck = regAck (m.num 1 2) false (s.rd (m.num 4 4)) ∧ t.regs = s.regs ∧ t.kept = s.kept))

/-- MASTER_ANNOUNCE, MASTER_MESSAGE, TAKEOVER, HANDOVER, HANDOVER_TIMEOUT, CHECKPOINT_SEND, CHECKPOINT_RESEND, CKPT_ACK_MESSAGE, STBY_LOST, REHEARSE,
PROBE_MESSAGE, PROBE_ACK_MESSAGE and REHEARSE_TIMEOUT (R363–R370): a master-capable device announces and weighs claims; a beaten master is
deposed; a standby takes over after MISS × HB_US; checkpoints are sent, repeated and acknowledged; a rehearsal changes nothing but its result. -/
def Obligations.ClaimsDecideTheMaster : Prop :=
  (∀ s : State, (s.get CLY_MST_CFG_MROLE ≠ 1 ∨ s.safe = true → exec .masterAnnounce s = .next s) ∧
    (s.get CLY_MST_CFG_MROLE = 1 → s.cfg (ctlEn clyPage) = 1 → s.safe = false → s.cly.annAt = none → s.get CLY_MST_STAT_VALID = 0 →
      s.get CLY_MST_STAT_SELF = 0 →
      ∃ t, exec .masterAnnounce s = .next t ∧ t.get CLY_MST_STAT_VALID = 1 ∧ t.get CLY_MST_STAT_SELF = 1 ∧
        t.get CLY_MST_STAT_MASTER = s.ownDev ∧ t.get CLY_MST_CUR_CLAIM = s.get CLY_MST_CLAIM_CLAIM ∧ t.cly.annAt = some s.now ∧
        (t.cly.ctrl.drop s.cly.ctrl.length).map (fun p => p.1) = s.reachDevs ∧ t.kept = s.kept)) ∧
  (∀ (m : CtlMsg) (r : List CtlMsg) (s : State), s.cly.inbox = m :: r →
    (byteAt m.b 0 = 15 → s.accepts m.src (m.num 4 4) = false →
      exec .masterMessage s = .next { s with cly := { s.cly with inbox := r } }) ∧
    (byteAt m.b 0 = 15 → s.accepts m.src (m.num 4 4) = true → bit (byteAt m.b 8) 0 = false → m.src < 2048 → m.src ≠ s.ownDev →
      ∃ t, exec .masterMessage s = .next t ∧ t.get CLY_MST_STAT_MASTER = m.src ∧ t.get CLY_MST_STAT_VALID = 1 ∧
        t.get CLY_MST_CUR_CLAIM = m.num 4 4 ∧ t.cly.heardAt = s.now ∧
        (s.get CLY_MST_STAT_SELF = 1 → t.get CLY_MST_STAT_SELF = 0 ∧ t.get CLY_MST_STAT_DEPOSED = 1 ∧ t.get CLY_MST_CFG_MROLE = 0 ∧
          t.get LDG_CC_CFG_ROLE = 2 ∧ (s.get CLY_RW_STAT_RUNNING = 1 → t.get CLY_RW_STAT_RUNNING = 0 ∧ t.get CLY_RW_STAT_RESULT = 4)) ∧
        t.cly.inbox = r ∧ t.kept = s.kept) ∧
    (byteAt m.b 0 = 16 → m.src = s.get CLY_CKPT_STBY_STBY → s.ldg.cc.goPend = false → s.cly.ho ≠ 2 →
      ∃ t, exec .ckptAckMessage s = .next t ∧ t.get CLY_CKPT_STAT_ACKED = m.num 4 4 % 65536 ∧
        t.cly.ckAcked = (s.cly.ckAcked || decide (m.num 4 4 = s.cly.ckSeq)) ∧ t.cly.inbox = r ∧ t.kept = s.kept) ∧
    (byteAt m.b 0 = 16 → m.src = s.get CLY_CKPT_STBY_STBY → m.num 4 4 = s.cly.ckSeq → s.ldg.cc.goPend = false → s.cly.ho = 2 →
      ∃ t, exec .ckptAckMessage s = .next t ∧ t.get CLY_MST_CFG_MROLE = 2 ∧ t.get CLY_MST_STAT_SELF = 0 ∧ t.get LDG_CC_CFG_ROLE = 2 ∧
        t.get CLY_MST_RESULT_RESULT = 1 ∧ t.cly.ho = 0 ∧ t.kept = s.kept) ∧
    (byteAt m.b 0 = 17 → exec .probeMessage s = .next { s with cly := { s.cly with
      inbox := r
      ctrl := s.cly.ctrl ++ [(m.src, bytesAt ([18] ++ bytesAt m.b 1 2) 0 16)] } }) ∧
    (byteAt m.b 0 = 18 → s.cly.rehWait = [m.src] → m.num 1 2 = s.cly.rehTag →
      ∃ t, exec .probeAckMessage s = .next t ∧ t.cly.rehWait = [] ∧ t.get CLY_MST_RESULT_RESULT = 1 ∧
        t.get CLY_MST_RESULT_DUR_US = min ((s.now - s.cly.rehAt) / 1000) 65535 ∧ t.cly.inbox = r ∧ t.kept = s.kept)) ∧
  (∀ s : State, (s.get CLY_MST_CFG_MROLE ≠ 2 ∨ s.now - s.cly.heardAt < max 1 (s.get CLY_MST_CFG_MISS) * s.hbUs * 1000 →
      exec .takeover s = .next s) ∧
    (s.get CLY_MST_CFG_MROLE = 2 → s.get CLY_MST_STAT_VALID = 1 → s.cfg (ctlEn clyPage) = 1 →
      max 1 (s.get CLY_MST_CFG_MISS) * s.hbUs * 1000 ≤ s.now - s.cly.heardAt → s.checkpoint = none →
      ∃ t, exec .takeover s = .next t ∧ t.get CLY_MST_CFG_MROLE = 1 ∧ t.get CLY_MST_STAT_SELF = 1 ∧ t.get LDG_CC_CFG_ROLE = 1 ∧
        t.get CLY_MST_STAT_TOOK_OVER = 1 ∧ t.get CLY_MST_STAT_MASTER = s.ownDev ∧
        t.get CLY_MST_CUR_CLAIM = (s.get CLY_MST_CUR_CLAIM + 1) % 2 ^ 32 ∧ t.get ⟨0xB0010, 2, 1⟩ = 1 ∧ t.kept = s.kept)) ∧
  (∀ (i : Fin 5) (s : State), s.reaches i CLY_MST_CMD = true →
    (s.get CLY_MST_STAT_SELF = 1 → ∃ t, exec (.handover i) s = .next t ∧ t.cly.ho = 1 ∧ t.cly.hoAt = s.now ∧
      t.get CLY_MST_RESULT_RESULT = 7 ∧ t.kept = s.kept) ∧
    (s.get CLY_MST_CFG_MROLE ≠ 2 → ∃ t, exec (.rehearse i) s = .next t ∧ t.get CLY_MST_RESULT_RESULT = 4 ∧ t.get ⟨0xB0014, 4, 1⟩ = 1 ∧
      t.kept = s.kept) ∧
    (∀ b, s.get CLY_MST_CFG_MROLE = 2 → s.checkpoint = some b → s.ckptDevs b ≠ [] →
      ∃ t, exec (.rehearse i) s = .next t ∧ t.get CLY_MST_RESULT_RESULT = 7 ∧ t.cly.rehWait = s.ckptDevs b ∧ t.cly.rehAt = s.now ∧
        (t.cly.ctrl.drop s.cly.ctrl.length).map (fun p => p.1) = s.ckptDevs b ∧ t.ldg = s.ldg ∧ t.kept = s.kept)) ∧
  (∀ s : State,
    (s.cly.ho = 1 → s.get LDG_CC_STAT_PHASE ≠ 0 → 10000000 ≤ s.now - s.cly.hoAt →
      ∃ t, exec .handoverTimeout s = .next t ∧ t.cly.ho = 0 ∧ t.get CLY_MST_RESULT_RESULT = 5 ∧ t.get ⟨0xB0014, 4, 1⟩ = 1 ∧
        t.kept = s.kept) ∧
    (s.cly.rehWait ≠ [] → 1000000 ≤ s.now - s.cly.rehAt →
      ∃ t, exec .rehearseTimeout s = .next t ∧ t.cly.rehWait = [] ∧ t.get CLY_MST_RESULT_RESULT = 3 ∧
        t.get CLY_MST_RESULT_DEV = s.cly.rehWait.foldl min 2047 ∧ t.kept = s.kept) ∧
    (s.ldg.cc.goPend = true → 1000000 ≤ s.now - s.ldg.cc.readyAt → s.ccOthers ≠ [] →
      ∃ t, exec .stbyLost s = .next t ∧ t.get CLY_MST_STAT_STBY_LOST = 1 ∧ t.get ⟨0xB0010, 3, 1⟩ = 1 ∧ t.ldg.cc.goPend = false ∧
        t.ldg.cc.abortSent = true ∧ t.get LDG_CC_STAT_PHASE = 2 ∧ t.kept = s.kept) ∧
    (s.ldg.cc.goPend = false → exec .stbyLost s = .next s) ∧
    (∀ sw, s.get CLY_MST_STAT_SELF ≠ 1 ∨ s.get CLY_CKPT_STBY_EN ≠ 1 → exec (.checkpointSend sw) s = .next s) ∧
    (∀ b, s.get CLY_MST_STAT_SELF = 1 → s.get CLY_CKPT_STBY_EN = 1 → s.cly.ckDue = true →
      ∃ t, exec (.checkpointSend (.bytes b)) s = .next t ∧ t.cly.ckSeq = (s.cly.ckSeq + 1) % 2 ^ 32 ∧ t.cly.ckDue = false ∧
        t.cly.ckpt = s.ckptBytes ((s.cly.ckSeq + 1) % 2 ^ 32) b ∧ t.cly.ckAcked = false ∧ t.cly.ckAt = s.now ∧ t.kept = s.kept) ∧
    (s.get CLY_MST_STAT_SELF = 1 → s.get CLY_CKPT_STBY_EN = 1 → s.cly.ckAcked = false → 100000 ≤ s.now - s.cly.ckAt →
      ∃ t, exec .checkpointResend s = .next t ∧ t.cly.ckAt = s.now ∧ t.cly.ckpt = s.cly.ckpt ∧ t.cly.ckSeq = s.cly.ckSeq ∧
        t.kept = s.kept) ∧
    (s.cly.ckAcked = true → exec .checkpointResend s = .next s))

/-! ### 07: ports, received frames and FlexE groups -/

/-- PORT_UP, PORT_DOWN, PFC_REPEAT, PFC_RECEIVE, PFC_PAUSE_EXPIRY and PAUSE_RECEIVE (R54, R59, R60): an enabled Ethernet port is up exactly while it
is locked and free of faults out of safe state, and each change sets its interrupt bit; a PFC frame sets, replaces or ends the pauses it
names when RX_EN is 1 and is only counted otherwise; PAUSE is only counted; a PFC frame is repeated at QUANTA/2 above XON. -/
def Obligations.PortsFollowTheirConditions : Prop :=
  (∀ (p : Fin 256) (s : State), s.ethPort p = true →
    (∃ t, exec (.portUp p) s = .next t ∧ t.portUp p = !s.safe ∧ t.get (PRT_PORT_STAT_FEC_LOCK (p / 16) (p % 16)) = 1 ∧
      (s.safe = false → s.portUp p = false → t.get ⟨prtPage (p / 16) + 0x14, p % 16, 1⟩ = 1) ∧ t.kept = s.kept) ∧
    (∀ lf rf, ∃ t, exec (.portDown p lf rf) s = .next t ∧ t.portUp p = false ∧
      t.get (PRT_PORT_STAT_LF_RX (p / 16) (p % 16)) = b2n lf ∧ t.get (PRT_PORT_STAT_RF_RX (p / 16) (p % 16)) = b2n rf ∧
      (lf = false → rf = false → t.get (PRT_PORT_STAT_FEC_LOCK (p / 16) (p % 16)) = 0) ∧
      (s.portUp p = true → t.get ⟨prtPage (p / 16) + 0x14, p % 16, 1⟩ = 1) ∧ t.kept = s.kept)) ∧
  (∀ (p : Fin 256) (pri : Fin 8) (q : Nat) (s : State), q = s.cfg (PRT_PFC_CFG_QUANTA (p / 16) (p % 16)) → s.safe = false →
    (s.pfcOn p pri = true → s.get ⟨PRT_PORT_STAT (p / 16) (p % 16), 8 + pri.val, 1⟩ = 1 →
      Tbl.get (fun _ => 0) s.prt.pfcAt (8 * p.val + pri.val) + s.quantaNs p (max 1 (q / 2)) ≤ s.now →
      s.cfg (PRT_PFC_THR_XON_KB (p / 16) (p % 16)) * 256 < s.pfcCount p pri →
      ∃ t, exec (.pfcRepeat p pri) s = .next t ∧ t.prt.pfcOut = s.prt.pfcOut ++ [(p.val, pri.val, q)] ∧
        Tbl.get (fun _ => 0) t.prt.pfcAt (8 * p.val + pri.val) = s.now ∧ t.kept = s.kept) ∧
    (s.now < Tbl.get (fun _ => 0) s.prt.pfcAt (8 * p.val + pri.val) + s.quantaNs p (max 1 (q / 2)) ∨
      s.pfcCount p pri ≤ s.cfg (PRT_PFC_THR_XON_KB (p / 16) (p % 16)) * 256 → exec (.pfcRepeat p pri) s = .next s)) ∧
  (∀ (p : Fin 256) (vec : BitVec 8) (times : List (BitVec 16)) (s : State),
    (s.cfg (PRT_PFC_CFG_RX_EN (p / 16) (p % 16)) = 0 ∨ s.ethPort p = false →
      ∃ t, exec (.pfcReceive p vec times) s = .next t ∧ Tbl.get (fun _ => 0) t.cnt.port (16 * p.val + 5) =
        min (Tbl.get (fun _ => 0) s.cnt.port (16 * p.val + 5) + 1) cntMax ∧ t = { s with cnt := t.cnt }) ∧
    (s.cfg (PRT_PFC_CFG_RX_EN (p / 16) (p % 16)) = 1 → s.ethPort p = true →
      ∃ t, exec (.pfcReceive p vec times) s = .next t ∧
        (∀ pri : Fin 8, t.get (pausedFld p pri) =
          (if vec.getLsbD pri then b2n ((times.getD pri 0).toNat != 0) else s.get (pausedFld p pri))) ∧
        (∀ pri : Fin 8, vec.getLsbD pri = true →
          Tbl.get (fun _ => 0) t.prt.pauseEnd (8 * p.val + pri.val) = s.now + s.quantaNs p (times.getD pri 0).toNat) ∧
        (∀ b, b ≠ PRT_PORT_STAT (p / 16) (p % 16) → t.rd b = s.rd b) ∧ t.kept = s.kept)) ∧
  (∀ (p : Fin 256) (pri : Fin 8) (s : State),
    (s.now < Tbl.get (fun _ => 0) s.prt.pauseEnd (8 * p.val + pri.val) → exec (.pfcPauseExpiry p pri) s = .next s) ∧
    (Tbl.get (fun _ => 0) s.prt.pauseEnd (8 * p.val + pri.val) ≤ s.now →
      ∃ t, exec (.pfcPauseExpiry p pri) s = .next t ∧ t.get (pausedFld p pri) = 0 ∧
        (∀ q : Fin 8, q ≠ pri → t.get (pausedFld p q) = s.get (pausedFld p q)) ∧
        (∀ b, b ≠ PRT_PORT_STAT (p / 16) (p % 16) → t.rd b = s.rd b) ∧ t = { s with regs := t.regs })) ∧
  (∀ (p : Fin 256) (s : State), ∃ t, exec (.pauseReceive p) s = .next t ∧ Tbl.get (fun _ => 0) t.cnt.port (16 * p.val + 6) =
    min (Tbl.get (fun _ => 0) s.cnt.port (16 * p.val + 6) + 1) cntMax ∧ t = { s with cnt := t.cnt })

/-- FRAME_RECEIVE, FRAME_END and FCS_RESULT (R20, R22, R55, R68): a runt is counted and kept nowhere, nothing is received by a port that is down
or in safe state; a whole frame of at most 256 bytes asks at once for a buffer of its length; one longer than MAX_FRAME is cut there and
FCS-bad; the end adds the rest of the bytes; a bad FCS marks the frame, or its transmission when that has started. -/
def Obligations.ReceivedFramesAreChecked : Prop :=
  (∀ (p : Fin 256) (b : List Byte) (whole : Bool) (s : State),
    (s.safe = true → ∃ t, exec (.frameReceive p b whole) s = .next t ∧ Tbl.get (fun _ => 0) t.cnt.port (16 * p.val + 12) =
      min (Tbl.get (fun _ => 0) s.cnt.port (16 * p.val + 12) + 1) cntMax ∧ t = { s with cnt := t.cnt }) ∧
    (s.safe = false → s.portUp p = false → exec (.frameReceive p b whole) s = .next s) ∧
    (s.safe = false → s.portUp p = true → whole = true → b.length < 64 →
      ∃ t, exec (.frameReceive p b whole) s = .next t ∧ Tbl.get (fun _ => 0) t.cnt.port (16 * p.val + 3) =
        min (Tbl.get (fun _ => 0) s.cnt.port (16 * p.val + 3) + 1) cntMax ∧ t = { s with cnt := t.cnt }) ∧
    (s.safe = false → s.portUp p = true → whole = true → 64 ≤ b.length → b.length ≤ 256 → b.length ≤ s.maxFrame p →
      ∃ t, exec (.frameReceive p b whole) s = .next t ∧ t.nextFrame = s.nextFrame + 1 ∧ (t.frame s.nextFrame).bytes = b ∧
        (t.frame s.nextFrame).iport = p ∧ (t.frame s.nextFrame).iclass = s.iclassOf p b ∧ (t.frame s.nextFrame).ended = true ∧
        (t.frame s.nextFrame).stage = .waitBuf ∧ (∀ i, i ≠ s.nextFrame → t.frame i = s.frame i) ∧
        t.buf.reqs = s.buf.reqs ++ [⟨p / 16, s.nextFrame, b.length, false⟩] ∧ t.regs = s.regs ∧ t.kept = s.kept) ∧
    (s.safe = false → s.portUp p = true → whole = true → 64 ≤ b.length → s.maxFrame p < b.length →
      s.cfg (PRT_PORT_CFG_CT (p / 16) (p % 16)) = 1 → (∀ x ∈ s.frames, x.1 ≠ s.nextFrame ∧ x.2.origin ≠ some s.nextFrame) →
      ∃ t, exec (.frameReceive p b whole) s = .next t ∧ (t.frame s.nextFrame).bytes = b.take (s.maxFrame p) ∧
        (t.frame s.nextFrame).fcs = some false ∧ (t.frame s.nextFrame).oversize = true ∧ (t.frame s.nextFrame).stage = .waitBuf ∧
        Tbl.get (fun _ => 0) t.cnt.port (16 * p.val + 4) = min (Tbl.get (fun _ => 0) s.cnt.port (16 * p.val + 4) + 1) cntMax ∧
        t.kept = s.kept)) ∧
  (∀ (f : Nat) (rest : List Byte) (s : State),
    ((s.frame (s.lead f)).stage = .done ∨ (s.frame (s.lead f)).ended = true → exec (.frameEnd f rest) s = .next s) ∧
    ((s.frame f).stage ≠ .done → (s.frame f).stage ≠ .staging → (s.frame f).ended = false → (s.family f).Nodup →
      (s.frame f).len + rest.length ≤ s.maxFrame (s.frame f).iport →
      ∃ t, exec (.frameEnd f rest) s = .next t ∧
        (∀ i, t.frame i = if i ∈ s.family f then { s.frame i with
          bytes := (s.frame i).bytes ++ rest
          ended := true } else s.frame i) ∧ t.regs = s.regs ∧ t.kept = s.kept)) ∧
  (∀ (f : Nat) (s : State),
    (∀ ok, (s.frame (s.lead f)).stage = .done ∨ (s.frame (s.lead f)).fcs.isSome = true → exec (.fcsResult f ok) s = .next s) ∧
    ((s.frame f).stage ≠ .done → (s.frame f).fcs = none → ∃ t, exec (.fcsResult f true) s = .next t ∧
      (∀ i, t.frame i = if i ∈ s.family f then { s.frame i with fcs := some true } else s.frame i) ∧ t = { s with frames := t.frames }) ∧
    ((s.frame f).fcs = none → (s.frame f).stage ≠ .done → (∀ i ∈ s.family f, (s.frame i).stage ≠ .transmit) →
      ∃ t, exec (.fcsResult f false) s = .next t ∧
        (∀ i, t.frame i = if i ∈ s.family f then { s.frame i with fcs := some false } else s.frame i) ∧ t.regs = s.regs ∧ t.kept = s.kept) ∧
    ((s.frame f).fcs = none → (s.frame f).stage = .transmit → (s.frame f).marked = false → s.family f = [f] →
      ∃ t, exec (.fcsResult f false) s = .next t ∧ (t.frame f).fcs = some false ∧ (t.frame f).marked = true ∧
        (∀ i, i ≠ f → t.frame i = s.frame i) ∧
        Tbl.get (fun _ => 0) t.cnt.drop 0x17 = min (Tbl.get (fun _ => 0) s.cnt.drop 0x17 + 1) cntMax ∧
        t.get VOQ_CT_MARKED_CT_MARKED = min (s.get VOQ_CT_MARKED_CT_MARKED + 1) (2 ^ 32 - 1) ∧ t.kept = s.kept))

/-- WORKING_CALENDAR_DERIVE, CALENDAR_BOUNDARY, PORTER_RATE_SWITCH, CA_RECEIVE, FAR_C_BIT_CHANGE and OVERHEAD_MULTIFRAME (R73, R75–R78): the derived
calendar waits for a boundary, which sets CR, then switches once CA has come: the calendar in use, its map and TXCAL change and SWITCHES
counts; the receive side follows C and a differing received calendar. -/
def Obligations.CalendarsSwitchAtBoundaries : Prop :=
  ∀ (g : Fin 64) (s : State),
    ((s.grp g).derive = false → exec (.workingCalendarDerive g) s = .next s) ∧
    (∀ m, (s.grp g).derive = true → (s.grp g).notice = none → m = s.get (LOOM_FOL_STAT_MAP g) →
      ∃ t, exec (.workingCalendarDerive g) s = .next t ∧ (t.grp g).next = some (s.targetCal g m) ∧ (t.grp g).nextMap = some m ∧
        (t.grp g).own = s.targetCal g m ∧ (t.grp g).derive = false ∧ (t.grp g).cal = (s.grp g).cal ∧
        (∀ h, h ≠ g.val → t.grp h = s.grp h) ∧ t = { s with loom := t.loom }) ∧
    ((s.grp g).next = none → exec (.calendarBoundary g) s = .next s) ∧
    ((s.grp g).next ≠ none → (s.grp g).cr = false → ((s.grp g).mustForce s.now).1 = false →
      ∃ t, exec (.calendarBoundary g) s = .next t ∧ (t.grp g).cr = true ∧ (t.grp g).cal = (s.grp g).cal ∧
        (t.grp g).next = (s.grp g).next ∧ t = { s with loom := t.loom }) ∧
    (∀ c m, (s.grp g).next = some c → (s.grp g).nextMap = some m → m < 8 → s.follows g = true → (s.grp g).cr = true → (s.grp g).ca = true →
      ∃ t, exec (.calendarBoundary g) s = .next t ∧ (t.grp g).cal = c ∧ (t.grp g).next = none ∧ (t.grp g).cr = false ∧
        t.get (LOOM_FOL_STAT_MAP g) = m ∧ t.get (LOOM_FOL_STAT_TXCAL g) = 1 - s.get (LOOM_FOL_STAT_TXCAL g) ∧
        t.get (LOOM_FOL_CNT1_SWITCHES g) = min (s.get (LOOM_FOL_CNT1_SWITCHES g) + 1) 65535 ∧
        t.get ⟨LOOM_FOL_EVT g, 0, 1⟩ = 1 ∧ t.kept = s.kept) ∧
    ((s.grp g).rates = false → exec (.porterRateSwitch g) s = .next s) ∧
    ((s.grp g).rates = true → ∃ t, exec (.porterRateSwitch g) s = .next t ∧ (t.grp g).rates = false ∧
      (∀ p ∈ s.clientPorts g, t.get (SCH_PORT_RATE_RATE (p / 16) (p % 16)) = s.rateNow p % 2 ^ 22) ∧
      t.kept = s.kept) ∧
    ((s.grp g).cr = false → exec (.caReceive g) s = .next s) ∧
    ((s.grp g).cr = true → ∃ t, exec (.caReceive g) s = .next t ∧ t.grp g = { s.grp g with ca := true } ∧
      (∀ h, h ≠ g.val → t.grp h = s.grp h) ∧ t = { s with loom := t.loom }) ∧
    (∀ r, ∃ t, exec (.farCBitChange g r) s = .next t ∧ (t.grp g).rcal = (if (s.grp g).own = [] then r else (s.grp g).own) ∧
      t.get (LOOM_FOL_STAT_RXCAL g) = 1 - s.get (LOOM_FOL_STAT_RXCAL g) ∧ (t.grp g).cal = (s.grp g).cal ∧
      (∀ b, b ≠ LOOM_FOL_STAT g → t.rd b = s.rd b) ∧ t.kept = s.kept) ∧
    (∀ r, r = (s.grp g).rcal → exec (.overheadMultiframe g r) s = .next s) ∧
    (∀ r, r ≠ (s.grp g).rcal → ∃ t, exec (.overheadMultiframe g r) s = .next t ∧ (t.grp g).rcal = r ∧
      t.get ⟨LOOM_FOL_EVT g, 5, 1⟩ = 1 ∧ (t.grp g).cal = (s.grp g).cal ∧ t.kept = s.kept)

/-- NOTICE_FRAME, HOST_NOTICE, NOTICE_ACK_FALL, NOTICE_ABANDON, PHY_FAULT, PHY_RESTORE, RESTORE_RETRY and OVERHEAD_LOCK_CHANGE (R82–R84, R87, R90,
R91): a notice is discarded, rejected with its code or accepted as the group's one notice; an increase is abandoned after 2,000 µs; a faulted
member PHY asks for a forced switch and a restored one for a normal switch. -/
def Obligations.NoticesAndPhyFaults : Prop :=
  (∀ (n : Fin 8) (len : Nat) (w : Word) (g : Nat) (s : State), g = bits w.toNat 26 6 →
    (bit (s.cfg LOOM_LRN_CFG_LRN_EN) n = false → exec (.noticeFrame n len w) s = .next s) ∧
    (bit (s.cfg LOOM_LRN_CFG_LRN_EN) n = true → s.get (ackFld n) = 1 ∨ len ≠ 32 ∨ crc8 w.toNat ≠ w.toNat % 256 →
      exec (.noticeFrame n len w) s = .next (s.set ⟨LOOM_LRN_STAT, 8 + n.val, 1⟩ 1)) ∧
    (∀ code, bit (s.cfg LOOM_LRN_CFG_LRN_EN) n = true → s.get (ackFld n) = 0 → len = 32 → crc8 w.toNat = w.toNat % 256 →
      s.checkNotice w.toNat (some n.val) = (code, 0) → 5 ≤ code → code < 8 →
      ∃ t, exec (.noticeFrame n len w) s = .next t ∧ t.get ⟨LOOM_LRN_STAT, 8 + n.val, 1⟩ = 1 ∧
        t.get (LOOM_FOL_EVT_LAST_REJ g) = code ∧ t.get (LOOM_FOL_CNT0_REJECTED g) = min (s.get (LOOM_FOL_CNT0_REJECTED g) + 1) 65535 ∧
        t.loom = s.loom ∧ t.kept = s.kept) ∧
    (∀ cls, bit (s.cfg LOOM_LRN_CFG_LRN_EN) n = true → s.get (ackFld n) = 0 → len = 32 → crc8 w.toNat = w.toNat % 256 →
      s.checkNotice w.toNat (some n.val) = (0, cls) → s.grpOper g = true →
      ∃ t, exec (.noticeFrame n len w) s = .next t ∧ t.get (ackFld n) = 1 ∧ t.get (LOOM_FOL_STAT_PEND g) = 1 ∧
        t.get (LOOM_FOL_STAT_PMAP g) = bits w.toNat 23 3 ∧
        (t.grp g).notice = some ⟨some n.val, bits w.toNat 23 3, s.now, bits w.toNat 9 14, cls⟩ ∧
        t.get (LOOM_FOL_CNT0_ACCEPTED g) = min (s.get (LOOM_FOL_CNT0_ACCEPTED g) + 1) 65535 ∧
        t.get (LOOM_FOL_STAT_MAP g) = s.get (LOOM_FOL_STAT_MAP g) ∧ t.kept = s.kept)) ∧
  (∀ (i : Fin 5) (w : Word) (g : Nat) (s : State), g = bits w.toNat 26 6 → s.reaches i LOOM_HNOTICE = true →
    (s.get LOOM_HN_STAT_STATE = 1 → exec (.hostNotice i w) s = .next s) ∧
    (∀ code, s.get LOOM_HN_STAT_STATE ≠ 1 → s.checkNotice w.toNat none = (code, 0) → 4 ≤ code → code < 8 →
      ∃ t, exec (.hostNotice i w) s = .next t ∧ t.get LOOM_HN_STAT_STATE = 3 ∧ t.get LOOM_HN_STAT_CODE = code ∧
        t.get LOOM_HN_STAT_GROUP = g ∧ t.loom = s.loom ∧ t.kept = s.kept) ∧
    (∀ cls, s.get LOOM_HN_STAT_STATE ≠ 1 → s.checkNotice w.toNat none = (0, cls) → s.grpOper g = true →
      ∃ t, exec (.hostNotice i w) s = .next t ∧ t.get LOOM_HN_STAT_STATE = 1 ∧ t.get LOOM_HN_STAT_GROUP = g ∧
        t.get (LOOM_FOL_STAT_PEND g) = 1 ∧ (t.grp g).notice = some ⟨none, bits w.toNat 23 3, s.now, bits w.toNat 9 14, cls⟩ ∧
        t.kept = s.kept)) ∧
  (∀ (n : Fin 8) (w g : Nat) (s : State), Tbl.get (fun _ => none) s.loom.ack n.val = some (w, g) → g < 64 →
    (s.now - w < 20000 → exec (.noticeAckFall ⟨n.val, by omega⟩) s = .next s) ∧
    (∀ x, 20000 ≤ s.now - w → (s.grp g).notice = some x → x.input = some n.val → x.cls = 2 →
      ∃ t, exec (.noticeAckFall ⟨n.val, by omega⟩) s = .next t ∧ t.get (ackFld n) = 0 ∧ (t.grp g).notice = none ∧
        t.get (LOOM_FOL_STAT_PEND g) = 0 ∧ Tbl.get (fun _ => none) t.loom.ack n.val = none ∧ t.kept = s.kept)) ∧
  (∀ (g : Fin 64) (s : State),
    (∀ n, (s.grp g).notice = some n → (n.cls ≠ 1 ∨ s.now - n.t0 < 2000000 → exec (.noticeAbandon g) s = .next s) ∧
      (n.cls = 1 → 2000000 ≤ s.now - n.t0 →
        ∃ t, exec (.noticeAbandon g) s = .next t ∧ (t.grp g).notice = none ∧ (t.grp g).next = none ∧ (t.grp g).cal = (s.grp g).cal ∧
          t.get (LOOM_FOL_STAT_MAP g) = s.get (LOOM_FOL_STAT_MAP g) ∧ t.get (LOOM_FOL_STAT_PEND g) = 0 ∧
          t.get ⟨LOOM_FOL_EVT g, 6, 1⟩ = 1 ∧ t.kept = s.kept)) ∧
    (∀ k : Fin 16, s.follows g = false ∨ s.phyFlt g k = true → exec (.phyFault g k) s = .next s) ∧
    (∀ k : Fin 16, s.follows g = true → k.val ∈ s.members g → s.phyFlt g k = false →
      ∃ t, exec (.phyFault g k) s = .next t ∧ t.get ⟨LOOM_FOL_STAT g, 16 + k.val, 1⟩ = 1 ∧ t.get ⟨LOOM_FOL_EVT g, 4, 1⟩ = 1 ∧
        t.get (LOOM_FOL_CNT2_PHY_FAULTS g) = min (s.get (LOOM_FOL_CNT2_PHY_FAULTS g) + 1) 65535 ∧
        (t.grp g).forceFrom = some (s.now + 20000) ∧ (t.grp g).notice = (s.grp g).notice ∧ t.kept = s.kept) ∧
    (∀ k : Fin 16, s.phyFlt g k = false ∨ s.phyOk g k = false → exec (.phyRestore g k) s = .next s) ∧
    (∀ k : Fin 16, s.phyFlt g k = true → s.phyOk g k = true → 100000000 ≤ s.now - Tbl.get (fun _ => 0) (s.grp g).clean k.val →
      ∃ t, exec (.phyRestore g k) s = .next t ∧ t.get ⟨LOOM_FOL_STAT g, 16 + k.val, 1⟩ = 0 ∧ t.get ⟨LOOM_FOL_EVT g, 7, 1⟩ = 1 ∧
        (t.grp g).restore = true ∧ (t.grp g).reqAt = s.now ∧ t.kept = s.kept) ∧
    (∀ w, (s.grp g).retryAt = some w → 100000000 ≤ s.now - w →
      ∃ t, exec (.restoreRetry g) s = .next t ∧ t.grp g = { s.grp g with
        derive := true
        restore := true
        reqAt := s.now
        retryAt := none } ∧ t = { s with loom := t.loom }) ∧
    (∀ (k : Fin 16) (l o : Bool), ∃ t, exec (.overheadLockChange g k l o) s = .next t ∧ (k.val ∈ (t.grp g).lock ↔ l = true) ∧
      (∀ j : Fin 16, j ≠ k → (j.val ∈ (t.grp g).lock ↔ j.val ∈ (s.grp g).lock)) ∧ (t.grp g).notice = (s.grp g).notice ∧ t.kept = s.kept))

/-! ### 08: parsing, dispatch, workshops and the control store -/

/-- PARSE_FRAME, PARSE_RESUME, PARSE_RESULT_RELEASE, GMEM_WRITE and GMEM_READ (R95, R98, R116, R118, R123): a head leaves its queue with the next
ticket of its slice; results go on in head-queue order only; a graph-memory write is staged in an open transaction, or sets RANGE or ORPHAN;
a read loads the entry and changes nothing else. -/
def Obligations.ParsingAndGraphMemory : Prop :=
  (∀ (sl : Fin 16) (e : PErr) (s : State),
    (s.headQ sl = [] → exec (.parseFrame sl e) s = .next s) ∧
    (∀ id r, s.headQ sl = id :: r →
      (s.cfgV (s.frame id).vslot (ctlEn (prsPage sl)) = 0 ∨ s.stageFull (ing sl) = true ∨ 16 ≤ (s.engines sl).length →
        exec (.parseFrame sl e) s = .next s) ∧
      (s.cfgV (s.frame id).vslot (ctlEn (prsPage sl)) = 1 → s.stageFull (ing sl) = false → (s.engines sl).length < 16 →
        ∃ t, exec (.parseFrame sl e) s = .next t ∧ t.headQ sl = r ∧ (t.frame id).otkt = s.get (WKS_ORD_NEXT_I_NEXT sl) ∧
          t.get (WKS_ORD_NEXT_I_NEXT sl) = (s.get (WKS_ORD_NEXT_I_NEXT sl) + 1) % 2 ^ 16 ∧
          (t.stageOf (ing sl)).out.map (fun x => x.num) = (s.stageOf (ing sl)).out.map (fun x => x.num) ++ [s.get (WKS_ORD_NEXT_I_NEXT sl)] ∧
          (∀ i, i ≠ id → t.frame i = s.frame i) ∧ t.kept = s.kept))) ∧
  (∀ (f : Nat) (e : PErr) (s : State),
    (s.parseOf f = none ∨ (s.frame f).stage ≠ .parsing → exec (.parseResume f e) s = .next s) ∧
    ((s.parseOf f).isSome = true → (s.frame f).stage = .parsing →
      ∃ t, exec (.parseResume f e) s = .next t ∧ ((t.frame f).stage = .parsing ∨ (t.frame f).stage = .parsed ∨ (t.frame f).stage = .ordered) ∧
        (∀ i, i ≠ f → t.frame i = s.frame i) ∧ t.prt = s.prt ∧ t.kept = s.kept)) ∧
  (∀ (sl : Fin 16) (s : State),
    (s.engines sl = [] ∨ (∃ id r, s.engines sl = id :: r ∧ (s.frame id).stage ≠ .parsed) → exec (.parseResultRelease sl) s = .next s) ∧
    (∀ id r, s.engines sl = id :: r → (s.frame id).stage = .parsed →
      ∃ t, exec (.parseResultRelease sl) s = .next t ∧ t.engines sl = r ∧ t.dispQ (ing sl) = s.dispQ (ing sl) ++ [id] ∧
        t.frame id = { s.frame id with stage := .dispatch } ∧ (∀ i, i ≠ id → t.frame i = s.frame i) ∧ t.regs = s.regs ∧ t.kept = s.kept)) ∧
  (∀ (i : Fin 5) (sl : Fin 16) (s : State), s.reaches i (PRS_GMEM_CMD sl) = true →
    (gmemSize (s.get (PRS_GMEM_ADDR_MEM sl)) ≤ s.get (PRS_GMEM_ADDR_INDEX sl) →
      ∃ t, exec (.gmemWrite i sl) s = .next t ∧ exec (.gmemRead i sl) s = .next t ∧ t.get (PRS_GMEM_STAT_RANGE sl) = 1 ∧
        t.get ⟨prsPage sl + 0x14, 1, 1⟩ = 1 ∧ t.ldg = s.ldg ∧ t.gmem = s.gmem ∧ t.kept = s.kept) ∧
    (s.get (PRS_GMEM_ADDR_INDEX sl) < gmemSize (s.get (PRS_GMEM_ADDR_MEM sl)) →
      (s.txnState i = .idle →
        ∃ t, exec (.gmemWrite i sl) s = .next t ∧ t.get (PRS_GMEM_STAT_ORPHAN sl) = 1 ∧ t.get ⟨prsPage sl + 0x14, 0, 1⟩ = 1 ∧
          t.ldg = s.ldg ∧ t.gmem = s.gmem ∧ t.kept = s.kept) ∧
      (∀ key, key = gmemKey sl (s.get (PRS_GMEM_ADDR_MEM sl)) (s.get (PRS_GMEM_ADDR_INDEX sl)) →
        (s.txnState i = .opened → s.role = 0 → s.get (PRS_GMEM_ADDR_BCAST sl) = 0 → s.gmemStagedBy key = none ∨ s.gmemStagedBy key = some i.val →
          ∃ t, exec (.gmemWrite i sl) s = .next t ∧
            (∀ n : Fin 9, n.val < gmemWords (s.get (PRS_GMEM_ADDR_MEM sl)) →
              ((Tbl.get (fun _ => none) (t.txn i).gmem key).map fun v => bits v.toNat (32 * n.val) 32) = some (s.rd (PRS_GMEM_DATA sl n)).toNat) ∧
            (∀ x, x ≠ key → Tbl.get (fun _ => none) (t.txn i).gmem x = Tbl.get (fun _ => none) (s.txn i).gmem x) ∧
            (∀ j, j ≠ i.val → t.txn j = s.txn j) ∧ t.gmem = s.gmem ∧ t.regs = s.regs ∧ t.kept = s.kept) ∧
        (s.get (LDG_TXN_CTL_READ_STAGED i) = 0 →
          ∃ t, exec (.gmemRead i sl) s = .next t ∧
            (∀ n : Fin 9, n.val < gmemWords (s.get (PRS_GMEM_ADDR_MEM sl)) →
              (t.rd (PRS_GMEM_DATA sl n)).toNat = bits (Tbl.get (fun _ => 0) s.gmem key).toNat (32 * n.val) 32) ∧
            (∀ b, (∀ n : Fin 9, b ≠ PRS_GMEM_DATA sl n) → t.rd b = s.rd b) ∧ t = { s with regs := t.regs }))))

/-- DISPATCH_GRANT, CONTEXT_LOADED, LOOKUP_RESULT, TICKET_RELEASE and TICKET_SKIP (R120, R127, R129, R130, R133): a FREE context of an awake
workshop takes the first head, egress before ingress,
or steals one, which is counted; its pass starts at the image's entry; a result lands in its register; a done ticket
that nothing blocks leaves the stage; a blocker of 20 µs is marked skipped. -/
def Obligations.DispatchAndReorder : Prop :=
  (∀ (w : Fin 64) (c : Fin 256) (s : State), (s.ctx w c).st ≠ .free → exec (.dispatchGrant w c) s = .next s) ∧
  (∀ (w : Fin 64) (c : Fin 256) (q id : Nat) (r : List Nat) (s : State), s.dispQ q = id :: r → q = egr (w / 4) ∨ q = ing (w / 4) →
    (q = ing (w / 4) → s.dispQ (egr (w / 4)) = []) → s.takesHeads w (s.frame id).vslot = true → (s.ctx w c).st = .free →
    ∃ t, exec (.dispatchGrant w c) s = .next t ∧ (t.ctx w c).st = .loading ∧ (t.ctx w c).frame = id ∧
      (t.ctx w c).egress = decide (q = egr (w / 4)) ∧ t.dispQ q = r ∧ (∀ p, p ≠ q → t.dispQ p = s.dispQ p) ∧
      (∀ i, i ≠ id → t.frame i = s.frame i) ∧ t.regs = s.regs ∧ t.kept = s.kept) ∧
  (∀ (w : Fin 64) (c : Fin 256) (q id : Nat) (r : List Nat) (s : State), s.serveQueue w = some q → s.dispQ q = id :: r → q / 2 ≠ w.val / 4 →
    q / 2 < 16 → s.takesHeads w (s.frame id).vslot = true → (s.ctx w c).st = .free →
    ∃ t, exec (.dispatchGrant w c) s = .next t ∧ (t.ctx w c).st = .loading ∧ (t.ctx w c).frame = id ∧ t.dispQ q = r ∧
      t.get (WKS_STOLEN_STOLEN w) = min (s.get (WKS_STOLEN_STOLEN w) + 1) (2 ^ 32 - 1) ∧
      t.get (WKS_STEAL_OUT_STEAL_OUT (q / 2)) = min (s.get (WKS_STEAL_OUT_STEAL_OUT (q / 2)) + 1) (2 ^ 32 - 1) ∧ t.kept = s.kept) ∧
  (∀ (w : Fin 64) (c : Fin 256) (s : State),
    ((s.ctx w c).st ≠ .loading → exec (.contextLoaded w c) s = .next s) ∧
    ((s.ctx w c).st = .loading → ∃ t, exec (.contextLoaded w c) s = .next t ∧ (t.ctx w c).st = .ready ∧
      (t.ctx w c).pc = (if (s.ctx w c).egress = true then (Tbl.get (fun _ => {}) s.cst.store w.val).eent
        else (Tbl.get (fun _ => {}) s.cst.store w.val).ient) ∧
      (t.ctx w c).g = List.replicate 32 0 ∧ (t.ctx w c).l = List.replicate 8 .never ∧ (t.ctx w c).area.length = 1024 ∧
      (∀ x d, ctxKey x d ≠ ctxKey w c → t.ctx x d = s.ctx x d) ∧ t = { s with wks := t.wks })) ∧
  (∀ (k : Nat) (s : State),
    ((∀ l, s.lkp[k]? = some l → l.res = none) → exec (.lookupResult k) s = .next s) ∧
    (∀ l v, s.lkp[k]? = some l → l.res = some v → (s.ctx l.wks l.ctx).st ≠ .free → (s.ctx l.wks l.ctx).pass = l.pass →
      l.reg < (s.ctx l.wks l.ctx).l.length →
      ∃ t, exec (.lookupResult k) s = .next t ∧ (t.ctx l.wks l.ctx).l[l.reg]? = some (.result v) ∧ t.lkp = s.lkp.eraseIdx k ∧
        ((s.ctx l.wks l.ctx).st = .wait → (s.ctx l.wks l.ctx).wait = .reg l.reg → (t.ctx l.wks l.ctx).st = .ready) ∧
        t.regs = s.regs ∧ t.frames = s.frames ∧ t.kept = s.kept)) ∧
  (∀ (sl : Fin 16) (eg : Bool) (s : State),
    (releasable [] (s.stageOf (2 * sl.val + b2n eg)).out = none → ∀ h, exec (.ticketRelease sl eg h) s = .next s) ∧
    (∀ x, releasable [] (s.stageOf (2 * sl.val + b2n eg)).out = some x →
      (∃ t, exec (.ticketRelease sl eg false) s = .next t ∧
        (t.stageOf (2 * sl.val + b2n eg)).out = (s.stageOf (2 * sl.val + b2n eg)).out.filter (fun y => y != x) ∧ t.kept = s.kept) ∧
      (∃ t, exec (.ticketRelease sl eg true) s = .next t ∧
        (t.stageOf (2 * sl.val + b2n eg)).out.length = (s.stageOf (2 * sl.val + b2n eg)).out.length ∧
        t.get ⟨ordPage (2 * sl.val + b2n eg) + 0x10, 2, 1⟩ = 1 ∧ t.frames = s.frames ∧ t.kept = s.kept)) ∧
    (∀ n, blockerOf (s.stageOf (2 * sl.val + b2n eg)).out = some n → 20000 ≤ s.now - (s.stageOf (2 * sl.val + b2n eg)).since →
      ∃ t, exec (.ticketSkip sl eg) s = .next t ∧
        (t.stageOf (2 * sl.val + b2n eg)).out = (s.stageOf (2 * sl.val + b2n eg)).out.map (fun x => if x.num = n then { x with skipped := true } else x) ∧
        t.get ⟨ordPage (2 * sl.val + b2n eg) + 0x14, 1, 1⟩ = 1 ∧ t.frames = s.frames ∧ t.kept = s.kept) ∧
    (blockerOf (s.stageOf (2 * sl.val + b2n eg)).out = none ∨ s.now - (s.stageOf (2 * sl.val + b2n eg)).since < 20000 →
      exec (.ticketSkip sl eg) s = .next s))

/-- MICROWORD_ISSUE, WATCHDOG_EXPIRY, WORKSHOP_ASLEEP and WORKSHOP_AWAKE (R120, R137, R139, R145, R155): with no ready thread the cycle is idle; a
word that a micro-word error bars ends the pass with its CAUSE; any other word takes its next pc and counts one issue; a pass at MAX_ISSUE
ends at once, its ingress frame with REASON 0x0D; a drained workshop falls asleep and a waking one is awake after 8 µs. -/
def Obligations.WorkshopsIssueAndSleep : Prop :=
  (∀ (w : Fin 64) (j : Fin 32) (e : WErr) (s : State), s.readyThread w j = none → s.wksState w ≠ 2 →
    ∃ t, exec (.microwordIssue w j e) s = .next t ∧ t.regs = s.regs ∧ t.wks.ctx = s.wks.ctx ∧ t.frames = s.frames ∧ t.kept = s.kept) ∧
  (∀ (w : Fin 64) (j : Fin 32) (n : Nat) (x : Ctx) (u : UWord) (s : State), s.readyThread w j = some n → n < 8 →
    x = s.ctx w (8 * j + n) → u = decodeUWord (s.storeWord w x.pc) → s.cst.bad.contains (w.val, x.pc) = false →
    (∀ c, x.earlyCause u = some c → c < 16 → x.egress = false → x.pc < 8192 →
      ∃ t, exec (.microwordIssue w j .good) s = .next t ∧ (t.ctx w (8 * j + n)).st = .free ∧ (t.frame x.frame).reason = 0x0D ∧
        (t.frame x.frame).stage = .ordered ∧ t.get CST_UWERR_LAST_CAUSE = c ∧ t.get CST_UWERR_LAST_WKS = w ∧
        t.get CST_UWERR_LAST_ADDR = x.pc ∧ t.get ⟨0x500010, 2, 1⟩ = 1 ∧ (∀ i, i ≠ x.frame → t.frame i = s.frame i) ∧ t.kept = s.kept) ∧
    (x.earlyCause u = none → x.mustWait u (decide (s.jmLookups w j < 32)) (s.acsFull (w / 16)) = .none →
      x.lateCause u (s.qlen (s.frame x.frame) - 4) = none → u.seq < 7 → u.lop = 0 →
      ∃ t, exec (.microwordIssue w j .good) s = .next t ∧ t.ctx w (8 * j + n) = x.applyWord u ∧
        (t.ctx w (8 * j + n)).pc = (x.nextPc u).1 ∧ (t.ctx w (8 * j + n)).issues = x.issues + 1 ∧ (t.jman w j).last = n ∧
        (∀ y d, ctxKey y d ≠ ctxKey w (8 * j + n) → t.ctx y d = s.ctx y d) ∧ t.frames = s.frames ∧ t.lkp = s.lkp ∧ t.kept = s.kept) ∧
    (∀ r, x.earlyCause u = none → x.mustWait u (decide (s.jmLookups w j < 32)) (s.acsFull (w / 16)) = .reg r →
      ∃ t, exec (.microwordIssue w j .good) s = .next t ∧ t.ctx w (8 * j + n) = { x with
        st := .wait
        wait := .reg r } ∧ t.frames = s.frames ∧ t.regs = s.regs ∧ t.kept = s.kept)) ∧
  (∀ (w : Fin 64) (c : Fin 256) (x : Ctx) (s : State), x = s.ctx w c →
    (x.st ≠ .ready ∨ s.maxIssue w x = 0 ∨ x.issues < s.maxIssue w x → exec (.watchdogExpiry w c) s = .next s) ∧
    (x.st = .ready → s.maxIssue w x ≠ 0 → s.maxIssue w x ≤ x.issues → x.egress = false →
      ∃ t, exec (.watchdogExpiry w c) s = .next t ∧ (t.ctx w c).st = .free ∧ (t.frame x.frame).reason = 0x0D ∧
        (t.frame x.frame).stage = .ordered ∧ t.get (WKS_WDOG_CNT_WDOG_CNT w) = min (s.get (WKS_WDOG_CNT_WDOG_CNT w) + 1) (2 ^ 32 - 1) ∧
        t.get ⟨wksPage w + 0x10, 1, 1⟩ = 1 ∧ t.get ⟨wksPage w + 0x14, 0, 1⟩ = 1 ∧ (∀ i, i ≠ x.frame → t.frame i = s.frame i) ∧
        t.kept = s.kept) ∧
    (x.st = .ready → s.maxIssue w x ≠ 0 → s.maxIssue w x ≤ x.issues → x.egress = true →
      ∃ t, exec (.watchdogExpiry w c) s = .next t ∧ (t.ctx w c).st = .free ∧ (t.frame x.frame).invFcs = true ∧
        (t.frame x.frame).stage = .egOrdered ∧ t.kept = s.kept)) ∧
  (∀ (w : Fin 64) (s : State), s.cst.roll = [] → s.cst.pend = [] → s.get CST_STAT_STATE ≠ 3 → s.aon.cstSleep = [] →
    (s.wksState w ≠ 3 ∨ s.wksIdle w = false → exec (.workshopAsleep w) s = .next s) ∧
    (s.wksState w = 3 → s.wksIdle w = true → ∃ t, exec (.workshopAsleep w) s = .next t ∧ t.wksState w = 0 ∧
      (∀ n : Fin 64, n ≠ w → t.wksState n = s.wksState n) ∧ t.frames = s.frames ∧ t.kept = s.kept) ∧
    (s.wksState w ≠ 1 ∨ s.now - Tbl.get (fun _ => 0) s.wks.wakeAt w.val < 8000 → exec (.workshopAwake w) s = .next s) ∧
    (s.wksState w = 1 → 8000 ≤ s.now - Tbl.get (fun _ => 0) s.wks.wakeAt w.val → ∃ t, exec (.workshopAwake w) s = .next t ∧
      t.wksState w = 2 ∧ (∀ n : Fin 64, n ≠ w → t.wksState n = s.wksState n) ∧ t.frames = s.frames ∧ t.kept = s.kept))

/-- CST_LOAD, CST_PATCH, CST_ABORT, CST_CONTAINER_CHECKED, CST_LOAD_WRITTEN, CST_PATCH_WORKSHOP_DONE, CST_ROLLBACK_DONE, CST_ECC_REWRITE and
CST_DEBUG_READ (R140, R158, R161, R162): a command is accepted in IDLE with EN live; a fetch can be aborted and fails with its RESULT; a LOAD
puts the new image and its version into every store and makes its buffer the running one; an error in a patch rolls back. -/
def Obligations.ControlStoreCommands : Prop :=
  (∀ (i : Fin 5) (s : State), s.reaches i CST_CMD = true → s.resetting cstPage = false →
    (s.get CST_STAT_STATE ≠ 0 ∨ s.cfg (ctlEn cstPage) = 0 →
      exec (.cstLoad i) s = .next (s.set CST_STAT_CMD_ERR 1) ∧ exec (.cstPatch i) s = .next (s.set CST_STAT_CMD_ERR 1)) ∧
    (s.get CST_STAT_STATE = 0 → s.cfg (ctlEn cstPage) = 1 → s.get CST_SRC_LEN_LEN ≠ 0 →
      (∃ t, exec (.cstLoad i) s = .next t ∧ t.get CST_STAT_STATE = 1 ∧ t.get CST_STAT_CMD_ERR = 0 ∧ t.cst.cmd = 1 ∧
        t.cst.store = s.cst.store ∧ (∀ b, b ≠ CST_STAT → t.rd b = s.rd b) ∧ t.kept = s.kept) ∧
      (∃ t, exec (.cstPatch i) s = .next t ∧ t.get CST_STAT_STATE = 1 ∧ t.get CST_STAT_CMD_ERR = 0 ∧ t.cst.cmd = 2 ∧
        t.cst.store = s.cst.store ∧ (∀ b, b ≠ CST_STAT → t.rd b = s.rd b) ∧ t.kept = s.kept)) ∧
    (s.get CST_STAT_STATE ≠ 1 → s.get CST_STAT_STATE ≠ 3 → exec (.cstAbort i) s = .next (s.set CST_STAT_CMD_ERR 1)) ∧
    (s.get CST_STAT_STATE = 1 → s.cst.rstPend = none →
      ∃ t, exec (.cstAbort i) s = .next t ∧ t.get CST_STAT_STATE = 0 ∧ t.get CST_STAT_RESULT = 7 ∧ t.get ⟨0x500014, 0, 1⟩ = 1 ∧
        t.cst.store = s.cst.store ∧ t.cst.bufs = s.cst.bufs ∧ t.get CST_RUN_VER_VERSION = s.get CST_RUN_VER_VERSION ∧ t.kept = s.kept)) ∧
  (∀ (c : Fetched) (s : State), s.get CST_STAT_STATE ≠ 1 → exec (.cstContainerChecked c) s = .next s) ∧
  (∀ s : State, s.get CST_STAT_STATE = 1 → s.cst.rstPend = none →
    ∃ t, exec (.cstContainerChecked .failed) s = .next t ∧ t.get CST_STAT_STATE = 0 ∧ t.get CST_STAT_RESULT = 9 ∧
      t.cst.store = s.cst.store ∧ t.get CST_STAT_RUN_BUF = s.get CST_STAT_RUN_BUF ∧ t.kept = s.kept) ∧
  (∀ s : State, (s.get CST_STAT_STATE ≠ 2 → exec .cstLoadWritten s = .next s) ∧
    (s.get CST_STAT_STATE = 2 → s.cst.rstPend = none →
      ∃ t, exec .cstLoadWritten s = .next t ∧ (∀ n : Fin 64, Tbl.get (fun _ => {}) t.cst.store n.val = s.imgBuf s.otherBuf) ∧
        (∀ n : Fin 64, t.rd (CST_WVER n) = BitVec.ofNat 32 (s.imgBuf s.otherBuf).ver) ∧ t.get CST_STAT_RUN_BUF = s.otherBuf ∧
        t.get CST_STAT_STATE = 0 ∧ t.get CST_STAT_RESULT = 1 ∧ t.cst.bufs = s.cst.bufs ∧ t.kept = s.kept)) ∧
  (∀ (w : Fin 64) (o : WriteOut) (s : State),
    (s.rollOf (w / 16) = none → exec (.cstPatchWorkshopDone w o) s = .next s) ∧
    (∀ r, s.rollOf (w / 16) = some r → r.phase ≠ .write ∨ r.n ≠ w.val → exec (.cstPatchWorkshopDone w o) s = .next s) ∧
    (∀ r, s.rollOf (w / 16) = some r → r.phase = .write → r.n = w.val → s.get CST_STAT_STATE = 3 → o ≠ .good →
      ∃ t, exec (.cstPatchWorkshopDone w o) s = .next t ∧ t.get CST_STAT_STATE = 4 ∧
        t.cst.result = (if o = .mismatch then 10 else 8) ∧ t.get ⟨0x500010, (if o = .mismatch then 0 else 1), 1⟩ = 1 ∧
        t.cst.bufs = s.cst.bufs ∧ t.get CST_STAT_RUN_BUF = s.get CST_STAT_RUN_BUF ∧ t.kept = s.kept)) ∧
  (∀ s : State,
    (s.get CST_STAT_STATE ≠ 4 ∨ s.cst.roll ≠ [] ∨ s.cst.pend ≠ [] → exec .cstRollbackDone s = .next s) ∧
    (s.get CST_STAT_STATE = 4 → s.cst.roll = [] → s.cst.pend = [] → s.cst.rstPend = none → s.cst.result < 16 →
      ∃ t, exec .cstRollbackDone s = .next t ∧ t.get CST_STAT_STATE = 0 ∧ t.get CST_STAT_RESULT = s.cst.result ∧
        t.get ⟨0x500014, 0, 1⟩ = 1 ∧ t.cst.store = s.cst.store ∧ t.kept = s.kept) ∧
    (s.cst.bad = [] → exec .cstEccRewrite s = .next s) ∧
    (∀ p r, s.cst.bad = p :: r → ∃ t, exec .cstEccRewrite s = .next t ∧ t.cst.bad = r ∧
      t.get CST_ECC_CNT_UNCOR = min (s.get CST_ECC_CNT_UNCOR + 1) 65535 ∧ t.cst.store = s.cst.store ∧ t.kept = s.kept)) ∧
  (∀ (i : Fin 5) (w : Word) (s : State), s.reaches i CST_DBG_ADDR = true → bits w.toNat 22 1 = 0 →
    ∃ t, exec (.cstDebugRead i w) s = .next t ∧
      (∀ k : Fin 8, (t.rd (CST_DBG_DATA k)).toNat = bits (s.storeWord (bits w.toNat 16 6) (bits w.toNat 0 13)).toNat (32 * k.val) 32) ∧
      (∀ b, b ≠ CST_DBG_ADDR → (∀ k : Fin 8, b ≠ CST_DBG_DATA k) → t.rd b = s.rd b) ∧ t = { s with regs := t.regs })

/-! ### 09: exact-match tables -/

/-- EXACT_LOOKUP, LEARN_LOOKUP and LEARN_DECISION (R152, R165, R171, R180, R182, R194): a table that is not enabled answers ERROR 2 and a wrong
length ERROR 1; a visible entry answers HIT with its data and sets H, none answers MISS; an uncorrectable bucket loses its entries and answers
ERROR 3; a learn that does not hit equal data queues a request, or is refused at 4,096; the arbiter learns an absent key, moves an entry, counts
a flap inside the hold time, leaves a static entry, and refuses a key with a staged change. -/
def Obligations.ExactLookupsAndLearning : Prop :=
  (∀ (k : Nat) (err : XErr) (s : State),
    (s.lookup k .exact = none → exec (.exactLookup k err) s = .next s) ∧
    (∀ l, s.lookup k .exact = some l →
      (s.xEnabled l.vslot l.tid = false → exec (.exactLookup k err) s = .next (s.answer k (errRes 2))) ∧
      (s.xEnabled l.vslot l.tid = true → l.key.length ≠ s.cfgV l.vslot (XMT_TBL_CFG_KLEN (tp l.tid) (ti l.tid)) →
        exec (.exactLookup k err) s = .next (s.answer k (errRes 1))) ∧
      (s.xEnabled l.vslot l.tid = true → l.key.length = s.cfgV l.vslot (XMT_TBL_CFG_KLEN (tp l.tid) (ti l.tid)) →
        (∀ w : Bool, ∃ t, exec (.exactLookup k (.bucket w)) s = .next t ∧ t.lkp = (s.answer k (errRes 3)).lkp ∧
          t.get XMT_ECC_CNT_UNCOR = min (s.get XMT_ECC_CNT_UNCOR + 1) (2 ^ 16 - 1) ∧ t.get ⟨0x430010, 0, 1⟩ = 1 ∧
          (∀ e ∈ t.xmt.entries, e ∈ s.xmt.entries ∧ ∀ n, ¬ (e.tid = l.tid ∧
            e.place = .bucket (b2n w) ((s.xgeoV l.vslot l.tid).bucket (b2n w) l.key) n)) ∧ t.frames = s.frames ∧ t.kept = s.kept) ∧
        (s.readsBad (s.xgeoV l.vslot l.tid) l.key = false →
          (∀ e, s.xfind l.tid l.key l.vslot (fun e => !e.badPar.contains (quarterOf l.wks)) = some e →
            ∃ t, exec (.exactLookup k .good) s = .next t ∧ t.lkp = (s.answer k (hitRes e)).lkp ∧
              t.xmt.entries.length = s.xmt.entries.length ∧ { e with h := true } ∈ t.xmt.entries ∧
              (∀ x ∈ s.xmt.entries, x.place ≠ e.place → x ∈ t.xmt.entries) ∧ t.regs = s.regs ∧ t.frames = s.frames ∧ t.kept = s.kept) ∧
          (s.xfind l.tid l.key l.vslot = none → exec (.exactLookup k .good) s = .next (s.answer k missRes)))))) ∧
  (∀ (k : Nat) (s : State),
    (s.lookup k .learn = none → exec (.learnLookup k) s = .next s) ∧
    (∀ (l : Lookup) (n : Nat), s.lookup k .learn = some l → n = s.cfgV l.vslot (XMT_TBL_CFG_KLEN (tp l.tid) (ti l.tid)) →
      (s.xEnabled l.vslot l.tid = false → exec (.learnLookup k) s = .next (s.answer k (errRes 2))) ∧
      (s.xEnabled l.vslot l.tid = true → s.cfgV l.vslot (XMT_TBL_CFG_FMT (tp l.tid) (ti l.tid)) = 0 →
        s.cfgV l.vslot (XMT_TBL_CFG_LRN_EN (tp l.tid) (ti l.tid)) = 1 → l.key.length = n + 6 →
        s.readsBad (s.xgeoV l.vslot l.tid) (l.key.take n) = false →
        (∀ e, s.xfind l.tid (l.key.take n) l.vslot (fun e => !e.badPar.contains (quarterOf l.wks)) = some e → e.data = l.key.drop n →
          ∃ t, exec (.learnLookup k) s = .next t ∧ t.lkp = (s.answer k (hitRes e)).lkp ∧ { e with h := true } ∈ t.xmt.entries ∧
            t.xmt.learnQ = s.xmt.learnQ ∧ t.regs = s.regs ∧ t.kept = s.kept) ∧
        (s.xfind l.tid (l.key.take n) l.vslot (fun e => !e.badPar.contains (quarterOf l.wks)) = none →
          (s.xmt.learnQ.length < 4096 → ∃ t, exec (.learnLookup k) s = .next t ∧ t.lkp = (s.answer k missRes).lkp ∧
            t.xmt.learnQ = s.xmt.learnQ ++ [⟨l.tid, l.key.take n, l.key.drop n, l.t, l.iport, s.now⟩] ∧
            t.xmt.entries = s.xmt.entries ∧ t.regs = s.regs ∧ t.kept = s.kept) ∧
          (4096 ≤ s.xmt.learnQ.length → ∃ t, exec (.learnLookup k) s = .next t ∧ t.lkp = (s.answer k (errRes 4)).lkp ∧
            t.get ⟨0x430014, 4, 1⟩ = 1 ∧ t.xmt = s.xmt ∧ t.frames = s.frames ∧ t.kept = s.kept))))) ∧
  (∀ s : State,
    (s.nextLearn = none → exec .learnDecision s = .next s) ∧
    (∀ r, s.nextLearn = some r → s.get XMT_LRN_CFG_NOTIFY = 1 → (s.cring (s.get XMT_LRN_CFG_CRING)).canTake = false →
      exec .learnDecision s = .next s) ∧
    (∀ r, s.nextLearn = some r → s.get XMT_LRN_CFG_NOTIFY = 0 → r.tid < 256 →
      ((s.xmt.entries.any fun e => e.tid == r.tid && e.key == r.key) = false → ∀ i,
        freeSlot s.xmt.entries (s.xgeo r.tid) 0 ((s.xgeo r.tid).bucket 0 r.key) = some i →
        ∃ t, exec .learnDecision s = .next t ∧ t.xmt.learnQ = s.xmt.learnQ.erase r ∧
          t.xmt.entries = s.xmt.entries ++ [{
            tid := r.tid
            key := r.key
            data := r.data
            l := true
            last := some r.t
            idle := s.now
            epoch := s.epoch s.newest
            place := .bucket 0 ((s.xgeo r.tid).bucket 0 r.key) i }] ∧
          t.get (XMT_TBL_LEARNS_LEARNS (tp r.tid) (ti r.tid)) =
            min (s.get (XMT_TBL_LEARNS_LEARNS (tp r.tid) (ti r.tid)) + 1) (2 ^ 32 - 1) ∧ t.kept = s.kept) ∧
      (∀ e, s.xmt.entries.filter (fun e => e.tid == r.tid && e.key == r.key) = [e] → e.v.pend = false → e.v.delBy = none → e.v.sup = false →
        s.xfind r.tid r.key s.newest = some e →
        (e.s = true → ∃ t, exec .learnDecision s = .next t ∧ t.xmt.learnQ = s.xmt.learnQ.erase r ∧ t.xmt.entries = s.xmt.entries ∧
          t.regs = s.regs ∧ t.kept = s.kept) ∧
        (e.s = false → e.data ≠ r.data → ∀ t0, e.last = some t0 →
          (r.t < t0 + min 1000 (s.get (XMT_TBL_LRN_MOVE_HOLD (tp r.tid) (ti r.tid))) * 1000000 →
            ∃ t, exec .learnDecision s = .next t ∧ t.xmt.entries = s.xmt.entries ∧ t.xmt.learnQ = s.xmt.learnQ.erase r ∧
              t.get (XMT_TBL_FLAPS_FLAPS (tp r.tid) (ti r.tid)) = min (s.get (XMT_TBL_FLAPS_FLAPS (tp r.tid) (ti r.tid)) + 1) (2 ^ 32 - 1) ∧
              t.get ⟨0x430014, 2, 1⟩ = 1 ∧ t.kept = s.kept) ∧
          (t0 + min 1000 (s.get (XMT_TBL_LRN_MOVE_HOLD (tp r.tid) (ti r.tid))) * 1000000 ≤ r.t →
            ∃ t, exec .learnDecision s = .next t ∧
              { e with
                data := r.data
                l := true
                last := some r.t } ∈ t.xmt.entries ∧
              t.xmt.entries.filter (fun x => !(x.tid == r.tid && x.key == r.key)) =
                s.xmt.entries.filter (fun x => !(x.tid == r.tid && x.key == r.key)) ∧ t.xmt.learnQ = s.xmt.learnQ.erase r ∧
              t.get (XMT_TBL_MOVES_MOVES (tp r.tid) (ti r.tid)) = min (s.get (XMT_TBL_MOVES_MOVES (tp r.tid) (ti r.tid)) + 1) (2 ^ 32 - 1) ∧
              t.kept = s.kept))) ∧
      ((s.xmt.entries.any fun e => e.tid == r.tid && e.key == r.key && (e.v.pend || e.v.delBy.isSome)) = true →
        ∃ t, exec .learnDecision s = .next t ∧ t.xmt.entries = s.xmt.entries ∧ t.xmt.learnQ = s.xmt.learnQ.erase r ∧
          t.get (XMT_TBL_LFAIL_LFAIL (tp r.tid) (ti r.tid)) = min (s.get (XMT_TBL_LFAIL_LFAIL (tp r.tid) (ti r.tid)) + 1) (2 ^ 32 - 1) ∧
          t.get ⟨0x430014, 4, 1⟩ = 1 ∧ t.kept = s.kept)))

/-- XMT_JOB_START, XMT_JOB_ABORT, XMT_JOB_RECORD, REHASH_COMPLETE, STASH_REPLACE, BANK_UTIL_WINDOW, REPLICA_FREE, ENTRY_DEMOTE, ENTRY_PROMOTE,
ASSAYER_RECORD and PARITY_REWRITE (R176, R177, R185, R186, R189, R190, R192, R193, R195): a START locks the table or is refused; a bad record
gets its RESULT and changes no entry; an INSERT stages one copy; a rehash ends with new seeds or with nothing moved; entries and extents move as
the placement rules say; the Assayer counts and repairs. -/
def Obligations.TableJobsAndPlacement : Prop :=
  (∀ (i : Fin 5) (tid : Fin 256) (n : BitVec 16) (s : State), s.reaches i XMT_JOB_CMD = true →
    (∀ j, s.xmt.job = some j → exec (.xmtJobStart i tid n) s = .next (s.set XMT_JOB_STAT_REJ (if j.tid = tid then 3 else 7))) ∧
    (s.xmt.job = none → n ≠ 0 →
      ∃ t, exec (.xmtJobStart i tid n) s = .next t ∧ t.get XMT_JOB_STAT_RUNNING = 1 ∧ t.get XMT_JOB_STAT_REJ = 0 ∧
        t.get XMT_JOB_STAT_RESULT = 0 ∧ t.get XMT_JOB_STAT_DONE = 0 ∧ t.get (XMT_TBL_STAT_LOCK (tp tid) (ti tid)) = 1 ∧
        t.xmt = { s.xmt with job := some {
          tid := tid
          addr := s.get XMT_JOB_ADDR_LO_ADDR / 64 * 64 + 2 ^ 32 * s.get XMT_JOB_ADDR_HI_ADDR
          count := n.toNat
          open0 := s.mayStage i
          init := i } } ∧
        (∀ b, b ≠ XMT_JOB_STAT → b ≠ XMT_TBL_STAT (tp tid) (ti tid) → t.rd b = s.rd b) ∧ t.kept = s.kept) ∧
    (s.xmt.job = none → exec (.xmtJobAbort i) s = .next s) ∧
    (∀ j, s.xmt.job = some j → s.xmt.rehash = none →
      ∃ t, exec (.xmtJobAbort i) s = .next t ∧ t.get XMT_JOB_STAT_RUNNING = 0 ∧ t.get XMT_JOB_STAT_RESULT = 4 ∧
        t.get (XMT_TBL_STAT_LOCK (tp j.tid) (ti j.tid)) = 0 ∧ t.get ⟨0x430014, 0, 1⟩ = 1 ∧ t.xmt = { s.xmt with job := none } ∧ t.kept = s.kept) ∧
    (∀ j h, s.xmt.job = some j → s.xmt.rehash = some h →
      ∃ t, exec (.xmtJobAbort i) s = .next t ∧ t.regs = s.regs ∧ t.xmt = { s.xmt with job := some { j with abort := true } } ∧ t.kept = s.kept)) ∧
  (∀ (f : Fetched) (s : State), s.xmt.job = none ∨ s.xmt.rehash.isSome = true → exec (.xmtJobRecord f) s = .next s) ∧
  (∀ (j : Job) (r : List Byte) (klen dlen : Nat) (s : State), s.xmt.job = some j → s.xmt.rehash = none →
    klen = s.get (XMT_TBL_CFG_KLEN (tp j.tid) (ti j.tid)) → dlen = (if s.get (XMT_TBL_CFG_FMT (tp j.tid) (ti j.tid)) = 1 then 12 else 6) →
    (∃ t, exec (.xmtJobRecord .failed) s = .next t ∧ t.get XMT_JOB_STAT_RUNNING = 0 ∧ t.get XMT_JOB_STAT_RESULT = 5 ∧ t.xmt.job = none ∧
      t.get HIF_DMA_ERR_DMA_ERR = min (s.get HIF_DMA_ERR_DMA_ERR + 1) (2 ^ 32 - 1) ∧ t.xmt.entries = s.xmt.entries ∧ t.kept = s.kept) ∧
    (xmtBadRec r klen dlen = true → j.abort = false → j.next + 1 < j.count →
      ∃ t, exec (.xmtJobRecord (.bytes r)) s = .next t ∧ t.hostWrites = s.hostWrites ++ [(j.addr + 64 * j.next + 2, [6])] ∧
        t.get XMT_JOB_STAT_DONE = (j.next + 1) % 2 ^ 16 ∧ t.xmt = { s.xmt with job := some { j with next := j.next + 1 } } ∧ t.kept = s.kept) ∧
    (xmtBadRec r klen dlen = false → byteAt r 0 ≤ 3 → j.open0 = false ∨ s.txnState j.init = .idle ∨ s.txnState j.init = .committing →
      ∃ t, exec (.xmtJobRecord (.bytes r)) s = .next t ∧ t.get XMT_JOB_STAT_RESULT = 2 ∧ t.xmt.job = none ∧ t.xmt.entries = s.xmt.entries ∧
        t.hostWrites = s.hostWrites ∧ t.kept = s.kept) ∧
    (xmtBadRec r klen dlen = false → byteAt r 0 = 1 → j.open0 = true → s.txnState j.init = .opened → s.cascadeRefuses j.init = false →
      j.abort = false → j.next + 1 < j.count → (s.xmt.entries.any fun e => e.tid == j.tid && e.key == bytesAt r 8 klen) = false →
      ∀ n, freeSlot s.xmt.entries (s.xgeo j.tid) 0 ((s.xgeo j.tid).bucket 0 (bytesAt r 8 klen)) = some n →
      ∃ t, exec (.xmtJobRecord (.bytes r)) s = .next t ∧ t.hostWrites = s.hostWrites ++ [(j.addr + 64 * j.next + 2, [1])] ∧
        t.xmt.entries = s.xmt.entries ++ [{
          tid := j.tid
          key := bytesAt r 8 klen
          data := bytesAt r 48 dlen
          s := bit (byteAt r 1) 2
          v := { pend := true, bslot := j.init }
          idle := s.now
          place := .bucket 0 ((s.xgeo j.tid).bucket 0 (bytesAt r 8 klen)) n }] ∧ t.kept = s.kept)) ∧
  (∀ s : State,
    (s.xmt.rehash = none → exec .rehashComplete s = .next s) ∧
    (∀ (h : Rehash) (j : Job) (g : XGeo), s.xmt.rehash = some h → s.xmt.job = some j → j.count ≤ j.next + 1 → j.abort = false →
      g = { s.xgeo h.tid with
        seed0 := BitVec.ofNat 32 h.seed0
        seed1 := BitVec.ofNat 32 h.seed1 } → s.get XMT_PLACE_STAT_FREE_EXT + g.extents < 4096 → h.tid < 256 → j.tid < 256 →
      (rehashPlace [] g (s.xmt.entries.filter fun e => e.tid == h.tid && e.place != .ext) [] = none →
        ∃ t, exec .rehashComplete s = .next t ∧ t.xmt.entries = s.xmt.entries ∧ t.rd (XMT_TBL_SEED0 (tp h.tid) (ti h.tid)) =
            s.rd (XMT_TBL_SEED0 (tp h.tid) (ti h.tid)) ∧ t.get XMT_PLACE_STAT_FREE_EXT = s.get XMT_PLACE_STAT_FREE_EXT + g.extents ∧
          t.hostWrites = s.hostWrites ++ [(h.recAddr + 2, [4])] ∧ t.get XMT_JOB_STAT_RUNNING = 0 ∧ t.get XMT_JOB_STAT_RESULT = 1 ∧
          t.xmt.rehash = none ∧ t.kept = s.kept) ∧
      (∀ es, rehashPlace [] g (s.xmt.entries.filter fun e => e.tid == h.tid && e.place != .ext) [] = some es →
        ∃ t, exec .rehashComplete s = .next t ∧
          t.xmt.entries = s.xmt.entries.filter (fun e => !(e.tid == h.tid && e.place != .ext)) ++ es ∧
          t.rd (XMT_TBL_SEED0 (tp h.tid) (ti h.tid)) = BitVec.ofNat 32 h.seed0 ∧
          t.rd (XMT_TBL_SEED1 (tp h.tid) (ti h.tid)) = BitVec.ofNat 32 h.seed1 ∧
          t.get XMT_PLACE_STAT_FREE_EXT = s.get XMT_PLACE_STAT_FREE_EXT + g.extents ∧
          t.hostWrites = s.hostWrites ++ [(j.addr + 64 * j.next + 2, [1])] ∧ t.get XMT_JOB_STAT_RESULT = 1 ∧ t.xmt.rehash = none ∧
          t.kept = s.kept))) ∧
  (∀ (tid : Fin 256) (e : XEntry) (i n : Nat) (s : State),
    s.xmt.entries.filter (fun x => x.tid == tid.val && (match x.place with | .stash _ => true | _ => false)) = [e] → e.place = .stash i → i < 1024 →
    freeSlot s.xmt.entries (s.xgeo tid) 0 ((s.xgeo tid).bucket 0 e.key) = some n →
    ∃ t, exec (.stashReplace tid) s = .next t ∧ t.xmt.entries = s.xmt.entries.map (fun x => if x.place = .stash i then { x with
        place := .bucket 0 ((s.xgeo tid).bucket 0 e.key) n } else x) ∧ t.regs = s.regs ∧ t.xmt.learnQ = s.xmt.learnQ ∧ t.kept = s.kept) ∧
  (∀ s : State, (∀ b, b < 256 → s.bankPct b ≤ s.get XMT_PLACE_CFG_HOT_PCT) →
    ∃ t, exec .bankUtilWindow s = .next t ∧ t.xmt.bankAcc = [] ∧ t.xmt.entries = s.xmt.entries ∧ t.regs = s.regs ∧
      t.xmt.replicas = s.xmt.replicas.map (fun r =>
        if s.bankPct r.bank < s.get XMT_PLACE_CFG_COLD_PCT ∧ s.bankPct r.hot < s.get XMT_PLACE_CFG_COLD_PCT then r
        else { r with coldSince := s.now }) ∧ t.kept = s.kept) ∧
  (∀ (b : Fin 256) (s : State), s.get XMT_PLACE_CFG_HOT_PCT < s.bankPct b →
    (∀ x, x < 256 → x ≠ b.val → s.bankPct x ≤ s.get XMT_PLACE_CFG_HOT_PCT) →
    s.get XMT_PLACE_STAT_FREE_EXT ≠ 0 → (s.xmt.replicas.filter fun r => r.hot == b.val).length < 3 →
    ∃ t, exec .bankUtilWindow s = .next t ∧ t.get XMT_PLACE_STAT_FREE_EXT = s.get XMT_PLACE_STAT_FREE_EXT - 1 ∧
      t.get XMT_PLACE_STAT_REPL_EXT = min (s.get XMT_PLACE_STAT_REPL_EXT + 1) (2 ^ 12 - 1) ∧
      t.xmt.replicas.length = s.xmt.replicas.length + 1 ∧ t.xmt.bankAcc = [] ∧ t.xmt.entries = s.xmt.entries ∧ t.kept = s.kept) ∧
  (∀ (b : Fin 256) (s : State),
    ((∀ r ∈ s.xmt.replicas, r.bank ≠ b ∨ s.now - r.coldSince < 100000000) → exec (.replicaFree b) s = .next s) ∧
    (∀ r, s.xmt.replicas = [r] → r.bank = b → 100000000 ≤ s.now - r.coldSince →
      ∃ t, exec (.replicaFree b) s = .next t ∧ t.xmt = { s.xmt with replicas := [] } ∧
        t.get XMT_PLACE_STAT_FREE_EXT = min (s.get XMT_PLACE_STAT_FREE_EXT + 1) (2 ^ 12 - 1) ∧
        t.get XMT_PLACE_STAT_REPL_EXT = s.get XMT_PLACE_STAT_REPL_EXT - 1 ∧ t.kept = s.kept)) ∧
  (∀ (tid : Fin 256) (e : XEntry) (w b n : Nat) (s : State), e ∈ s.xmt.entries → e.tid = tid → e.place = .bucket w b n → e.h = false →
    s.get XMT_PLACE_CFG_DEMOTE_MS ≠ 0 → s.get XMT_PLACE_CFG_DEMOTE_MS * 1000000 ≤ s.now - e.idle →
    s.get (XMT_TBL_CFG_EXT_EN (tp tid) (ti tid)) = 1 → (s.xgeo tid).large = true →
    9 * (2 * (s.xgeo tid).b * (s.xgeo tid).s) < s.sramUse tid * 10 → s.extUse < s.extLimit →
    ∃ t x, exec (.entryDemote tid) s = .next t ∧ x ∈ s.xmt.entries ∧ x.tid = tid ∧ x.h = false ∧
      s.get XMT_PLACE_CFG_DEMOTE_MS * 1000000 ≤ s.now - x.idle ∧ (∃ w' b' n', x.place = .bucket w' b' n') ∧
      t = { s with xmt := { s.xmt with entries := s.xmt.entries.map fun y => if y = x then { y with place := .ext } else y } }) ∧
  (∀ (tid : Fin 256) (s : State), s.get (XMT_TBL_CFG_EXT_EN (tp tid) (ti tid)) ≠ 1 ∨ s.extLimit ≤ s.extUse →
    exec (.entryDemote tid) s = .next s) ∧
  (∀ (tid : Fin 256) (s : State),
    ((∀ e ∈ s.xmt.entries, e.tid = tid → e.place = .ext → e.h = false) → exec (.entryPromote tid) s = .next s) ∧
    (∀ e n, s.xmt.entries.filter (fun e => e.tid == tid.val && e.place == .ext && e.h) = [e] →
      freeSlot s.xmt.entries (s.xgeo tid) 0 ((s.xgeo tid).bucket 0 e.key) = some n →
      exec (.entryPromote tid) s = .next { s with xmt := { s.xmt with entries := s.xmt.entries.map fun x =>
        if x = e then { x with place := .bucket 0 ((s.xgeo tid).bucket 0 e.key) n } else x } })) ∧
  (∀ (f : Fetched) (s : State), s.get XMT_ASY_CFG_EN ≠ 1 → exec (.assayerRecord f) s = .next s) ∧
  (∀ (tid : Fin 256) (r : List Byte) (s : State), s.get XMT_ASY_CFG_EN = 1 → s.xmt.asy.active = true → s.xmt.asy.tid = tid →
    s.assayable tid = true → s.xmt.asy.idx + 1 < s.get (XMT_TBL_SHADOW_CNT_COUNT (tp tid) (ti tid)) → bit (byteAt r 1) 0 = true →
    precedes (s.get LDG_EPOCH_EPOCH) (leNat (bytesAt r 4 4)) = false → s.get (XMT_TBL_CFG_FMT (tp tid) (ti tid)) = 0 →
    ∀ key, key = bytesAt r 8 (s.get (XMT_TBL_CFG_KLEN (tp tid) (ti tid))) →
      (s.xfind tid key s.newest = none → s.get XMT_ASY_CFG_REPAIR = 0 →
        ∃ t, exec (.assayerRecord (.bytes r)) s = .next t ∧ t.xmt.asy.idx = s.xmt.asy.idx + 1 ∧ t.xmt.entries = s.xmt.entries ∧
          t.get XMT_MISSING_MISSING = min (s.get XMT_MISSING_MISSING + 1) (2 ^ 32 - 1) ∧
          t.get XMT_REPAIRED_REPAIRED = s.get XMT_REPAIRED_REPAIRED ∧ t.kept = s.kept) ∧
      (∀ e, s.xfind tid key s.newest = some e → e.data = bytesAt r 48 6 →
        ∃ t, exec (.assayerRecord (.bytes r)) s = .next t ∧ t.xmt.asy.idx = s.xmt.asy.idx + 1 ∧ t.regs = s.regs ∧
          t.xmt.entries = s.xmt.entries.map (fun x => if x = e then { x with a := true } else x) ∧ t.kept = s.kept) ∧
      (∀ e, s.xfind tid key s.newest = some e → e.data ≠ bytesAt r 48 6 → e.l = false → s.get XMT_ASY_CFG_REPAIR = 1 →
        s.xHasStaged tid key = false →
        ∃ t, exec (.assayerRecord (.bytes r)) s = .next t ∧ t.get XMT_DIFFERENT_DIFFERENT = min (s.get XMT_DIFFERENT_DIFFERENT + 1) (2 ^ 32 - 1) ∧
          t.get XMT_REPAIRED_REPAIRED = min (s.get XMT_REPAIRED_REPAIRED + 1) (2 ^ 32 - 1) ∧
          t.xmt.entries = s.xmt.entries.map (fun x => if x = e then { x with
            a := true
            data := bytesAt r 48 6 } else x) ∧ t.kept = s.kept)) ∧
  (∀ (tid : Fin 256) (s : State),
    ((∀ e ∈ s.xmt.entries, e.tid = tid → e.badPar = []) → exec (.parityRewrite tid) s = .next s) ∧
    (∀ e, s.xmt.entries.filter (fun e => e.tid == tid.val && !e.badPar.isEmpty) = [e] →
      ((∃ q, q < 4 ∧ e.badPar.contains q = false) → exec (.parityRewrite tid) s = .next { s with xmt := { s.xmt with
        entries := s.xmt.entries.map fun x => if x = e then { x with badPar := [] } else x } }) ∧
      ((∀ q, q < 4 → e.badPar.contains q = true) → exec (.parityRewrite tid) s = .next { s with xmt := { s.xmt with
        entries := s.xmt.entries.erase e } })))

/-! ### 10: routes, objects and the associative search -/

/-- LPM_LOOKUP, CONE_DEMOTE, CONE_PROMOTE, LPM_NODE_REBUILD, LPM_JOB_START, LPM_JOB_ABORT and LPM_JOB_RECORD (R200, R201, R203, R204, R215): the
answer is the longest visible prefix of the VRF; an uncorrectable node answers ERROR 3 until it is rebuilt; the cone of the oldest hit moves out
above DEMOTE_PCT and the one of most hits moves back; a job starts or is BUSY, and its records stage routes. -/
def Obligations.RoutesFollowTheLongestPrefix : Prop :=
  (∀ (k vrf a : Nat) (v6 : Bool) (r : Route) (s : State), s.lpmFind k v6 vrf a = some r →
    r ∈ s.lpm.routes ∧ r.v6 = v6 ∧ r.vrf = vrf ∧ r.contains a = true ∧ s.visible r.v false k = true ∧
    ∀ x ∈ s.lpm.routes, x.v6 = v6 → x.vrf = vrf → x.contains a = true → s.visible x.v false k = true → x.plen ≤ r.plen) ∧
  (∀ (k : Nat) (err : LErr) (s : State),
    (s.lookup k .lpm = none → exec (.lpmLookup k err) s = .next s) ∧
    (∀ l, s.lookup k .lpm = some l →
      (s.cfgV l.vslot (ctlEn lpmPage) ≠ 1 → exec (.lpmLookup k err) s = .next (s.answer k (errRes 2))) ∧
      (s.cfgV l.vslot (ctlEn lpmPage) = 1 → (l.key.length ≠ 6 ∧ l.key.length ≠ 18) ∨ 16384 ≤ beNat (l.key.take 2) →
        exec (.lpmLookup k err) s = .next (s.answer k (errRes 1))) ∧
      (∀ v6 : Bool, s.cfgV l.vslot (ctlEn lpmPage) = 1 → l.key.length = (if v6 = true then 18 else 6) → beNat (l.key.take 2) < 16384 →
        (∀ d, ∃ t, exec (.lpmLookup k (.node d)) s = .next t ∧ t.lkp = (s.answer k (errRes 3)).lkp ∧
          t.get LPM_ECC_CNT_UNCOR = min (s.get LPM_ECC_CNT_UNCOR + 1) (2 ^ 16 - 1) ∧ t.get ⟨0x420010, 0, 1⟩ = 1 ∧
          t.lpm.badNodes.length = s.lpm.badNodes.length + 1 ∧ t.lpm.routes = s.lpm.routes ∧ t.kept = s.kept) ∧
        (s.lpm.badNodes = [] →
          (s.lpmFind l.vslot v6 (beNat (l.key.take 2)) (beNat (l.key.drop 2)) = none →
            exec (.lpmLookup k .good) s = .next (s.answer k missRes)) ∧
          (∀ r, s.lpmFind l.vslot v6 (beNat (l.key.take 2)) (beNat (l.key.drop 2)) = some r →
            (∃ t, exec (.lpmLookup k .good) s = .next t ∧ t.lkp = (s.answer k (routeRes r)).lkp ∧ t.lpm.routes = s.lpm.routes ∧
              t.regs = s.regs ∧ t.frames = s.frames ∧ t.kept = s.kept) ∧
            (∃ t, exec (.lpmLookup k .route) s = .next t ∧ t.lkp = (s.answer k (errRes 3)).lkp ∧ t.lpm.routes = s.lpm.routes.erase r ∧
              t.get LPM_ECC_CNT_UNCOR = min (s.get LPM_ECC_CNT_UNCOR + 1) (2 ^ 16 - 1) ∧ t.kept = s.kept)))))) ∧
  (∀ (v6 : Bool) (s : State),
    (s.get LPM_EXT_CFG_EXT_EN ≠ 1 ∨ 100 * s.lpmUse v6 ≤ s.get LPM_EXT_CFG_DEMOTE_PCT * s.lpmCap v6 → exec (.coneDemote v6) s = .next s) ∧
    (∀ c ∈ s.sramCones v6, s.get LPM_EXT_CFG_EXT_EN = 1 → s.get LPM_EXT_CFG_DEMOTE_PCT * s.lpmCap v6 < 100 * s.lpmUse v6 →
      (∀ d ∈ s.sramCones v6, d ≠ c → c.lastHit < d.lastHit) → s.extRoom (s.coneSize c) = true →
      ∃ t, exec (.coneDemote v6) s = .next t ∧
        t.lpm.routes = s.lpm.routes.map (fun r => if r.ofCone c.v6 c.vrf c.top = true then { r with ext := true } else r) ∧
        t.cone c.v6 c.vrf c.top = { c with demoted := true } ∧
        t.get LPM_EXT_MOVES_DEMOTED = min (s.get LPM_EXT_MOVES_DEMOTED + 1) (2 ^ 16 - 1) ∧ t.kept = s.kept) ∧
    ((∀ c ∈ s.lpm.cones, c.v6 = v6 → c.demoted = false) → exec (.conePromote v6) s = .next s) ∧
    (∀ c ∈ s.lpm.cones, c.v6 = v6 → c.demoted = true →
      (∀ d ∈ s.lpm.cones, d ≠ c → d.v6 = v6 → d.demoted = true → s.coneHits d < s.coneHits c) → s.get LPM_EXT_CFG_EXT_EN = 1 →
      100 * (s.lpmUse v6 + s.coneSize c) ≤ s.get LPM_EXT_CFG_PROMOTE_PCT * s.lpmCap v6 →
      ∃ t, exec (.conePromote v6) s = .next t ∧
        t.lpm.routes = s.lpm.routes.map (fun r => if r.ofCone c.v6 c.vrf c.top = true then { r with ext := false } else r) ∧
        t.cone c.v6 c.vrf c.top = { c with demoted := false } ∧
        t.get LPM_EXT_MOVES_PROMOTED = min (s.get LPM_EXT_MOVES_PROMOTED + 1) (2 ^ 16 - 1) ∧ t.kept = s.kept)) ∧
  (∀ (n : Bool × Nat × Nat × Nat) (r : List (Bool × Nat × Nat × Nat)) (s : State), s.lpm.badNodes = n :: r →
    exec .lpmNodeRebuild s = .next { s with lpm := { s.lpm with badNodes := r } }) ∧
  (∀ (i : Fin 5) (n : BitVec 16) (s : State), s.reaches i LPM_JOB_CMD = true →
    (s.lpm.job.isSome = true → exec (.lpmJobStart i n) s = .next (s.set lpmJobRegs.rej 7)) ∧
    (s.lpm.job = none → n ≠ 0 →
      ∃ t, exec (.lpmJobStart i n) s = .next t ∧ t.get lpmJobRegs.running = 1 ∧ t.get lpmJobRegs.rej = 0 ∧ t.get lpmJobRegs.result = 0 ∧
        t.get lpmJobRegs.done = 0 ∧ t.lpm = { s.lpm with job := some (s.newJob lpmJobRegs i n.toNat) } ∧
        (∀ b, b ≠ LPM_JOB_STAT → t.rd b = s.rd b) ∧ t.kept = s.kept) ∧
    (s.lpm.job = none → exec (.lpmJobAbort i) s = .next s) ∧
    (s.lpm.job.isSome = true →
      ∃ t, exec (.lpmJobAbort i) s = .next t ∧ t.get lpmJobRegs.running = 0 ∧ t.get lpmJobRegs.result = 4 ∧ t.get ⟨0x420014, 0, 1⟩ = 1 ∧
        t.lpm = { s.lpm with job := none } ∧ t.kept = s.kept)) ∧
  (∀ (f : Fetched) (s : State), s.lpm.job = none → exec (.lpmJobRecord f) s = .next s) ∧
  (∀ (j : Job) (r : List Byte) (v6 : Bool) (a : Nat) (s : State), s.lpm.job = some j → v6 = bit (byteAt r 1) 0 →
    a = (if v6 = true then beNat (bytesAt r 8 16) else beNat (bytesAt r 8 4)) →
    (∃ t, exec (.lpmJobRecord .failed) s = .next t ∧ t.get lpmJobRegs.running = 0 ∧ t.get lpmJobRegs.result = 5 ∧ t.lpm.job = none ∧
      t.lpm.routes = s.lpm.routes ∧ t.kept = s.kept) ∧
    (lpmBadRec r = true → j.next + 1 < j.count →
      ∃ t, exec (.lpmJobRecord (.bytes r)) s = .next t ∧ t.hostWrites = s.hostWrites ++ [(j.addr + 64 * j.next + 2, [6])] ∧
        t.lpm = { s.lpm with job := some { j with next := j.next + 1 } } ∧ t.kept = s.kept) ∧
    (lpmBadRec r = false → byteAt r 0 = 1 → j.open0 = true → s.txnState j.init = .opened → s.cascadeRefuses j.init = false →
      j.next + 1 < j.count → (s.lpm.routes.any fun x => x.isId v6 (leNat (bytesAt r 4 2)) (byteAt r 3) a) = false →
      s.lpmUse v6 < s.lpmCap v6 →
      (s.cone v6 (leNat (bytesAt r 4 2)) (lead v6 (trimPfx v6 a (byteAt r 3)) (coneBits v6))).demoted = false →
      ∃ t, exec (.lpmJobRecord (.bytes r)) s = .next t ∧ t.hostWrites = s.hostWrites ++ [(j.addr + 64 * j.next + 2, [1])] ∧
        t.lpm.routes = s.lpm.routes ++ [⟨v6, leNat (bytesAt r 4 2), byteAt r 3, trimPfx v6 a (byteAt r 3),
          BitVec.ofNat 32 (leNat (bytesAt r 24 4)), { pend := true, bslot := j.init }, false⟩] ∧ t.kept = s.kept) ∧
    (lpmBadRec r = false → byteAt r 0 = 5 → s.get (LDG_TXN_CTL_READ_STAGED j.init) = 0 → j.next + 1 < j.count →
      ∀ x, s.lpmFind s.newest v6 (leNat (bytesAt r 4 2)) a = some x →
      ∃ t, exec (.lpmJobRecord (.bytes r)) s = .next t ∧ t.hostWrites = s.hostWrites ++ [(j.addr + 64 * j.next + 3, [BitVec.ofNat 8 x.plen]),
          (j.addr + 64 * j.next + 24, leBytes 4 x.data.toNat), (j.addr + 64 * j.next + 2, [1])] ∧
        t.lpm.routes = s.lpm.routes ∧ t.kept = s.kept))

/-- OBJ_LOOKUP, ECMP_LOOKUP, OBJ_JOB_START, OBJ_JOB_ABORT and OBJ_JOB_RECORD (R205, R206, R208, R209, R215, R217): a valid visible object answers HIT
with its part, an ECMP group answers the member of the hashed bucket, an uncorrectable word answers ERROR 3 and marks the copy; a job starts or is
BUSY; a WRITE stages a copy with RESULT UPDATED and a READ of nothing gives NOTFOUND. -/
def Obligations.ObjectsAndGroups : Prop :=
  (∀ (k : Nat) (ecc : Ecc) (s : State),
    (s.lookup k .obj = none → exec (.objLookup k ecc) s = .next s) ∧
    (∀ (l : Lookup) (part index : Nat), s.lookup k .obj = some l → part = bits (beNat l.key) 22 1 → index = bits (beNat l.key) 0 22 →
      (s.cfgV l.vslot (ctlEn objPage) ≠ 1 → exec (.objLookup k ecc) s = .next (s.answer k (errRes 2))) ∧
      (s.cfgV l.vslot (ctlEn objPage) = 1 → l.key.length ≠ 4 ∨ 1 < l.tid ∨ (part = 1 ∧ l.tid = 0) ∨ s.objCapV l.vslot l.tid ≤ index →
        exec (.objLookup k ecc) s = .next (s.answer k (errRes 1))) ∧
      (s.cfgV l.vslot (ctlEn objPage) = 1 → l.key.length = 4 → l.tid ≤ 1 → beNat l.key < 2 ^ 23 → ¬ (part = 1 ∧ l.tid = 0) →
        index < s.objCapV l.vslot l.tid →
        (s.objFind l.vslot l.tid index = none → exec (.objLookup k ecc) s = .next (s.answer k missRes)) ∧
        (∀ c, s.objFind l.vslot l.tid index = some c → c.bad = false →
          exec (.objLookup k .good) s = .next (s.answer k (objRes c part)) ∧
          ∃ t, exec (.objLookup k .uncorrectable) s = .next t ∧ t.lkp = (s.answer k (errRes 3)).lkp ∧
            t.get OBJ_ECC_CNT_UNCOR = min (s.get OBJ_ECC_CNT_UNCOR + 1) (2 ^ 16 - 1) ∧ t.get ⟨0x410010, 0, 1⟩ = 1 ∧
            { c with bad := true } ∈ t.obj.copies ∧ t.frames = s.frames ∧ t.kept = s.kept)))) ∧
  (∀ (k : Nat) (ecc : Ecc) (s : State),
    (s.lookup k .ecmp = none → exec (.ecmpLookup k ecc) s = .next s) ∧
    (∀ l, s.lookup k .ecmp = some l →
      (s.cfgV l.vslot (ctlEn objPage) = 1 → 3 ≤ l.key.length → l.key.length ≤ 42 →
        (s.objFind l.vslot 2 (beNat (l.key.take 2)) = none → exec (.ecmpLookup k ecc) s = .next (s.answer k missRes)) ∧
        (∀ (c : OCopy) (h : Word) (m : Word), s.objFind l.vslot 2 (beNat (l.key.take 2)) = some c → c.bad = false → h = s.ecmpHash l.vslot (l.key.drop 2) →
          c.buckets[h.toNat / 2 ^ (32 - c.logn)]? = some (some m) →
          exec (.ecmpLookup k .good) s = .next (s.answer k (mkRes 1 0 m.toNat (h.toNat / 2 ^ (32 - c.logn) % 4096) h.toNat)))))) ∧
  (∀ (i : Fin 5) (n : BitVec 16) (s : State), s.reaches i OBJ_JOB_CMD = true →
    (s.obj.job.isSome = true → exec (.objJobStart i n) s = .next (s.set objJobRegs.rej 7)) ∧
    (s.obj.job = none → n ≠ 0 →
      ∃ t, exec (.objJobStart i n) s = .next t ∧ t.get objJobRegs.running = 1 ∧ t.get objJobRegs.rej = 0 ∧ t.get objJobRegs.result = 0 ∧
        t.get objJobRegs.done = 0 ∧ t.obj = { s.obj with job := some (s.newJob objJobRegs i n.toNat) } ∧
        (∀ b, b ≠ OBJ_JOB_STAT → t.rd b = s.rd b) ∧ t.kept = s.kept) ∧
    (s.obj.job = none → exec (.objJobAbort i) s = .next s) ∧
    (s.obj.job.isSome = true →
      ∃ t, exec (.objJobAbort i) s = .next t ∧ t.get objJobRegs.running = 0 ∧ t.get objJobRegs.result = 4 ∧ t.get ⟨0x410014, 0, 1⟩ = 1 ∧
        t.obj = { s.obj with job := none } ∧ t.kept = s.kept)) ∧
  (∀ (f g : Fetched) (s : State), s.obj.job = none → exec (.objJobRecord f g) s = .next s) ∧
  (∀ (j : Job) (r : List Byte) (tid index : Nat) (s : State), s.obj.job = some j → tid = byteAt r 3 → index = leNat (bytesAt r 4 4) →
    (∀ f, ∃ t, exec (.objJobRecord .failed f) s = .next t ∧ t.get objJobRegs.running = 0 ∧ t.get objJobRegs.result = 5 ∧ t.obj.job = none ∧
      t.obj.copies = s.obj.copies ∧ t.kept = s.kept) ∧
    (byteAt r 0 = 1 → tid = 2 ∨ tid = 3 →
      ∃ t, exec (.objJobRecord (.bytes r) .failed) s = .next t ∧ t.get objJobRegs.result = 5 ∧ t.obj.job = none ∧
        t.get HIF_DMA_ERR_DMA_ERR = min (s.get HIF_DMA_ERR_DMA_ERR + 1) (2 ^ 32 - 1) ∧ t.obj.copies = s.obj.copies ∧ t.kept = s.kept) ∧
    (∀ list, s.objBadRec r [] = false → byteAt r 0 = 1 → tid < 2 → j.open0 = true → s.txnState j.init = .opened → s.cascadeRefuses j.init = false →
      j.next + 1 < j.count → (s.obj.copies.any fun c => c.tid == tid && c.index == index) = false →
      ∃ t, exec (.objJobRecord (.bytes r) (.bytes list)) s = .next t ∧ t.hostWrites = s.hostWrites ++ [(j.addr + 64 * j.next + 2, [2])] ∧
        t.obj.copies = s.obj.copies ++ [{
          tid := tid
          index := index
          data := bytesAt r 8 (if tid = 0 then 12 else 24)
          v := { pend := true, bslot := j.init } }] ∧ t.kept = s.kept) ∧
    (∀ list, s.objBadRec r [] = false → byteAt r 0 = 4 → j.next + 1 < j.count → (s.obj.copies.any fun c => c.tid == tid && c.index == index) = false →
      ∃ t, exec (.objJobRecord (.bytes r) (.bytes list)) s = .next t ∧ t.hostWrites = s.hostWrites ++ [(j.addr + 64 * j.next + 2, [3])] ∧
        t.obj.copies = s.obj.copies ∧ t.kept = s.kept))

/-- ACS_SEARCH, ACS_ROW_REWRITE, ACS_SCRUB, ACS_SUMMARY_RECOMPUTE, ACS_RULESTORE_REWRITE, ACS_JOB_START, ACS_JOB_ABORT and ACS_JOB_RECORD (R222, R223,
R224, R225, R226, R227, R228, R230, R231, R235): a search answers the matching rule's action and position, and a deny marks the frame; a row that
wrongly hits counts a false hit, queues a rewrite and the search repeats; the scrubber queues a differing group; a bad entry is rewritten or
invalidated; an INSERT stages a pending copy. -/
def Obligations.SearchesAnswerTheirRule : Prop :=
  (∀ (k : Nat) (hits misses : List (Nat × Nat × Nat)) (ecc : Ecc) (s : State),
    (s.lookup k .acs = none → exec (.acsSearch k hits misses ecc) s = .next s) ∧
    (∀ l, s.lookup k .acs = some l →
      (s.cfgV l.vslot (ctlEn (acsPage 0)) ≠ 1 → exec (.acsSearch k hits misses ecc) s = .next (s.answer k (errRes 2))) ∧
      (s.cfgV l.vslot (ctlEn (acsPage 0)) = 1 → l.tid < 64 → s.profOn l.vslot l.tid = true →
        l.key.length ≠ 20 * acsG (s.cfgV l.vslot (ACS_PROF_WIDTH l.tid)) → exec (.acsSearch k hits misses ecc) s = .next (s.answer k (errRes 1))))) ∧
  (∀ (k n q : Nat) (l : Lookup) (s : State), s.lookup k .acs = some l → q = quarterOf l.wks → s.cfgV l.vslot (ctlEn (acsPage 0)) = 1 → l.tid < 64 → l.wks < 64 →
    s.profOn l.vslot l.tid = true → l.key.length = 20 * acsG (s.cfgV l.vslot (ACS_PROF_WIDTH l.tid)) → s.profLists l.vslot l.tid = [n] →
    (∀ ecc, (∀ c ∈ s.acs.copies, c.list = n → c.verified l.key l.vslot = false) →
      ∃ t, exec (.acsSearch k [] [] ecc) s = .next t ∧ t.lkp = (s.answer k missRes).lkp ∧ t.acs = s.acs ∧ t.frames = s.frames ∧
        (t.rd (ACS_SRCH_LO q)).toNat + 2 ^ 32 * (t.rd (ACS_SRCH_HI q)).toNat =
          min ((s.rd (ACS_SRCH_LO q)).toNat + 2 ^ 32 * (s.rd (ACS_SRCH_HI q)).toNat + 1) (2 ^ 64 - 1) ∧ t.kept = s.kept) ∧
    (∀ c, s.acs.copies.filter (fun x => x.list == n && x.verified l.key l.vslot) = [c] → c.bad.contains q = false →
      (∀ x ∈ s.acs.copies, x.list = n → x.pos = c.pos → x.copy = c.copy → x = c) →
      (s.enabledBlocks l.vslot n l.key).contains (listBlock (s.listWord l.vslot n) c.pos c.copy) = true →
      ∃ t, exec (.acsSearch k [] [] .good) s = .next t ∧ t.lkp = (s.answer k (mkRes 1 (256 + 65536 * c.pos) c.action.toNat 0 0)).lkp ∧
        t.acs = s.acs ∧
        ((ACS_LIST_CFG_DENY_EN n).of (s.listWord l.vslot n) = 1 → bit c.action.toNat 31 = true → (s.frame l.frame).stage = .pass →
          (t.frame l.frame).acsDeny = true) ∧
        ((ACS_LIST_CFG_DENY_EN n).of (s.listWord l.vslot n) = 0 → t.frames = s.frames) ∧ t.kept = s.kept) ∧
    (∀ p c, (∀ x ∈ s.acs.copies, x.list = n → x.verified l.key l.vslot = false) → p < listPositions (s.listWord l.vslot n) →
      (s.enabledBlocks l.vslot n l.key).contains (listBlock (s.listWord l.vslot n) p c) = true →
      ∃ t, exec (.acsSearch k [(n, p, c)] [] .good) s = .next t ∧ t.lkp = (s.answer k (mkRes 2 4096 0 0 0)).lkp ∧
        t.get (ACS_FALSE_HIT_FALSE_HIT q) = min (s.get (ACS_FALSE_HIT_FALSE_HIT q) + 1) (2 ^ 32 - 1) ∧ t.get ⟨0x400014, 2, 1⟩ = 1 ∧
        t.acs.rewrites = s.acs.rewrites ++ [(⟨q, n, p, c⟩, false)] ∧ t.acs.copies = s.acs.copies ∧ t.frames = s.frames ∧ t.kept = s.kept)) ∧
  (∀ (q : Fin 4) (s : State),
    ((∀ r ∈ s.acs.rewrites, r.1.inst ≠ q) → exec (.acsRowRewrite q) s = .next s) ∧
    (∀ (r : AGroup × Bool) (rs : List (AGroup × Bool)), s.acs.rewrites = r :: rs → r.1.inst = q →
      exec (.acsRowRewrite q) s = .next { s with acs := { s.acs with rewrites := rs } }) ∧
    (∀ f, s.get ACS_SCRUB_CFG_EN ≠ 1 → exec (.acsScrub q f) s = .next s) ∧
    (s.get ACS_SCRUB_CFG_EN = 1 →
      (∃ t, exec (.acsScrub q none) s = .next t ∧ t.acs.rewrites = s.acs.rewrites ∧ t.acs.copies = s.acs.copies ∧
        Tbl.get (fun _ => 0) t.acs.scrubAt q.val = (Tbl.get (fun _ => 0) s.acs.scrubAt q.val + 1) % 65536 ∧
        (∀ b, b ≠ ACS_STAT q → t.rd b = s.rd b) ∧ t.kept = s.kept) ∧
      (∀ g, ∃ t, exec (.acsScrub q (some g)) s = .next t ∧
        t.acs.rewrites = s.acs.rewrites ++ [(⟨q, g.1, g.2.1, g.2.2⟩, true)] ∧ t.acs.copies = s.acs.copies ∧
        t.get (ACS_SCRUB_FIX_SCRUB_FIX q) = min (s.get (ACS_SCRUB_FIX_SCRUB_FIX q) + 1) (2 ^ 32 - 1) ∧ t.get ⟨0x400014, 3, 1⟩ = 1 ∧
        t.kept = s.kept))) ∧
  (∀ s : State,
    (s.acs.stale = [] → exec .acsSummaryRecompute s = .next s) ∧
    (∀ i r, s.acs.stale = i :: r → ∃ t, exec .acsSummaryRecompute s = .next t ∧ t.acs.stale = r ∧
      Tbl.get (fun _ => 0) t.acs.summary i = s.neededSummary (i / 128) (i % 128) ∧
      (∀ x, x ≠ i → Tbl.get (fun _ => 0) t.acs.summary x = Tbl.get (fun _ => 0) s.acs.summary x) ∧ t = { s with acs := t.acs }) ∧
    ((∀ c ∈ s.acs.copies, c.bad = []) → exec .acsRulestoreRewrite s = .next s) ∧
    (∀ c, s.acs.copies.filter (fun c => !c.bad.isEmpty) = [c] →
      ((∃ q, q < 4 ∧ c.bad.contains q = false) → exec .acsRulestoreRewrite s = .next { s with acs := { s.acs with
        copies := s.acs.copies.map fun x => if x = c then { x with bad := [] } else x } }) ∧
      ((∀ q, q < 4 → c.bad.contains q = true) → ∃ t, exec .acsRulestoreRewrite s = .next t ∧ t.acs.copies = s.acs.copies.erase c ∧
        s.staleOf c ∈ t.acs.stale ∧ t = { s with acs := t.acs }))) ∧
  (∀ (i : Fin 5) (n : BitVec 16) (s : State), s.reaches i ACS_JOB_CMD = true →
    (s.acs.job.isSome = true → exec (.acsJobStart i n) s = .next (s.set acsJobRegs.rej 7)) ∧
    (s.acs.job = none → n ≠ 0 →
      ∃ t, exec (.acsJobStart i n) s = .next t ∧ t.get acsJobRegs.running = 1 ∧ t.get acsJobRegs.rej = 0 ∧ t.get acsJobRegs.result = 0 ∧
        t.get acsJobRegs.done = 0 ∧ t.acs = { s.acs with job := some (s.newJob acsJobRegs i n.toNat) } ∧
        (∀ b, b ≠ ACS_JOB_STAT → t.rd b = s.rd b) ∧ t.kept = s.kept) ∧
    (s.acs.job = none → exec (.acsJobAbort i) s = .next s) ∧
    (s.acs.job.isSome = true →
      ∃ t, exec (.acsJobAbort i) s = .next t ∧ t.get acsJobRegs.running = 0 ∧ t.get acsJobRegs.result = 4 ∧ t.get ⟨0x400014, 0, 1⟩ = 1 ∧
        t.acs = { s.acs with job := none } ∧ t.kept = s.kept)) ∧
  (∀ (f : Fetched) (s : State), s.acs.job = none → exec (.acsJobRecord f) s = .next s) ∧
  (∀ (j : Job) (r : List Byte) (l p : Nat) (s : State), s.acs.job = some j → l = byteAt r 3 → p = leNat (bytesAt r 4 4) →
    (∃ t, exec (.acsJobRecord .failed) s = .next t ∧ t.get acsJobRegs.running = 0 ∧ t.get acsJobRegs.result = 5 ∧ t.acs.job = none ∧
      t.acs.copies = s.acs.copies ∧ t.kept = s.kept) ∧
    (s.acsBadRec r = false → byteAt r 0 = 1 → j.open0 = true → s.txnState j.init = .opened → s.cascadeRefuses j.init = false →
      j.next + 1 < j.count → (s.acs.copies.any fun c => c.list == l && c.pos == p) = false →
      ∃ t, exec (.acsJobRecord (.bytes r)) s = .next t ∧ t.hostWrites = s.hostWrites ++ [(j.addr + 256 * j.next + 2, [1])] ∧
        t.acs.copies = s.acs.copies ++ [{
          list := l
          pos := p
          copy := 0
          value := bytesAt r 16 80
          mask := bytesAt r 96 80
          action := BitVec.ofNat 32 (leNat (bytesAt r 176 4))
          pend := some j.init }] ∧ t.kept = s.kept) ∧
    (s.acsBadRec r = false → byteAt r 0 = 3 → j.open0 = true → s.txnState j.init = .opened → s.cascadeRefuses j.init = false →
      j.next + 1 < j.count → (s.acs.copies.any fun c => c.list == l && c.pos == p) = false →
      ∃ t, exec (.acsJobRecord (.bytes r)) s = .next t ∧ t.hostWrites = s.hostWrites ++ [(j.addr + 256 * j.next + 2, [3])] ∧
        t.acs.copies = s.acs.copies ∧ t.kept = s.kept))

/-! ### 11: buffers and virtual output queues -/

/-- BUFFER_GRANT, BUF_INIT_DONE, SPILL_WRITE, SPILL_RETURN, AUDIT_EPOCH_TICK and TALLY_VISIT (R261, R262, R264, R266, R274, R276, R280, R281): a
pool grants its winner the lowest free index and the head enters its head queue; without a free buffer the presented requests wait; a full head
queue drops the frame; an accepted spill write frees the buffer and the oldest spilled frame asks for one again; the Tally frees a leaked buffer. -/
def Obligations.BuffersAreGrantedAndAudited : Prop :=
  (∀ (p : Fin 8) (e : Ecc) (s : State),
    (s.get BUF_STAT_INIT = 0 ∨ s.winner p = none → exec (.bufferGrant p e) s = .next s) ∧
    (∀ q, s.get BUF_STAT_INIT = 1 → s.winner p = some q →
      (s.poolFree p = 0 → ∃ t, exec (.bufferGrant p e) s = .next t ∧ t.buf.units = s.buf.units ∧ t.frames = s.frames ∧
        t.get (BUF_POOL_WAITS_WAITS p) =
          min (s.get (BUF_POOL_WAITS_WAITS p) + ((s.presented p).filter fun x => !x.waited).length) (2 ^ 32 - 1) ∧
        (∀ x ∈ s.presented p, { x with waited := true } ∈ t.buf.reqs) ∧
        t.buf.reqs.length = s.buf.reqs.length ∧ t.kept = s.kept) ∧
      (s.poolFree p ≠ 0 → s.headRefusal q = none → q.requester < 16 → (s.frame q.frame).stamped = false →
        ∃ t, exec (.bufferGrant p e) s = .next t ∧ t.poolFree p = s.poolFree p - 1 ∧ t.get (BUF_POOL_ARB_POINTER p) = q.requester ∧
          (t.frame q.frame).buf = some (p.val, s.lowestFree p) ∧ (t.unit (handle p (s.lowestFree p))).isSome = true ∧
          (t.frame q.frame).stage = .headQ ∧ (t.frame q.frame).vslot = s.ldg.stampSlot ∧
          t.headQ (s.frame q.frame).slice = s.headQ (s.frame q.frame).slice ++ [q.frame] ∧
          t.buf.reqs.length + 1 = s.buf.reqs.length ∧ t.kept = s.kept) ∧
      (s.poolFree p ≠ 0 → s.headRefusal q = some 0x06 → q.requester < 16 → (s.frame q.frame).stage = .waitBuf → (s.frame q.frame).reason = 0 →
        ∃ t, exec (.bufferGrant p e) s = .next t ∧ (t.frame q.frame).stage = .done ∧
          t.get BUF_HQ_DROPS_HQ_DROPS = min (s.get BUF_HQ_DROPS_HQ_DROPS + 1) (2 ^ 32 - 1) ∧
          Tbl.get (fun _ => 0) t.cnt.drop 0x06 = min (Tbl.get (fun _ => 0) s.cnt.drop 0x06 + 1) cntMax ∧
          (∀ x ∈ t.buf.reqs, x.frame ≠ q.frame) ∧ t.prt.hq = s.prt.hq ∧ t.kept = s.kept))) ∧
  (∀ s : State,
    (s.buf.fixed = false ∨ s.get BUF_STAT_INIT = 1 → exec .bufInitDone s = .next s) ∧
    (s.buf.fixed = true → s.get BUF_STAT_INIT = 0 →
      ∃ t, exec .bufInitDone s = .next t ∧ t.get BUF_STAT_INIT = 1 ∧ (∀ p : Fin 8, t.poolFree p = s.get (BUF_POOL_CFG_COUNT_K p) * 1024) ∧
        t = { s with regs := t.regs }) ∧
    (∃ t, exec .auditEpochTick s = .next t ∧ t.get BUF_AUDIT_STAT_EPOCH = (s.get BUF_AUDIT_STAT_EPOCH + 1) % 4096 ∧
      t.get BUF_AUDIT_STAT_PASSES = s.get BUF_AUDIT_STAT_PASSES ∧ (∀ b, b ≠ BUF_AUDIT_STAT → t.rd b = s.rd b) ∧ t = { s with regs := t.regs })) ∧
  (∀ (f : Nat) (s : State),
    ((s.frame f).spill ≠ .writing → exec (.spillWrite f) s = .next s) ∧
    (∀ h u, (s.frame f).spill = .writing → (s.frame f).buf = some h → s.unit (handle h.1 h.2) = some u → u.copies ≤ 1 →
      ∃ t, exec (.spillWrite f) s = .next t ∧ (t.frame f).spill = .spilled ∧ (t.frame f).buf = none ∧ t.unit (handle h.1 h.2) = none ∧
        t.get BUF_SPILLED_SPILLED = min (s.get BUF_SPILLED_SPILLED + 1) (2 ^ 32 - 1) ∧ (∀ i, i ≠ f → t.frame i = s.frame i) ∧
        t.voq = s.voq ∧ t.kept = s.kept)) ∧
  (∀ (v : Fin 131072) (s : State),
    ((∀ id ∈ s.voqQ v, (s.frame id).spill ≠ .writing ∧ (s.frame id).spill ≠ .spilled) → exec (.spillReturn v) s = .next s) ∧
    (∀ id r, s.voqQ v = id :: r → (s.frame id).spill = .spilled → s.stacksUp = true →
      ∃ t, exec (.spillReturn v) s = .next t ∧ (t.frame id).spill = .returning ∧ t.buf.reqs = s.buf.reqs ++ [⟨19, id, (s.frame id).len, false⟩] ∧
        (∀ i, i ≠ id → t.frame i = s.frame i) ∧ t.voq = s.voq ∧ t.regs = s.regs ∧ t.kept = s.kept)) ∧
  (∀ s : State,
    (s.get BUF_AUDIT_CFG_EN = 0 → exec (.tallyVisit none) s = .next s) ∧
    (∀ (h : Nat) (x : BufUnit) (r : Tbl (Option BufUnit)), s.get BUF_AUDIT_CFG_EN = 1 → s.buf.units = (h, some x) :: r → s.buf.tallyAt ≤ h →
      (x.eq = true ∨ s.leaked x.stamp = false →
        exec (.tallyVisit none) s = .next { s with buf := { s.buf with tallyAt := h + 1 } }) ∧
      (x.eq = false → s.leaked x.stamp = true →
        ∃ t, exec (.tallyVisit none) s = .next t ∧ t.unit h = none ∧ t.buf.tallyAt = h + 1 ∧
          t.get (BUF_POOL_LEAKS_LEAKS (h / 2 ^ 22 % 8)) = min (s.get (BUF_POOL_LEAKS_LEAKS (h / 2 ^ 22 % 8)) + 1) (2 ^ 32 - 1) ∧
          t.get (BUF_POOL_FREE_FREE (h / 2 ^ 22 % 8)) = min (s.get (BUF_POOL_FREE_FREE (h / 2 ^ 22 % 8)) + 1) (2 ^ 22 - 1) ∧
          t.get ⟨0x200014, 0, 1⟩ = 1 ∧ t.get ⟨0x200010, 2, 1⟩ = 1 ∧ t.frames = s.frames ∧ t.kept = s.kept)) ∧
    (s.get BUF_AUDIT_CFG_EN = 1 → s.buf.units = [] → s.buf.blks = [] →
      ∃ t, exec (.tallyVisit none) s = .next t ∧ t.buf.tallyAt = 0 ∧
        t.get BUF_AUDIT_STAT_PASSES = (s.get BUF_AUDIT_STAT_PASSES + 1) % 2 ^ 16 ∧ t.frames = s.frames ∧ t.kept = s.kept))

/-- VOQ_ENQUEUE, VOQ_DEQUEUE, AGEING_VISIT, DRAIN_RATE_UPDATE, VOQ_MAP_WRITE and VOQ_MAP_READ (R267, R269, R271, R272, R273, R277, R278, R321): an
admitted frame joins the tail of its VOQ and any other is dropped 0x07; a VOQ of positive balance gives its head frame to its destination and its
balance falls by the length; a retired head is discarded 0x0E and an aged one 0x09; a map WRITE changes one entry unless its queues hold frames. -/
def Obligations.VirtualOutputQueuesFollowTheRules : Prop :=
  (∀ (e : Ecc) (s : State), s.voq.enqQ = [] → exec (.voqEnqueue e) s = .next s) ∧
  (∀ (e : Ecc) (id : Nat) (r : List Nat) (s : State), s.voq.enqQ = id :: r → (s.frame id).stage ≠ .done → (s.frame id).reason = 0 →
    ((s.frame id).fcs = some false →
      ∃ t, exec (.voqEnqueue e) s = .next t ∧ (t.frame id).stage = .done ∧ t.voq.enqQ = r ∧ t.voq.q = s.voq.q ∧
        Tbl.get (fun _ => 0) t.cnt.drop 0x01 = min (Tbl.get (fun _ => 0) s.cnt.drop 0x01 + 1) cntMax ∧ t.kept = s.kept) ∧
    ((s.frame id).fcs ≠ some false → s.cfg (ctlEn voqPage) = 1 → (s.frame id).mcast = false → (s.frame id).voqid < mcBase →
      (s.voqDest (s.frame id).voqid = none →
        ∃ t, exec (.voqEnqueue e) s = .next t ∧ (t.frame id).stage = .done ∧ t.voq.enqQ = r ∧ t.voq.q = s.voq.q ∧
          t.get VOQ_INVALID_INVALID = min (s.get VOQ_INVALID_INVALID + 1) (2 ^ 32 - 1) ∧
          t.get VOQ_DROP_LIM_DROP_LIM = min (s.get VOQ_DROP_LIM_DROP_LIM + 1) (2 ^ 32 - 1) ∧
          Tbl.get (fun _ => 0) t.cnt.drop 0x07 = min (Tbl.get (fun _ => 0) s.cnt.drop 0x07 + 1) cntMax ∧ t.kept = s.kept) ∧
      (∀ d, s.voqDest (s.frame id).voqid = some d →
        (s.admits (s.frame id).voqid d.prof (s.frame id) = false →
          ∃ t, exec (.voqEnqueue e) s = .next t ∧ (t.frame id).stage = .done ∧ t.voq.enqQ = r ∧ t.voq.q = s.voq.q ∧
            t.get VOQ_INVALID_INVALID = s.get VOQ_INVALID_INVALID ∧
            t.get VOQ_DROP_LIM_DROP_LIM = min (s.get VOQ_DROP_LIM_DROP_LIM + 1) (2 ^ 32 - 1) ∧
            Tbl.get (fun _ => 0) t.cnt.drop 0x07 = min (Tbl.get (fun _ => 0) s.cnt.drop 0x07 + 1) cntMax ∧ t.kept = s.kept) ∧
        (s.admits (s.frame id).voqid d.prof (s.frame id) = true → s.wouldSpill (s.frame id).voqid id = false →
          ∃ t, exec (.voqEnqueue e) s = .next t ∧ t.voqQ (s.frame id).voqid = s.voqQ (s.frame id).voqid ++ [id] ∧ t.voq.enqQ = r ∧
            (t.frame id).stage = .voq ∧ (t.frame id).etime = s.tbUs % 2 ^ 22 ∧ (∀ v, v ≠ (s.frame id).voqid → t.voqQ v = s.voqQ v) ∧
            (∀ i, i ≠ id → t.frame i = s.frame i) ∧
            (s.voqQ (s.frame id).voqid = [] → d.dev = s.ownDev → t.sch.reports = s.sch.reports ++ [(d.port, d.cls, true)]) ∧
            (s.voqQ (s.frame id).voqid ≠ [] → t.sch = s.sch) ∧ t.kept = s.kept)))) ∧
  (∀ (v : Fin 131072) (e : Ecc) (s : State),
    (s.voqQ v = [] ∨ s.voqDest v = none ∨ s.balance v ≤ 0 → exec (.voqDequeue v .good false e) s = .next s) ∧
    (∀ id r d, s.voqQ v = id :: r → s.voqDest v = some d → 0 < s.balance v → (s.frame id).spill = .none → (s.frame id).ended = true →
      s.egressRoom (s.frame id) d id = true → (d.dev = s.ownDev ∨ s.transitFull = false) →
      (s.get (LDG_SLOT_STAT_GEN (s.frame id).vslot) ≠ (s.frame id).gen → (s.frame id).stage = .voq → (s.frame id).reason = 0 →
        ∃ t, exec (.voqDequeue v .good false e) s = .next t ∧ (t.frame id).stage = .done ∧ t.voqQ v = r.filter (fun i => i != id) ∧
          t.get LDG_RETIRE_DROPS_RETIRE_DROPS = min (s.get LDG_RETIRE_DROPS_RETIRE_DROPS + 1) (2 ^ 32 - 1) ∧
          Tbl.get (fun _ => 0) t.cnt.drop 0x0E = min (Tbl.get (fun _ => 0) s.cnt.drop 0x0E + 1) cntMax ∧ t.kept = s.kept) ∧
      (s.discardReason (s.frame id) d = none → (s.frame id).fcs ≠ some false →
        (d.dev ≠ s.ownDev → ∃ t, exec (.voqDequeue v .good false e) s = .next t ∧ (t.frame id).stage = .dequeued ∧
          (t.frame id).remote = some d.dev ∧ (t.frame id).eport = d.port ∧ t.cly.txq = s.cly.txq ++ [id] ∧
          t.voqQ v = r.filter (fun i => i != id) ∧
          (r.filter (fun i => i != id) ≠ [] → t.balance v = s.balance v - s.qlen (s.frame id)) ∧
          (∀ i, i ≠ id → t.frame i = s.frame i) ∧ t.kept = s.kept) ∧
        (d.dev = s.ownDev → (s.frame id).mcast = false → ∃ t, exec (.voqDequeue v .good false e) s = .next t ∧
          (t.frame id).stage = .egDispatch ∧ (t.frame id).eport = d.port ∧ t.voqQ v = r.filter (fun i => i != id) ∧
          (r.filter (fun i => i != id) ≠ [] → t.balance v = s.balance v - s.qlen (s.frame id)) ∧
          (∀ i, i ≠ id → t.frame i = s.frame i) ∧ t.kept = s.kept)))) ∧
  (∀ (v : Fin 131072) (s : State),
    (s.voqQ v = [] → exec (.ageingVisit v) s = .next s) ∧
    (∀ id r, s.voqQ v = id :: r → s.ageUs (s.frame id) ≤ s.ageLimit → exec (.ageingVisit v) s = .next s) ∧
    (∀ id i r, s.voqQ v = id :: i :: r → s.ageLimit < s.ageUs (s.frame id) → s.ageUs (s.frame i) ≤ s.ageLimit → (s.frame id).stage = .voq →
      (s.frame id).reason = 0 →
      ∃ t, exec (.ageingVisit v) s = .next t ∧ (t.frame id).stage = .done ∧ t.voqQ v = (i :: r).filter (fun x => x != id) ∧
        t.get VOQ_DROP_AGE_DROP_AGE = min (s.get VOQ_DROP_AGE_DROP_AGE + 1) (2 ^ 32 - 1) ∧
        Tbl.get (fun _ => 0) t.cnt.drop 0x09 = min (Tbl.get (fun _ => 0) s.cnt.drop 0x09 + 1) cntMax ∧ t.kept = s.kept)) ∧
  (∀ s : State, ∃ t, exec .drainRateUpdate s = .next t ∧
    (∀ v, Tbl.get (fun _ => 0) t.voq.rate v = (Tbl.get (fun _ => 0) s.voq.rate v - Tbl.get (fun _ => 0) s.voq.rate v / 8 +
      Tbl.get (fun _ => 0) s.voq.deq v / 8) % 2 ^ 32) ∧
    t.voq.deq = [] ∧ t.voq.q = s.voq.q ∧ t = { s with voq := t.voq }) ∧
  (∀ (i : Fin 5) (d : Nat) (w : Word) (s : State), s.reaches i VOQ_MAP_CMD = true → s.get VOQ_MAP_SEL_TBL = 0 → d = s.get VOQ_MAP_SEL_INDEX →
    w = s.rd VOQ_MAP_DATA &&& 0x81FFFFFF →
    (mcBase / s.qpd ≤ d →
      ∃ t, exec (.voqMapWrite i) s = .next t ∧ exec (.voqMapRead i) s = .next t ∧ t.get VOQ_MAP_STAT_RESULT = 3 ∧ t.get ⟨0x300014, 1, 1⟩ = 1 ∧
        t.voq = s.voq ∧ t.rd VOQ_MAP_DATA = s.rd VOQ_MAP_DATA ∧ t.kept = s.kept) ∧
    (d < mcBase / s.qpd →
      (∃ t, exec (.voqMapRead i) s = .next t ∧ t.rd VOQ_MAP_DATA = s.descr d ∧ t.get VOQ_MAP_STAT_RESULT = 1 ∧
        (∀ b, b ≠ VOQ_MAP_DATA → b ≠ VOQ_MAP_STAT → t.rd b = s.rd b) ∧ t = { s with regs := t.regs }) ∧
      ((s.descr d ^^^ w) &&& 0x800FFFFF ≠ 0 → (∃ n, n < s.qpd ∧ s.voqQ (d * s.qpd + n) ≠ []) →
        ∃ t, exec (.voqMapWrite i) s = .next t ∧ t.get VOQ_MAP_STAT_RESULT = 2 ∧ t.get ⟨0x300014, 1, 1⟩ = 1 ∧ t.voq = s.voq ∧ t.kept = s.kept) ∧
      ((∀ n, n < s.qpd → s.voqQ (d * s.qpd + n) = []) → (∀ p ∈ s.voq.dest, p.1 ≠ d → entryValid p.2 = true → p.2 &&& 0xFFFFF ≠ w &&& 0xFFFFF) →
        ∃ t, exec (.voqMapWrite i) s = .next t ∧ t.descr d = w ∧ (∀ x, x ≠ d → t.descr x = s.descr x) ∧ t.get VOQ_MAP_STAT_RESULT = 1 ∧
          t.voq.mc = s.voq.mc ∧ t.voq.q = s.voq.q ∧ (∀ b, b ≠ VOQ_MAP_STAT → t.rd b = s.rd b) ∧ t.kept = s.kept)))

/-! ### 12: the HBM stacks -/

/-- HBM_ACCESS, HBM_ARB_WINDOW, PAGE_IDLE_CLOSE, REFRESH_TICK, MAKEUP_REFRESH, POWER_DOWN_ENTRY, EYE_RECENTRE, HBM_TEMP_READ and HBM_SCRUB (R291, R292,
R293, R294, R297, R298, R299, R302): X goes first inside its reservation and packets before X beyond it; a write stores its bytes and no others and
a read changes none; a corrected and an uncorrectable read are counted and captured; the debt rises to POSTPONE and is then forced, and an idle
pseudo-channel repays it. -/
def Obligations.StacksServeAndRefresh : Prop :=
  (∀ (h : Fin 6) (s : State),
    (s.hq h = [] → ∃ t, exec (.hbmAccess h []) s = .next t ∧ t.hbm = s.hbm ∧ t.regs = s.regs ∧ t.hq h = [] ∧ t.outside = s.outside) ∧
    (∀ l, s.hAvail h = false → s.hq h = [] →
      ∃ t, exec (.hbmAccess h l) s = .next t ∧ t.hbm = s.hbm ∧ t.regs = s.regs ∧ t.hq h = [] ∧ t.outside = s.outside) ∧
    (∀ r, (s.hq h).find? (fun q => q.cls == .x) = some r → s.hServed h .x < s.cfg (HBC_ARB_X_RES h) →
      ∃ t, exec (.hbmAccess h []) s = .next t ∧ t.hq h = (s.hq h).erase r ∧ t.hServed h .x = s.hServed h .x + 1 ∧ t.outside = s.outside) ∧
    (∀ r, (s.hq h).find? (fun q => q.cls == .p) = some r → (∀ q ∈ s.hq h, q.cls = .p ∨ q.cls = .x) → s.cfg (HBC_ARB_X_RES h) ≤ s.hServed h .x →
      ∃ t, exec (.hbmAccess h []) s = .next t ∧ t.hq h = (s.hq h).erase r ∧ t.hServed h .p = s.hServed h .p + 1 ∧ t.outside = s.outside) ∧
    (∀ r d, s.hq h = [r] → r.cls = .p → r.parity = 0 → r.write = some d → d.length ≤ 256 - r.addr % 256 →
      ∃ t, exec (.hbmAccess h []) s = .next t ∧ t.hq h = [] ∧ (∀ k, k < d.length → t.hbmByte (r.addr + k) = (d.getD k 0)) ∧
        (∀ a, a < r.addr ∨ r.addr + d.length ≤ a → t.hbmByte a = s.hbmByte a) ∧
        (t.rd (HBC_P_LO h)).toNat + 2 ^ 32 * (t.rd (HBC_P_HI h)).toNat =
          min ((s.rd (HBC_P_LO h)).toNat + 2 ^ 32 * (s.rd (HBC_P_HI h)).toNat + 1) (2 ^ 64 - 1) ∧ t.frames = s.frames ∧ t.outside = s.outside) ∧
    (∀ r, s.hq h = [r] → r.parity = 0 → r.write = none → r.cls ≠ .x → (r.cls = .d → s.hServed h .d < s.cfg (HBC_ARB_D_MAX h)) → r.addr < hbmEnd →
      (r.ecc = .corrected → ∃ t, exec (.hbmAccess h []) s = .next t ∧ t.hbm = s.hbm ∧
        t.get (HBC_ECC_COR_ECC_COR h) = min (s.get (HBC_ECC_COR_ECC_COR h) + 1) (2 ^ 32 - 1) ∧ t.outside = s.outside) ∧
      (r.ecc = .uncorrectable → ∃ t, exec (.hbmAccess h []) s = .next t ∧ t.hbm = s.hbm ∧
        t.get (HBC_ECC_UNCOR_ECC_UNCOR h) = min (s.get (HBC_ECC_UNCOR_ECC_UNCOR h) + 1) (2 ^ 32 - 1) ∧
        t.get (HBC_ERR_ADDR_LO_ERR_ADDR_LO h) + 2 ^ 32 * t.get (HBC_ERR_ADDR_HI_ERR_ADDR_HI h) = r.addr ∧
        t.get ⟨hbcPage h + 0x10, 0, 1⟩ = 1 ∧ t.get ⟨hbcPage h + 0x14, 3, 1⟩ = 1 ∧ t.outside = s.outside))) ∧
  (∀ s : State, ∃ t, exec .hbmArbWindow s = .next t ∧ (∀ h c, t.hServed h c = 0) ∧ t = { s with hbc := t.hbc }) ∧
  (∀ (h : Fin 6) (p : Fin 64) (b : Fin 48) (s : State),
    ((∃ r ∈ s.hq h, hbmPc r.addr = p ∧ hbmBank r.addr = b) → exec (.pageIdleClose h p b) s = .next s) ∧
    ((∀ r ∈ s.hq h, ¬ (hbmPc r.addr = p ∧ hbmBank r.addr = b)) →
      ∃ t, exec (.pageIdleClose h p b) s = .next t ∧ t.hbank h p b = { s.hbank h p b with opn := false } ∧
        (∀ (x : Fin 6) (y : Fin 64) (z : Fin 48), (x, y, z) ≠ (h, p, b) → t.hbank x y z = s.hbank x y z) ∧ t = { s with hbc := t.hbc })) ∧
  (∀ (h : Fin 6) (p : Fin 64) (s : State),
    (s.hRefreshes h = false → exec (.refreshTick h p) s = .next s ∧ exec (.makeupRefresh h p) s = .next s) ∧
    (s.hRefreshes h = true → (s.hpc h p).debt < s.postpone h →
      ∃ t, exec (.refreshTick h p) s = .next t ∧ t.hpc h p = { s.hpc h p with debt := (s.hpc h p).debt + 1 } ∧ t = { s with hbc := t.hbc }) ∧
    (s.hRefreshes h = true → s.postpone h ≤ (s.hpc h p).debt →
      ∃ t, exec (.refreshTick h p) s = .next t ∧ (t.hpc h p).debt = (s.hpc h p).debt ∧ (t.hpc h p).pd = false ∧
        t.get (HBC_REF_STAT_FORCED h) = min (s.get (HBC_REF_STAT_FORCED h) + 1) (2 ^ 16 - 1) ∧ t.kept = s.kept) ∧
    (s.hRefreshes h = true → s.hqueued h p = false → (s.hpc h p).pd = false → (s.hpc h p).debt ≠ 0 →
      ∃ t, exec (.makeupRefresh h p) s = .next t ∧ (t.hpc h p).debt + 1 = (s.hpc h p).debt ∧ (t.hpc h p).recentre = false ∧
        (∀ y : Fin 64, y ≠ p → t.hpc h y = s.hpc h y) ∧ t = { s with hbc := t.hbc }) ∧
    (s.cfg (HBC_CFG_PD_EN h) = 0 ∨ s.hqueued h p = true → exec (.powerDownEntry h p) s = .next s) ∧
    (s.cfg (HBC_CFG_PD_EN h) = 1 → s.hRefreshes h = true → s.hqueued h p = false →
      max 1 (s.cfg (HBC_CFG_PD_TIMER h)) * 10 ≤ s.now - (s.hpc h p).last →
      ∃ t, exec (.powerDownEntry h p) s = .next t ∧ t.hpc h p = { s.hpc h p with pd := true } ∧ t = { s with hbc := t.hbc })) ∧
  (∀ (h : Fin 6) (s : State),
    (s.hState h ≠ 3 → exec (.eyeRecentre h) s = .next s) ∧
    (s.hState h = 3 → 100000000 ≤ s.now - Tbl.get (fun _ => 0) s.hbc.eyeAt h.val →
      ∃ t, exec (.eyeRecentre h) s = .next t ∧ (∀ p : Fin 64, (t.hpc h p).recentre = true ∧ (t.hpc h p).debt = (s.hpc h p).debt) ∧
        Tbl.get (fun _ => 0) t.hbc.eyeAt h.val = s.now ∧ t = { s with hbc := t.hbc })) ∧
  (∀ (h : Fin 6) (x : BitVec 8) (s : State),
    ∃ t, exec (.hbmTempRead h x) s = .next t ∧ t.get (HBC_TEMP_TEMP h) = x.toNat ∧ t.get (HBC_TEMP_PEAK h) = max (s.get (HBC_TEMP_PEAK h)) x.toNat ∧
      t.get (HBC_TEMP_HOT h) = (if 85 < x.toNat then 1 else 0) ∧
      (95 ≤ x.toNat → t.get ⟨hbcPage h + 0x14, 2, 1⟩ = 1 ∧ t.get ⟨hbcPage h + 0x10, 2, 1⟩ = 1) ∧
      (x.toNat < 95 → ∀ b, b ≠ HBC_TEMP h → t.rd b = s.rd b) ∧ t.hbc = s.hbc ∧ t.kept = s.kept) ∧
  (∀ (h : Fin 6) (e : Ecc) (s : State),
    (s.get (HBC_SCRUB_EN h) = 0 ∨ s.hState h ≠ 3 → exec (.hbmScrub h e) s = .next s) ∧
    (s.get (HBC_SCRUB_EN h) = 1 → s.hState h = 3 →
      ∃ t, exec (.hbmScrub h e) s = .next t ∧ t.hbm = s.hbm ∧
        (t.rd (HBC_C_LO h)).toNat + 2 ^ 32 * (t.rd (HBC_C_HI h)).toNat =
          min ((s.rd (HBC_C_LO h)).toNat + 2 ^ 32 * (s.rd (HBC_C_HI h)).toNat + 1) (2 ^ 64 - 1) ∧
        (e = .uncorrectable → t.get (HBC_ECC_UNCOR_ECC_UNCOR h) = min (s.get (HBC_ECC_UNCOR_ECC_UNCOR h) + 1) (2 ^ 32 - 1)) ∧
        (e = .corrected → t.get (HBC_ECC_COR_ECC_COR h) = min (s.get (HBC_ECC_COR_ECC_COR h) + 1) (2 ^ 32 - 1)) ∧
        scrubFirst h ≤ Tbl.get (fun _ => 0) t.hbc.scrubAt h.val ∧ t.kept = s.kept))

/-- HBC_TRAIN, HBC_TEST, SREF_ENTER, SREF_EXIT, TRAIN_DONE, INIT_DONE, TEST_DONE, RETRAIN_DONE and RECOVER_DONE (R295, R296, R297, R301): each command
is accepted in the states the rules name and sets CMD_ERR in any other; training and test lose the stack's content and no other stack's; INIT
leaves zero data; failing pseudo-channels are marked; self-refresh repays every debt and is left through RECOVERING. -/
def Obligations.StacksFollowTheirStates : Prop :=
  (∀ (i : Fin 5) (h : Fin 6) (s : State), s.reaches i (HBC_CMD h) = true →
    (s.hState h = 0 ∨ s.hState h = 7 ∨ (s.hState h = 3 ∧ s.cfg (ctlEn (hbcPage h)) = 0) →
      ∃ t, exec (.hbcTrain i h) s = .next t ∧ t.hState h = 1 ∧ t.get (HBC_STAT_CMD_ERR h) = 0 ∧ t.get (HBC_STAT_PC_FAILED h) = 0 ∧
        t.get (HBC_PC_FAIL_LO_FAIL h) = 0 ∧ t.get (HBC_PC_FAIL_HI_FAIL h) = 0 ∧
        (∀ a, t.hbmByte a = if hbmStack a = h then 0 else s.hbmByte a) ∧ (∀ x : Fin 6, x ≠ h → t.hState x = s.hState x) ∧
        t.outside = s.outside) ∧
    (¬ (s.hState h = 0 ∨ s.hState h = 7 ∨ (s.hState h = 3 ∧ s.cfg (ctlEn (hbcPage h)) = 0)) →
      exec (.hbcTrain i h) s = .next (s.set (HBC_STAT_CMD_ERR h) 1)) ∧
    (s.hState h = 3 → s.cfg (ctlEn (hbcPage h)) = 0 →
      ∃ t, exec (.hbcTest i h) s = .next t ∧ t.hState h = 4 ∧ t.get (HBC_STAT_CMD_ERR h) = 0 ∧
        (∀ a, t.hbmByte a = if hbmStack a = h then 0 else s.hbmByte a) ∧ (∀ b, b ≠ HBC_STAT h → t.rd b = s.rd b) ∧
        t.outside = s.outside) ∧
    (s.hState h ≠ 3 ∨ s.cfg (ctlEn (hbcPage h)) = 1 → exec (.hbcTest i h) s = .next (s.set (HBC_STAT_CMD_ERR h) 1)) ∧
    (s.hState h = 3 ∨ s.hState h = 6 → s.hq h = [] →
      ∃ t, exec (.srefEnter i h) s = .next t ∧ t.hState h = 5 ∧ t.get (HBC_STAT_CMD_ERR h) = 0 ∧ t.get ⟨hbcPage h + 0x14, 0, 1⟩ = 1 ∧
        (∀ p : Fin 64, (t.hpc h p).debt = 0 ∧ (t.hpc h p).pd = false) ∧ (∀ x : Fin 6, x ≠ h → t.hState x = s.hState x) ∧ t.kept = s.kept) ∧
    (s.hState h ≠ 3 → s.hState h ≠ 6 → exec (.srefEnter i h) s = .next (s.set (HBC_STAT_CMD_ERR h) 1)) ∧
    (s.hState h = 5 → s.safe = false → s.aon.only = false → Tbl.get (fun _ => false) s.hbc.retrain h.val = false →
      ∃ t, exec (.srefExit i h) s = .next t ∧ t.hState h = 6 ∧ t.get (HBC_STAT_CMD_ERR h) = 0 ∧ t.get ⟨hbcPage h + 0x14, 0, 1⟩ = 1 ∧
        (∀ x : Fin 6, x ≠ h → t.hState x = s.hState x) ∧ t.kept = s.kept) ∧
    (s.hState h = 5 → s.safe = true ∨ s.aon.only = true → ∃ t, exec (.srefExit i h) s = .next t ∧ t.hState h = 5 ∧
      t.get (HBC_STAT_CMD_ERR h) = 0 ∧ t.kept = s.kept) ∧
    (s.hState h ≠ 5 → exec (.srefExit i h) s = .next (s.set (HBC_STAT_CMD_ERR h) 1))) ∧
  (∀ (h : Fin 6) (l : BitVec 8) (m : BitVec 64) (s : State),
    (s.hState h ≠ 1 → exec (.trainDone h l m) s = .next s) ∧
    (s.hState h = 1 → ∃ t, exec (.trainDone h l m) s = .next t ∧ t.get (HBC_LANES_LANES h) = l.toNat ∧
      t.hState h = (if m = BitVec.allOnes 64 then 7 else 2) ∧
      t.get (HBC_STAT_RESULT h) = (if m = BitVec.allOnes 64 then 3 else if l = 0 ∧ m = 0 then 1 else 2) ∧
      (∀ p : Fin 64, t.pcFailed h p = (s.pcFailed h p || m.getLsbD p)) ∧
      (m = BitVec.allOnes 64 → t.get ⟨hbcPage h + 0x14, 0, 1⟩ = 1) ∧ t.kept = s.kept) ∧
    (s.hState h ≠ 4 → exec (.testDone h m) s = .next s) ∧
    (s.hState h = 4 → ∃ t, exec (.testDone h m) s = .next t ∧ t.hState h = 2 ∧ t.get (HBC_STAT_RESULT h) = (if m = 0 then 1 else 4) ∧
      (∀ p : Fin 64, t.pcFailed h p = (s.pcFailed h p || m.getLsbD p)) ∧ t.kept = s.kept)) ∧
  (∀ (h : Fin 6) (s : State),
    (s.hState h ≠ 2 → exec (.initDone h) s = .next s) ∧
    (s.hState h = 2 → s.srefCause h = false →
      ∃ t, exec (.initDone h) s = .next t ∧ t.hState h = 3 ∧ t.get ⟨hbcPage h + 0x14, 0, 1⟩ = 1 ∧
        (∀ a, t.hbmByte a = if hbmStack a = h then 0 else s.hbmByte a) ∧ t.outside = s.outside) ∧
    (s.hState h ≠ 6 → exec (.recoverDone h) s = .next s) ∧
    (s.hState h = 6 → ∃ t, exec (.recoverDone h) s = .next t ∧ t.hState h = 3 ∧ (∀ x : Fin 6, x ≠ h → t.hState x = s.hState x) ∧
      (∀ b, b ≠ HBC_STAT h → t.rd b = s.rd b) ∧ t.kept = s.kept)) ∧
  (∀ (h : Fin 6) (ok : Bool) (s : State),
    (s.hState h ≠ 5 ∨ s.srefCause h = true → exec (.retrainDone h ok) s = .next s) ∧
    (s.hState h = 5 → Tbl.get (fun _ => false) s.hbc.retrain h.val = true → s.srefCause h = false →
      ∃ t, exec (.retrainDone h ok) s = .next t ∧ t.hState h = (if ok = true then 6 else 7) ∧ t.get (statResetting (hbcPage h)) = 0 ∧
        Tbl.get (fun _ => false) t.hbc.retrain h.val = false ∧ t.kept = s.kept))

/-! ### 13: the Porter -/

/-- SELECTION_INSTANT, GATE_WINDOW_EDGE, TRANSMIT_END, GATE_LIST_SWITCH, GATE_WRITE, GATE_READ, SHAPER_REFILL, SAMPLE_PERIOD_END and SAMPLE_SELECT (R309,
R310, R315, R327, R330): at an idle port the lowest eligible strict queue starts its head, and with none eligible nothing starts; the last byte
frees the port and ends the passage, or sends the frame of port 257 back; a gate list in use is not written; every enabled shaper gains its RATE up
to BURST. -/
def Obligations.PorterChoosesAndSends : Prop :=
  (∀ (p : Fin 256) (q : Fin 16) (s : State), (∀ x : Fin 16, ∀ id ∈ s.eqQ (eqKey p x), (s.frame id).fcs ≠ some false) →
    (s.porterOn p = false ∨ (s.sending p).isSome = true →
      exec (.selectionInstant ⟨p, by omega⟩ q .good false) s = .next s ∧ exec (.gateWindowEdge p) s = .next s) ∧
    (s.porterOn p = true → s.sending p = none → (∀ x : Fin 16, s.eligible p x = false) →
      ∃ t, exec (.selectionInstant ⟨p, by omega⟩ q .good false) s = .next t ∧ exec (.gateWindowEdge p) s = .next t ∧ t.sending p = none ∧
        t.sch.eq = s.sch.eq ∧ t.frames = s.frames ∧ t.regs = s.regs ∧ t.kept = s.kept) ∧
    (∀ (x : Fin 4) (id : Nat) (r : List Nat), s.porterOn p = true → s.sending p = none → s.profS p = true → s.eligible p x = true →
      (∀ y : Fin 4, y < x → s.eligible p y = false) → s.eqQ (eqKey p x) = id :: r →
      ∃ t, exec (.selectionInstant ⟨p, by omega⟩ q .good false) s = .next t ∧ exec (.gateWindowEdge p) s = .next t ∧ t.sending p = some id ∧
        (t.frame id).stage = .transmit ∧ (t.frame id).bytes = (s.frame id).bytes ∧ id ∉ t.eqQ (eqKey p x) ∧
        (∀ y : Fin 256, y ≠ p → t.sending y = s.sending y) ∧ t.kept = s.kept)) ∧
  (∀ (q : Fin 16) (s : State), exec (.selectionInstant 256 q .good false) s = .next s) ∧
  (∀ (p : Fin 258) (e : Bool) (s : State),
    (s.sending p = none → exec (.transmitEnd p e) s = .next s) ∧
    (∀ id, s.sending p = some id → (s.frame id).ended = false → exec (.transmitEnd p e) s = .next s) ∧
    (∀ id, s.sending p = some id → (s.frame id).ended = true → p.val ≠ 257 →
      ∃ t, exec (.transmitEnd p false) s = .next t ∧ t.sending p = none ∧ (t.frame id).stage = .done ∧
        t.prt.lineOut = s.prt.lineOut ++ [(p.val, (s.frame id).txBytes, (s.frame id).inverted)] ∧
        Tbl.get (fun _ => 0) t.cnt.port (16 * p + 8) = min (Tbl.get (fun _ => 0) s.cnt.port (16 * p + 8) + 1) cntMax ∧
        Tbl.get (fun _ => 0) t.cnt.port (16 * p + 9) = min (Tbl.get (fun _ => 0) s.cnt.port (16 * p + 9) + (s.frame id).txBytes.length) cntMax ∧
        t.sch.eq = s.sch.eq ∧ t.kept = s.kept)) ∧
  (∀ (id : Nat) (s : State), s.sending 257 = some id → (s.frame id).ended = true →
    ∃ t, exec (.transmitEnd 257 false) s = .next t ∧ t.sending 257 = none ∧ (t.frame id).iport = 257 ∧
      (t.frame id).bytes = (s.frame id).txBytes ∧ (t.frame id).stage = .waitBuf ∧ (t.frame id).fcs = some (!(s.frame id).inverted) ∧
      (t.frame id).t = (s.frame id).t ∧ t.buf.reqs = s.buf.reqs ++ [⟨17, id, (s.frame id).txBytes.length, false⟩] ∧ t.kept = s.kept) ∧
  (∀ (p : Fin 256) (s : State),
    (Tbl.get (fun _ => none) s.sch.gatePend p.val = none → exec (.gateListSwitch p) s = .next s) ∧
    (∀ t0 l, Tbl.get (fun _ => none) s.sch.gatePend p.val = some t0 → l = s.cfg (SCH_PORT_CFG_GATE_LIST (p / 16) (p % 16)) →
      (s.tbNs < s.listStart p l t0 → exec (.gateListSwitch p) s = .next s) ∧
      (s.listStart p l t0 ≤ s.tbNs → ∃ t, exec (.gateListSwitch p) s = .next t ∧ t.get (SCH_PORT_STAT_LIST_USED (p / 16) (p % 16)) = l ∧
        t.get (SCH_PORT_STAT_LIST_PEND (p / 16) (p % 16)) = 0 ∧ Tbl.get (fun _ => none) t.sch.gatePend p.val = none ∧ t.kept = s.kept))) ∧
  (∀ (i : Fin 5) (s : State), s.reaches i SCH_GATE_CMD = true →
    (s.listBusy (s.get SCH_GATE_SEL_PORT) (s.get SCH_GATE_SEL_LIST) = true →
      ∃ t, exec (.gateWrite i) s = .next t ∧ t.get SCH_CMD_STAT_GATE_RESULT = 2 ∧ t.get ⟨0x100014, 1, 1⟩ = 1 ∧ t.sch = s.sch ∧ t.kept = s.kept) ∧
    (s.listBusy (s.get SCH_GATE_SEL_PORT) (s.get SCH_GATE_SEL_LIST) = false →
      ∃ t, exec (.gateWrite i) s = .next t ∧ t.get SCH_CMD_STAT_GATE_RESULT = 1 ∧
        Tbl.get (fun _ => (0, 0)) t.sch.gates s.gateSel = (s.get SCH_GATE_DATA0_GATES, s.get SCH_GATE_DATA1_INTERVAL) ∧
        (∀ k, k ≠ s.gateSel → Tbl.get (fun _ => (0, 0)) t.sch.gates k = Tbl.get (fun _ => (0, 0)) s.sch.gates k) ∧
        (∀ b, b ≠ SCH_CMD_STAT → t.rd b = s.rd b) ∧ t.kept = s.kept) ∧
    (∃ t, exec (.gateRead i) s = .next t ∧ t.get SCH_CMD_STAT_GATE_RESULT = 1 ∧
      t.get SCH_GATE_DATA0_GATES = (Tbl.get (fun _ => (0, 0)) s.sch.gates s.gateSel).1 % 2 ^ 16 ∧
      t.get SCH_GATE_DATA1_INTERVAL = (Tbl.get (fun _ => (0, 0)) s.sch.gates s.gateSel).2 % 2 ^ 32 ∧
      (∀ b, b ≠ SCH_CMD_STAT → b ≠ SCH_GATE_DATA0 → b ≠ SCH_GATE_DATA1 → t.rd b = s.rd b) ∧ t = { s with regs := t.regs })) ∧
  (∀ s : State, ∃ t, exec .shaperRefill s = .next t ∧
    (∀ k, t.tokens k = if k < 4352 ∧ (s.shaper k).1 = true then min (s.tokens k + (s.shaper k).2.1) ((s.shaper k).2.2 * 6400) else s.tokens k) ∧
    t = { s with sch := { s.sch with tok := t.sch.tok } }) ∧
  (∀ s : State,
    (s.cfg SCH_SMP_CFG_EN = 0 → exec .samplePeriodEnd s = .next s) ∧
    (s.cfg SCH_SMP_CFG_EN = 1 → ∃ t, exec .samplePeriodEnd s = .next t ∧ t.sch.smpLast = s.sch.smp ∧ t.sch.smp = [] ∧
      t.get ⟨0x100014, 2, 1⟩ = 1 ∧ t.sch.eq = s.sch.eq ∧ t.frames = s.frames ∧ t.kept = s.kept)) ∧
  (∀ (i : Fin 5) (q : Fin 4096) (x : Smp) (s : State), s.reaches i SCH_SMP_SEL = true → x = Tbl.get (fun _ => {}) s.sch.smpLast q.val →
    ∃ t, exec (.sampleSelect i q) s = .next t ∧ t.get SCH_SMP_SEL_QUEUE = q ∧ t.get SCH_SMP_DATA0_MAXDEPTH = x.depth % 2 ^ 32 ∧
      t.get SCH_SMP_DATA1_MAXSOJ = x.soj % 2 ^ 32 ∧ t.get SCH_SMP_DATA2_MAXLAT = x.lat % 2 ^ 32 ∧
      t.get SCH_SMP_DATA3_SUMLAT_LO = x.sum % 2 ^ 32 ∧ t.get SCH_SMP_DATA4_SUMLAT_HI = x.sum / 2 ^ 32 % 2 ^ 16 ∧
      t.get SCH_SMP_DATA5_COUNT = x.count % 2 ^ 32 ∧ t = { s with regs := t.regs })

/-- VOQ_REPORT, REQUEST_BIT_TIMEOUT, CREDIT_REFILL, CREDIT_ARRIVE, POLICE_LOOKUP, POLICER_WRITE and POLICER_READ (R318, R319, R320, R321, R323, R324, R325,
R333, R359): a report sets or clears one request bit and a remote one lapses after 200 µs; a refill adds each port's rate and issues a credit to the
requesting flow; a credit adds to the balance of a VOQ that holds frames and is lost at an empty one; a lookup colours against the refilled buckets;
a WRITE sets the configuration with full buckets. -/
def Obligations.CreditsAndPolicers : Prop :=
  (∀ s : State,
    (s.sch.reports = [] → exec .voqReport s = .next s) ∧
    (∀ p c on r, s.sch.reports = (p, c, on) :: r →
      ∃ t, exec .voqReport s = .next t ∧ t.sch.reports = r ∧
        Tbl.get (fun _ => none) t.sch.flows (flowKey s.ownDev p c) = (if on = true then some s.now else none) ∧
        (∀ k, k ≠ flowKey s.ownDev p c → Tbl.get (fun _ => none) t.sch.flows k = Tbl.get (fun _ => none) s.sch.flows k) ∧
        t = { s with sch := t.sch }) ∧
    (s.sch.credits = [] → exec .creditArrive s = .next s) ∧
    (∀ v n r, s.sch.credits = (v, n) :: r →
      (s.voqQ v ≠ [] → ∃ t, exec .creditArrive s = .next t ∧ t.sch = { s.sch with credits := r } ∧ t.balance v = s.balance v + n ∧
        (∀ x, x ≠ v → t.balance x = s.balance x) ∧ t.voq.q = s.voq.q ∧ t.regs = s.regs ∧ t.kept = s.kept) ∧
      (s.voqQ v = [] → exec .creditArrive s = .next { s with sch := { s.sch with credits := r } }))) ∧
  (∀ (d : Fin 2048) (p : Fin 512) (c : Fin 8) (s : State),
    (Tbl.get (fun _ => none) s.sch.flows (flowKey d p c) = none ∨ d.val = s.ownDev → exec (.requestBitTimeout d p c) s = .next s) ∧
    (∀ t0, Tbl.get (fun _ => none) s.sch.flows (flowKey d p c) = some t0 → d.val ≠ s.ownDev →
      (s.now - t0 < 200000 → exec (.requestBitTimeout d p c) s = .next s) ∧
      (200000 ≤ s.now - t0 → ∃ t, exec (.requestBitTimeout d p c) s = .next t ∧
        Tbl.get (fun _ => none) t.sch.flows (flowKey d p c) = none ∧
        (∀ k, k ≠ flowKey d p c → Tbl.get (fun _ => none) t.sch.flows k = Tbl.get (fun _ => none) s.sch.flows k) ∧
        t = { s with sch := t.sch }))) ∧
  (∀ s : State, s.sch.flows = [] →
    ∃ t, exec .creditRefill s = .next t ∧
      (∀ p : Fin 258, Tbl.get (fun _ => 0) t.sch.acc p.val =
        if s.porterOn (min p 256) = false then Tbl.get (fun _ => 0) s.sch.acc p.val
        else if s.creditStop p = true then 0
        else min (Tbl.get (fun _ => 0) s.sch.acc p.val + s.creditRate p) (s.creditKb * 102400)) ∧
      t = { s with sch := { s.sch with acc := t.sch.acc } }) ∧
  (∀ (p : Fin 256) (c : Fin 8) (v t0 a : Nat) (s : State), s.sch.flows = [(flowKey s.ownDev p c, some t0)] → s.porterOn p = true →
    s.creditStop p = false → s.cfg (SCH_PORT_CFG_CR_MODE (p / 16) (p % 16)) = 0 → s.voqOfFlow s.ownDev p c = some v →
    a = Tbl.get (fun _ => 0) s.sch.acc p.val + s.creditRate p → s.creditKb * 102400 ≤ a → a < 2 * (s.creditKb * 102400) →
    ∃ t, exec .creditRefill s = .next t ∧ t.sch.credits = s.sch.credits ++ [(v, s.creditKb * 1024)] ∧
      Tbl.get (fun _ => 0) t.sch.acc p.val = a - s.creditKb * 102400 ∧
      (t.rd SCH_CRED_LO).toNat + 2 ^ 32 * (t.rd SCH_CRED_HI).toNat =
        min ((s.rd SCH_CRED_LO).toNat + 2 ^ 32 * (s.rd SCH_CRED_HI).toNat + 1) (2 ^ 64 - 1) ∧
      t.sch.flows = s.sch.flows ∧ t.voq = s.voq ∧ t.kept = s.kept) ∧
  (∀ (x : Policer) (b : Nat), bit x.ctl 1 = false →
    (b ≤ x.tc → b ≤ x.tx → x.colour b 0 = (0, { x with
      tx := x.tx - b
      tc := x.tc - b })) ∧
    (x.tc < b → b ≤ x.tx → x.colour b 0 = (1, { x with tx := x.tx - b })) ∧ (x.tx < b → x.colour b 0 = (2, x)) ∧ x.colour b 2 = (2, x)) ∧
  (∀ (k : Nat) (e : PolErr) (s : State),
    (s.lookup k .police = none → exec (.policeLookup k e) s = .next s) ∧
    (∀ l, s.lookup k .police = some l →
      (s.get (ctlEn schPage) ≠ 1 → exec (.policeLookup k e) s = .next (s.answer k (errRes 2))) ∧
      (s.get (ctlEn schPage) = 1 → l.key.length ≠ 2 ∨ 1 < l.tid → exec (.policeLookup k e) s = .next (s.answer k (errRes 1))) ∧
      (∀ (i : Nat) (x : Policer) (c : Nat × Policer), s.get (ctlEn schPage) = 1 → l.key.length = 2 → beNat l.key < 2 ^ 14 → l.tid ≤ 1 →
        i = l.wks / 16 * 16384 + beNat l.key → x = s.policer i → x.bad = false →
        c = (x.refill s.tbNs).colour ((max 1 ((l.len : Int) + sgn 8 (bits x.ctl 8 8))).toNat * 100) (if l.tid = 1 then min 2 l.dp else 0) →
        (bit x.ctl 0 = false → exec (.policeLookup k .good) s = .next (s.answer k missRes)) ∧
        (bit x.ctl 0 = true → ∃ t, exec (.policeLookup k .good) s = .next t ∧ t.lkp = (s.answer k (mkRes 1 (c.1 * 256) 0 0 0)).lkp ∧
          t.policer i = c.2 ∧ (∀ j, j ≠ i → t.policer j = s.policer j) ∧
          (c.1 = 2 → t.get SCH_POL_RED_POL_RED = min (s.get SCH_POL_RED_POL_RED + 1) (2 ^ 32 - 1)) ∧ t.kept = s.kept) ∧
        (∃ t, exec (.policeLookup k .config) s = .next t ∧ t.lkp = (s.answer k (errRes 3)).lkp ∧ (t.policer i).bad = true ∧
          t.get ⟨0x100010, 3, 1⟩ = 1 ∧ t.frames = s.frames ∧ t.kept = s.kept)))) ∧
  (∀ (i : Fin 5) (s : State), s.reaches i SCH_POL_CMD = true →
    (∃ t, exec (.policerWrite i) s = .next t ∧ t.get SCH_CMD_STAT_POL_RESULT = 1 ∧
      (∀ q : Fin 4, s.get SCH_POL_SEL_ALLQ = 1 ∨ s.get SCH_POL_SEL_QUARTER = q →
        t.policer (q * 16384 + s.get SCH_POL_SEL_INDEX) = ⟨s.get SCH_POL_DATA0_CIR, s.get SCH_POL_DATA1_PIR_EIR,
          s.get SCH_POL_DATA2_CBS, s.get SCH_POL_DATA3_PBS_EBS, (s.rd SCH_POL_DATA4).toNat &&& 0xFF0F, s.get SCH_POL_DATA2_CBS * 100,
          s.get SCH_POL_DATA3_PBS_EBS * 100, s.tbNs, false⟩) ∧
      (∀ q : Fin 4, s.get SCH_POL_SEL_ALLQ = 0 → s.get SCH_POL_SEL_QUARTER ≠ q → ∀ x < 16384, t.policer (q * 16384 + x) = s.policer (q * 16384 + x)) ∧
      (∀ b, b ≠ SCH_CMD_STAT → t.rd b = s.rd b) ∧ t.kept = s.kept) ∧
    (∀ x, x = s.policer (s.get SCH_POL_SEL_QUARTER * 16384 + s.get SCH_POL_SEL_INDEX) →
      ∃ t, exec (.policerRead i) s = .next t ∧ t.get SCH_CMD_STAT_POL_RESULT = 1 ∧ t.get SCH_POL_DATA0_CIR = x.cir % 2 ^ 22 ∧
        t.get SCH_POL_DATA1_PIR_EIR = x.pir % 2 ^ 22 ∧ t.get SCH_POL_DATA2_CBS = x.cbs % 2 ^ 24 ∧ t.get SCH_POL_DATA3_PBS_EBS = x.pbs % 2 ^ 24 ∧
        t.rd SCH_POL_DATA4 = BitVec.ofNat 32 x.ctl ∧ t.get SCH_POL_DATA5_TC_TOK = (x.refill s.tbNs).tc % 2 ^ 32 ∧
        t.get SCH_POL_DATA6_TX_TOK = (x.refill s.tbNs).tx % 2 ^ 32 ∧ t = { s with regs := t.regs }))

/-! ### 14: overload -/

/-- OVERLOAD_WINDOW, SPILL_BUDGET_RESET, BANK_ACCESS, PUNT_REFILL and PUNT_WRITE (R335, R336, R339, R341): at a window's end ACTIVE holds the stages
hit in it and a stage that was not active begins an episode; the spill use count clears; a bank serves one access, the table writers' in turn with
its queue, and requests beyond 32 wait; a punt bucket gains RATE up to BURST and a written one is full. -/
def Obligations.OverloadIsRecorded : Prop :=
  (∀ s : State, ∃ t, exec .overloadWindow s = .next t ∧ t.ovl.was = s.ovl.hit ∧ t.ovl.hit = [] ∧
    (∀ n : Fin 5, t.get ⟨0x1080, n, 1⟩ = if s.ovl.hit.contains (n.val + 1) = true then 1 else 0) ∧
    (∀ n : Fin 5, s.ovl.hit.contains (n.val + 1) = true → s.ovl.was.contains (n.val + 1) = false →
      t.get (SYS_OVL_EPIS_EPIS n) = min (s.get (SYS_OVL_EPIS_EPIS n) + 1) (2 ^ 32 - 1) ∧ t.get ⟨0x1014, n, 1⟩ = 1) ∧
    (∀ n : Fin 5, s.ovl.hit.contains (n.val + 1) = false ∨ s.ovl.was.contains (n.val + 1) = true →
      t.get (SYS_OVL_EPIS_EPIS n) = s.get (SYS_OVL_EPIS_EPIS n)) ∧ t.frames = s.frames ∧ t.kept = s.kept) ∧
  (∀ s : State, ∃ t, exec .spillBudgetReset s = .next t ∧ t.get SYS_OVL_SPILL_USE_U = 0 ∧ (∀ b, b ≠ SYS_OVL_SPILL_USE → t.rd b = s.rd b) ∧
    t = { s with regs := t.regs }) ∧
  (∀ (b : Fin 256) (n q : Nat) (w : Bool) (s : State), q = Tbl.get (fun _ => 0) s.xmt.bankQ b.val →
    (q + n ≤ 32 → (w = false ∧ q + n = 0 →
        exec (.bankAccess b n w) s = .next { s with xmt := { s.xmt with bankQ := Tbl.set (fun _ => 0) s.xmt.bankQ b.val 0 } }) ∧
      (w = false ∧ q + n ≠ 0 ∨ w = true ∧ q + n ≠ 0 ∧ Tbl.get (fun _ => false) s.xmt.bankLast b.val = true →
        ∃ t, exec (.bankAccess b n w) s = .next t ∧ Tbl.get (fun _ => 0) t.xmt.bankQ b.val + 1 = q + n ∧
          Tbl.get (fun _ => false) t.xmt.bankLast b.val = false ∧ t.regs = s.regs ∧ t.xmt.entries = s.xmt.entries ∧ t.kept = s.kept) ∧
      (w = true ∧ (q + n = 0 ∨ Tbl.get (fun _ => false) s.xmt.bankLast b.val = false) →
        ∃ t, exec (.bankAccess b n w) s = .next t ∧ Tbl.get (fun _ => 0) t.xmt.bankQ b.val = q + n ∧
          Tbl.get (fun _ => false) t.xmt.bankLast b.val = true ∧ t.regs = s.regs ∧ t.xmt.entries = s.xmt.entries ∧ t.kept = s.kept)) ∧
    (32 < q + n → ∃ t, exec (.bankAccess b n w) s = .next t ∧ 31 ≤ Tbl.get (fun _ => 0) t.xmt.bankQ b.val ∧
      t.ovl.hit.contains 3 = true ∧ (t.rd SYS_OVL_BANK_WAIT_LO).toNat + 2 ^ 32 * (t.rd SYS_OVL_BANK_WAIT_HI).toNat =
        min ((s.rd SYS_OVL_BANK_WAIT_LO).toNat + 2 ^ 32 * (s.rd SYS_OVL_BANK_WAIT_HI).toNat + (q + n - 32)) (2 ^ 64 - 1) ∧
      t.xmt.entries = s.xmt.entries ∧ t.kept = s.kept)) ∧
  (∀ s : State, ∃ t, exec .puntRefill s = .next t ∧
    (∀ c : Fin 8, t.puntTok c = min (s.puntTok c + s.get (SYS_OVL_PUNT_RATE c)) (s.get (SYS_OVL_PUNT_BURST c) * 1000)) ∧
    t = { s with ovl := { s.ovl with punt := t.ovl.punt } }) ∧
  (∀ (i : Fin 5) (c : Fin 8) (w : Word) (s : State), s.reaches i (SYS_OVL_PUNT c) = true →
    ∃ t, exec (.puntWrite i c w) s = .next t ∧ t.rd (SYS_OVL_PUNT c) = w ∧ t.puntTok c = bits w.toNat 16 16 * 1000 ∧
      (∀ x : Fin 8, x ≠ c → t.puntTok x = s.puntTok x) ∧ (∀ b, b ≠ SYS_OVL_PUNT c → t.rd b = s.rd b) ∧ t.kept = s.kept)

/-! ### 15: the host link -/

/-- SUBMISSION_DOORBELL, COMPLETION_DOORBELL, RING_WRITE, RING_READ, RING_FETCH, ENTRY_FETCHED and INJECT_DATA_READ (R375, R376, R377, R378, R379, R380,
R385): an accepted doorbell moves TAIL or HEAD and any other counts DB_ERR; a WRITE configures a ring or is refused BUSY or BADCFG; a visit fetches
a burst and reserves its places; a good entry asks for a buffer or is cached, a bad one is counted, a failed read disables the ring; the data of an
accepted entry becomes a frame. -/
def Obligations.RingsAndEntries : Prop :=
  (∀ (n : Fin 2048) (w : Word) (r : SRing) (s : State), s.resetting hifPage = false → r = s.sring n →
    (bits w.toNat 16 16 ≠ n ∨ r.en = false ∨ r.size - r.fill < (bits w.toNat 0 16 + 2 ^ 16 - r.tail) % 2 ^ 16 →
      ∃ t, exec (.submissionDoorbell n w) s = .next t ∧ t.get HIF_DB_ERR_DB_ERR = min (s.get HIF_DB_ERR_DB_ERR + 1) (2 ^ 32 - 1) ∧
        t.get ⟨0x60014, 0, 1⟩ = 1 ∧ t.hif = s.hif ∧ t.kept = s.kept) ∧
    (bits w.toNat 16 16 = n → r.en = true → (bits w.toNat 0 16 + 2 ^ 16 - r.tail) % 2 ^ 16 ≤ r.size - r.fill →
      ∃ t, exec (.submissionDoorbell n w) s = .next t ∧ t.sring n = { r with tail := bits w.toNat 0 16 } ∧
        (∀ x, x ≠ n.val → t.sring x = s.sring x) ∧ t = { s with hif := { s.hif with sr := t.hif.sr } })) ∧
  (∀ (n : Fin 2048) (w : Word) (r : CRing) (s : State), s.resetting hifPage = false → r = s.cring n →
    (bits w.toNat 16 16 ≠ n ∨ r.en = false ∨ r.fill < (bits w.toNat 0 16 + 2 ^ 16 - r.head) % 2 ^ 16 →
      ∃ t, exec (.completionDoorbell n w) s = .next t ∧ t.get HIF_DB_ERR_DB_ERR = min (s.get HIF_DB_ERR_DB_ERR + 1) (2 ^ 32 - 1) ∧
        t.get ⟨0x60014, 0, 1⟩ = 1 ∧ t.hif = s.hif ∧ t.kept = s.kept) ∧
    (bits w.toNat 16 16 = n → r.en = true → (bits w.toNat 0 16 + 2 ^ 16 - r.head) % 2 ^ 16 ≤ r.fill → s.hif.tsQ = [] →
      ∃ t, exec (.completionDoorbell n w) s = .next t ∧ (t.cring n).head = bits w.toNat 0 16 ∧ (t.cring n).tail = r.tail ∧
        (t.cring n).hold = r.hold ∧ (∀ x, x ≠ n.val → t.cring x = s.cring x) ∧ t.hif.sr = s.hif.sr ∧ t.kept = s.kept)) ∧
  (∀ (i : Fin 5) (n : Nat) (o : SRing) (s : State), s.reaches i HIF_RING_CMD = true → s.get HIF_RING_SEL_CQ = 0 → n = s.get HIF_RING_SEL_INDEX →
    o = s.sring n → s.hif.tsQ = [] →
    (o.en = false → (s.ringSub o).en = true → (s.ringSub o).inject = false → logszOk (s.ringSub o).logsz = true →
      (s.cring (s.ringSub o).cq).en = true →
      ∃ t, exec (.ringWrite i) s = .next t ∧ t.get HIF_RING_STAT_RESULT = 1 ∧ t.sring n = { s.ringSub o with
        head := 0
        tail := 0
        err := false } ∧ (∀ x, x ≠ n → t.sring x = s.sring x) ∧ t.hif.cr = s.hif.cr ∧ t.kept = s.kept) ∧
    (o.en = true → (s.ringSub o).base ≠ o.base ∨ (s.ringSub o).logsz ≠ o.logsz ∨ (s.ringSub o).cq ≠ o.cq →
      ∃ t, exec (.ringWrite i) s = .next t ∧ t.get HIF_RING_STAT_RESULT = 2 ∧ t.get ⟨0x60014, 6, 1⟩ = 1 ∧ t.hif = s.hif ∧ t.kept = s.kept) ∧
    (o.en = false → logszOk (s.ringSub o).logsz = false →
      ∃ t, exec (.ringWrite i) s = .next t ∧ t.get HIF_RING_STAT_RESULT = 3 ∧ t.get ⟨0x60014, 6, 1⟩ = 1 ∧ t.hif = s.hif ∧ t.kept = s.kept) ∧
    (∃ t, exec (.ringRead i) s = .next t ∧ t.get HIF_RING_STAT_RESULT = 1 ∧ t.rd (HIF_RING_DATA 0) = BitVec.ofNat 32 o.base ∧
      t.rd (HIF_RING_DATA 4) = BitVec.ofNat 32 (o.head + o.tail * 2 ^ 16) ∧ t.rd (HIF_RING_DATA 5) = BitVec.ofNat 32 o.cache.length ∧
      t = { s with regs := t.regs })) ∧
  (∀ (e : Fin 16) (s : State),
    (s.get (ctlEn hifPage) = 0 ∨ (∀ x ∈ s.hif.sr, x.2.eng = e → s.fetchable x.2 = false) → exec (.ringFetch e) s = .next s) ∧
    (∀ (n k : Nat) (r : SRing), s.get (ctlEn hifPage) = 1 → s.nextRing e = some n → r = s.sring n →
      k = (if r.inject = true then min (min (min 64 (max 1 r.burst)) r.fill) (s.cring r.cq).permits
        else min (min (min (min 64 (max 1 r.burst)) r.fill) (s.cring r.cq).permits) (16 - r.cached)) →
      ∃ t, exec (.ringFetch e) s = .next t ∧ (t.sring n).head = (r.head + k) % 2 ^ 16 ∧ (t.sring n).tail = r.tail ∧
        (t.sring n).fetched.length = r.fetched.length + k ∧ (t.sring n).credit = r.credit - 1 ∧
        (t.cring r.cq).reserved = (s.cring r.cq).reserved + k ∧ (t.cring r.cq).hold = (s.cring r.cq).hold ∧
        (∀ x, x ≠ n → t.sring x = s.sring x) ∧ t.frames = s.frames ∧ t.kept = s.kept)) ∧
  (∀ (n : Fin 2048) (f : Fetched) (s : State), (s.sring n).fetched = [] → exec (.entryFetched n f) s = .next s) ∧
  (∀ (n : Fin 2048) (x : Fetch) (l : List Fetch) (b : List Byte) (s : State), (s.sring n).fetched = x :: l →
    ((s.sring n).cache = [] → ∃ t, exec (.entryFetched n .failed) s = .next t ∧ (t.sring n).en = false ∧ (t.sring n).err = true ∧
      (t.sring n).fetched = l ∧ (t.cring x.cq).reserved = (s.cring x.cq).reserved - 1 ∧
      t.get HIF_DMA_ERR_DMA_ERR = min (s.get HIF_DMA_ERR_DMA_ERR + 1) (2 ^ 32 - 1) ∧ t.frames = s.frames ∧ t.kept = s.kept) ∧
    (x.inject = true → injectOk (bytesAt b 0 32) = true →
      ∃ t, exec (.entryFetched n (.bytes b)) s = .next t ∧ t.hif.injects = s.hif.injects ++ [⟨n, x.cq, x.idx, bytesAt b 0 32, s.nextFrame⟩] ∧
        t.buf.reqs = s.buf.reqs ++ [⟨16, s.nextFrame, entryLen (bytesAt b 0 32) + 4, false⟩] ∧ (t.frame s.nextFrame).iport = 256 ∧
        (t.frame s.nextFrame).stage = .waitBuf ∧ (t.sring n).fetched = l ∧ t.regs = s.regs ∧ t.kept = s.kept) ∧
    (x.inject = true → injectOk (bytesAt b 0 32) = false →
      ∃ t, exec (.entryFetched n (.bytes b)) s = .next t ∧ t.get HIF_BADENT_BADENT = min (s.get HIF_BADENT_BADENT + 1) (2 ^ 32 - 1) ∧
        t.get ⟨0x60014, 1, 1⟩ = 1 ∧ (t.cring x.cq).hold.length = (s.cring x.cq).hold.length + 1 ∧ (t.sring n).fetched = l ∧
        t.frames = s.frames ∧ t.kept = s.kept) ∧
    (x.inject = false → rxbufOk (bytesAt b 0 32) = true → (s.sring n).en = true →
      ∃ t, exec (.entryFetched n (.bytes b)) s = .next t ∧ (t.sring n).cache = (s.sring n).cache ++ [(x.idx, bytesAt b 0 32)] ∧
        (t.sring n).fetched = l ∧ t.frames = s.frames ∧ t.regs = s.regs ∧ t.kept = s.kept)) ∧
  (∀ (tb d : Fetched) (k : Fin 64) (s : State), (∀ x ∈ s.hif.injects, (s.frame x.frame).buf = none) → exec (.injectDataRead tb d k) s = .next s) ∧
  (∀ (tb : Fetched) (b : List Byte) (k : Fin 64) (x : Inject) (s : State), s.hif.injects = [x] → (s.frame x.frame).buf.isSome = true →
    entryIndir x.entry = false →
    (∃ t, exec (.injectDataRead tb (.bytes b) k) s = .next t ∧
      (t.frame x.frame).bytes = bytesAt b 0 (entryLen x.entry) ++ fcsOf (bytesAt b 0 (entryLen x.entry)) ∧ (t.frame x.frame).stage = .headQ ∧
      t.headQ (s.frame x.frame).slice = s.headQ (s.frame x.frame).slice ++ [x.frame] ∧ t.hif.injects = [] ∧
      (t.cring x.cq).hold.length = (s.cring x.cq).hold.length + 1 ∧
      t.get HIF_INJ_FRAMES_INJ_FRAMES = min (s.get HIF_INJ_FRAMES_INJ_FRAMES + 1) (2 ^ 32 - 1) ∧ t.kept = s.kept) ∧
    (∃ t, exec (.injectDataRead tb .failed k) s = .next t ∧ (t.frame x.frame).stage = .done ∧ t.hif.injects = [] ∧
      (t.cring x.cq).hold.length = (s.cring x.cq).hold.length + 1 ∧
      t.get HIF_DMA_ERR_DMA_ERR = min (s.get HIF_DMA_ERR_DMA_ERR + 1) (2 ^ 32 - 1) ∧ t.prt.hq = s.prt.hq ∧ t.kept = s.kept))

/-- PUNT_DELIVER, PUNT_FLUSH, RECORD_WRITE, TAIL_WRITEBACK, COMPLETION_TIMER, PCIE_RESET, PCIE_LINK_TRAINED, PCIE_DSTATE_CHANGE and PCIE_L1_ENTRY (R371, R372,
R381, R382, R384, R397): a cached entry takes the head frame's bytes and its record is formed; with port 256 down the head is discarded; a held record
takes a free place; the writeback tells TAIL and the ring; the oldest record's age asserts the ring's source; a PCIe reset leaves every ring and
source disabled; the link's events set HIF_LINK_STAT. -/
def Obligations.PuntRecordsAndLink : Prop :=
  (∀ (bad : Bool) (s : State), s.eqQ hostQ = [] → exec (.puntDeliver bad) s = .next s ∧ exec .puntFlush s = .next s) ∧
  (∀ (id : Nat) (q : List Nat) (n idx : Nat) (e : List Byte) (l : List (Nat × List Byte)) (s : State), s.eqQ hostQ = id :: q →
    (∀ i ∈ s.eqQ hostQ, (s.frame i).fcs ≠ some false) → n = s.get (HIF_PUNT_MAP_RING ((s.frame id).tc % 8)) →
    (s.hostPortUp = true → (s.sring n).cache = (idx, e) :: l → (s.cring (s.sring n).cq).canTake = true → (s.frame id).punted = 0 →
      (s.frame id).txBody.length ≤ entryLen e →
      ∃ t, exec (.puntDeliver false) s = .next t ∧
        t.hostWrites = s.hostWrites ++ [(entryAddr e, bytesAt (s.frame id).txBody 0 (s.frame id).txBody.length)] ∧
        (t.sring n).cache = l ∧ (t.cring (s.sring n).cq).hold.length = (s.cring (s.sring n).cq).hold.length + 1 ∧ id ∉ t.eqQ hostQ ∧
        (t.frame id).stage = .done ∧ t.get HIF_PUNT_FRAMES_PUNT_FRAMES = min (s.get HIF_PUNT_FRAMES_PUNT_FRAMES + 1) (2 ^ 32 - 1) ∧
        t.kept = s.kept) ∧
    ((s.sring n).cache = [] ∨ s.hostPortUp = false → exec (.puntDeliver false) s = .next s) ∧
    (s.hostPortUp = true → exec .puntFlush s = .next s) ∧
    (s.hostPortUp = false → ∃ t, exec .puntFlush s = .next t ∧ t.eqQ hostQ = q.filter (fun i => i != id) ∧ (t.frame id).stage = .done ∧
      t.get HIF_PUNT_FLUSH_PUNT_FLUSH = min (s.get HIF_PUNT_FLUSH_PUNT_FLUSH + 1) (2 ^ 32 - 1) ∧ t.get ⟨0x60014, 5, 1⟩ = 1 ∧ t.kept = s.kept)) ∧
  (∀ (c : Fin 2048) (bad : Bool) (r : CRing) (s : State), r = s.cring c →
    (r.hold = [] ∨ s.get (ctlEn hifPage) = 0 ∨ r.free = 0 → exec (.recordWrite c bad) s = .next s) ∧
    (∀ x l, r.hold = x :: l → s.get (ctlEn hifPage) = 1 → r.free ≠ 0 → s.hif.tsQ = [] →
      (∃ t, exec (.recordWrite c false) s = .next t ∧ t.hostWrites = s.hostWrites ++ [(r.base + 16 * (r.tail % r.size), x)] ∧
        (t.cring c).hold = l ∧ (t.cring c).tail = (r.tail + 1) % 2 ^ 16 ∧ (t.cring c).head = r.head ∧
        (∀ y, y ≠ c.val → t.cring y = s.cring y) ∧ t.hif.sr = s.hif.sr ∧ t.kept = s.kept) ∧
      (∃ t, exec (.recordWrite c true) s = .next t ∧ t.hostWrites = s.hostWrites ∧ (t.cring c).hold = l ∧ (t.cring c).tail = r.tail ∧
        t.get ⟨0x60010, 1, 1⟩ = 1 ∧ t.kept = s.kept)) ∧
    (s.get (ctlEn hifPage) = 0 ∨ r.wbDue = false → exec (.tailWriteback c) s = .next s) ∧
    (s.get (ctlEn hifPage) = 1 → r.wbDue = true →
      ∃ t, exec (.tailWriteback c) s = .next t ∧ t.hostWrites = s.hostWrites ++ [(r.wb, leBytes 2 r.tail ++ leBytes 2 c)] ∧
        (t.cring c).wbDue = false ∧ (t.cring c).hold = r.hold ∧ (∀ y, y ≠ c.val → t.cring y = s.cring y) ∧ t.kept = s.kept) ∧
    (∀ t0 l, r.born = t0 :: l → r.timer ≠ 0 → r.fill ≠ 0 → r.timer * 1000 ≤ s.now - t0 → r.r < 32 →
      ∃ t, exec (.completionTimer c) s = .next t ∧ (t.cring c).asserted = true ∧
        (r.asserted = false → t.icuMsgs = s.icuMsgs ++ [(0x600 + c.val, true)]) ∧ (r.asserted = true → t.icuMsgs = s.icuMsgs) ∧
        (t.cring c).hold = r.hold ∧ (∀ y, y ≠ c.val → t.cring y = s.cring y) ∧ t.kept = s.kept)) ∧
  (∀ (d : Bool) (s : State),
    (s.held = true → exec (.pcieReset d) s = .next s) ∧
    (s.held = false → ∃ t, exec (.pcieReset d) s = .next t ∧ (∀ n, (t.sring n).en = false ∧ (t.cring n).en = false) ∧
      (∀ n, (t.isrc n).en = false ∧ (t.isrc n).p = false) ∧ t.get ⟨0x60024, 5, 1⟩ = 1 ∧ t.get ⟨0x50024, 5, 1⟩ = 1 ∧ t.get ⟨0x51024, 5, 1⟩ = 1 ∧
      (d = true → t.get ⟨0x60010, 2, 1⟩ = 1) ∧ t.prt.hq = s.prt.hq ∧ t.xmt = s.xmt ∧ t.sch.eq = s.sch.eq ∧ t.kept = s.kept)) ∧
  (∀ (v : Fin 6) (w : Fin 5) (f d p : Bool) (l : Fin 3) (s : State),
    (∃ t, exec (.pcieLinkTrained v w f) s = .next t ∧ t.get HIF_LINK_STAT_SPEED = v + 1 ∧ t.get HIF_LINK_STAT_WIDTH = 2 ^ w.val ∧
      t.get HIF_LINK_STAT_FLIT = b2n f ∧ t.get HIF_LINK_STAT_LPM = 0 ∧ t.get HIF_LINK_STAT_DSTATE = s.get HIF_LINK_STAT_DSTATE ∧
      (∀ b, b ≠ HIF_LINK_STAT → t.rd b = s.rd b) ∧ t = { s with regs := t.regs }) ∧
    (∃ t, exec (.pcieDstateChange d p) s = .next t ∧ t.get HIF_LINK_STAT_DSTATE = (if d = true then 3 else 0) ∧ t.hif.pmeEn = p ∧
      t.get HIF_LINK_STAT_SPEED = s.get HIF_LINK_STAT_SPEED ∧ (∀ b, b ≠ HIF_LINK_STAT → t.rd b = s.rd b) ∧ t.hif.sr = s.hif.sr ∧
      t.hif.cr = s.hif.cr ∧ t.kept = s.kept) ∧
    (s.get HIF_LINK_STAT_SPEED = 0 → exec (.pcieL1Entry l) s = .next s) ∧
    (s.get HIF_LINK_STAT_SPEED ≠ 0 → ∃ t, exec (.pcieL1Entry l) s = .next t ∧ t.get HIF_LINK_STAT_LPM = l + 1 ∧
      t.get HIF_LINK_STAT_SPEED = s.get HIF_LINK_STAT_SPEED ∧ (∀ b, b ≠ HIF_LINK_STAT → t.rd b = s.rd b) ∧ t = { s with regs := t.regs }))

/-! ### 16: the interrupt controller -/

/-- SOURCE_MESSAGE, PEND_SET, SOURCE_CONFIG_WRITE, MESSAGE_EMIT, CLAIM, EOI, SAMPLE_ANSWER and TARGET_WAKE (R388, R389, R390, R391, R392, R393,
R394, R395, R399): ASSERT sets RAW and, for an enabled source, P; setting EN while RAW is 1 sets P; an idle target emits the message of its candidate
of the highest PRIO and lowest number, which is then bound to it; a claim returns it or 0x1000; EOI of the source in service asks for a
sample of a level source; the sample sets P again while the condition holds; a held target with a candidate raises wake. -/
def Obligations.InterruptsAreDeliveredOnce : Prop :=
  (∀ s : State, s.icuMsgs = [] → exec .sourceMessage s = .next s) ∧
  (∀ (n : Nat) (lvl : Bool) (l : List (Nat × Bool)) (x : ISrc) (s : State), s.icuMsgs = (n, lvl) :: l → x = s.isrc n →
    ∃ t, exec .sourceMessage s = .next t ∧ t.isrc n = { x with
        raw := lvl
        p := x.p || (lvl && x.en) } ∧ (∀ m, m ≠ n → t.isrc m = s.isrc m) ∧ t.icu.tgt = s.icu.tgt ∧ t.kept = s.kept ∧
      (lvl = true → x.en = true → t.get HIF_LINK_STAT_LPM = 0) ∧
      (lvl = false ∨ x.en = false → t.rd HIF_LINK_STAT = s.rd HIF_LINK_STAT) ∧ (x.tgt ≤ 256 → t.icuMsgs = l)) ∧
  (∀ (i : Fin 5) (n : Fin 4096) (x : ISrc) (s : State), s.reaches i ICU_PEND_SET = true → x = s.isrc n →
    (∃ t, exec (.pendSet i n false) s = .next t ∧ t.isrc n = { x with p := true } ∧ (∀ m, m ≠ n.val → t.isrc m = s.isrc m) ∧
      t.icu.tgt = s.icu.tgt ∧ t.kept = s.kept ∧ (x.bound = none → 256 < x.tgt → x.p = false → t.get ⟨0x50014, 1, 1⟩ = 1) ∧
      (x.tgt ≤ 256 → t = { s with icu := t.icu })) ∧
    (∃ t, exec (.pendSet i n true) s = .next t ∧ t.isrc n = { x with
        p := false
        bound := none } ∧ (∀ m, m ≠ n.val → t.isrc m = s.isrc m) ∧ t.icu.tgt = s.icu.tgt ∧ t = { s with icu := t.icu })) ∧
  (∀ (i : Fin 5) (w : Word) (n : Nat) (x : ISrc) (s : State), s.reaches i ICU_SRC_CFG = true → n = s.get ICU_SRC_SEL_SRC → x = s.isrc n →
    ∃ t, exec (.sourceConfigWrite i w) s = .next t ∧ t.isrc n = { x with
        en := bit w.toNat 0
        prio := bits w.toNat 1 4
        tgt := bits w.toNat 5 9
        p := x.p || (bit w.toNat 0 && !x.en && x.raw) } ∧
      (∀ m, m ≠ n → t.isrc m = s.isrc m) ∧ t.icu.tgt = s.icu.tgt ∧ t.kept = s.kept ∧ (bits w.toNat 5 9 ≤ 256 → t = { s with icu := t.icu })) ∧
  (∀ (k n : Nat) (s : State), Tbl.wf (fun _ => ({} : ISrc)) s.icu.src = true → s.candidate k = some n →
    (s.isrc n).candidate k = true ∧
      ∀ m, (s.isrc m).candidate k = true → (s.isrc m).prio < (s.isrc n).prio ∨ (s.isrc m).prio = (s.isrc n).prio ∧ n ≤ m) ∧
  (∀ (k : Fin 257) (y : ITgt) (s : State), y = s.itgt k →
    (s.candidate k = none ∨ s.get (ctlEn icuPage) = 0 ∨ y.msgOut = true ∨ y.insvc.isSome = true ∨ y.sample.isSome = true ∨
        (k.val ≠ 256 ∧ (y.mask = true ∨ y.sleep = true ∨ s.get HIF_LINK_STAT_LPM ≠ 0)) ∨ (k.val = 256 ∧ s.aon.fast = false) →
      exec (.messageEmit k [] []) s = .next s) ∧
    (∀ n, s.candidate k = some n → s.get (ctlEn icuPage) = 1 → y.msgOut = false → y.insvc = none → y.sample = none →
      (k.val = 256 → s.aon.fast = true) → (k.val ≠ 256 → y.mask = false ∧ y.sleep = false ∧ s.get HIF_LINK_STAT_LPM = 0) →
      ∃ t, exec (.messageEmit k [] []) s = .next t ∧ t.isrc n = { s.isrc n with bound := some k.val } ∧ t.itgt k = { y with msgOut := true } ∧
        (∀ m, m ≠ n → t.isrc m = s.isrc m) ∧ (∀ m, m ≠ k.val → t.itgt m = s.itgt m) ∧
        t.get ICU_MSGS_MSGS = min (s.get ICU_MSGS_MSGS + 1) (2 ^ 32 - 1) ∧ t.kept = s.kept ∧
        (n < 0x600 ∨ 0xE00 ≤ n → t.hostWrites = if k.val = 256 then s.hostWrites else s.hostWrites ++ [(y.addr / 4 * 4, leBytes 4 y.data.toNat)])) ∧
    (∀ (l : List (Fin 4096)) (m : List (Fin 257)), l ≠ [] ∨ m ≠ [] →
      ∃ t, exec (.messageEmit k l m) s = .next t ∧ t.get ⟨0x50010, 0, 1⟩ = 1 ∧ t.kept = s.kept)) ∧
  (∀ (i : Fin 5) (k : Fin 257) (y : ITgt) (s : State), s.reaches i (if k.val = 256 then ICU_ISL_CLAIM else ICU_CLAIM k.val) = true → y = s.itgt k →
    (∀ n, y.insvc = none → s.candidate k = some n →
      ∃ t, exec (.claim i k) s = .next t ∧ Tbl.get (fun _ => 0) t.rdata i = BitVec.ofNat 32 n ∧ t.isrc n = { s.isrc n with
          p := false
          bound := none } ∧ t.itgt k = { y with
          insvc := some n
          msgOut := false } ∧ (∀ m, m ≠ n → t.isrc m = s.isrc m) ∧ (∀ m, m ≠ k.val → t.itgt m = s.itgt m) ∧ t.regs = s.regs ∧ t.kept = s.kept) ∧
    (y.insvc.isSome = true ∨ s.candidate k = none →
      ∃ t, exec (.claim i k) s = .next t ∧ Tbl.get (fun _ => 0) t.rdata i = 0x1000 ∧ t.itgt k = { y with msgOut := false } ∧
        (∀ m, m ≠ k.val → t.itgt m = s.itgt m) ∧ t.icu.src = s.icu.src ∧ t.regs = s.regs ∧ t.kept = s.kept)) ∧
  (∀ (i : Fin 5) (k : Fin 257) (n : Fin 4096) (y : ITgt) (s : State), s.reaches i (if k.val = 256 then ICU_ISL_EOI else ICU_EOI k.val) = true →
    y = s.itgt k →
    (y.insvc = some n.val → ∃ t, exec (.eoi i k n) s = .next t ∧ t.itgt k = { y with
        insvc := none
        sample := if n.val < 0xE00 then some n.val else none } ∧ (∀ m, m ≠ k.val → t.itgt m = s.itgt m) ∧ t.icu.src = s.icu.src ∧
      t = { s with icu := t.icu }) ∧
    (y.insvc ≠ some n.val → ∃ t, exec (.eoi i k n) s = .next t ∧ t.get ICU_EOI_ERR_EOI_ERR = min (s.get ICU_EOI_ERR_EOI_ERR + 1) (2 ^ 32 - 1) ∧
      t.get ⟨0x50014, 0, 1⟩ = 1 ∧ t.icu = s.icu ∧ t.kept = s.kept)) ∧
  (∀ (k : Fin 257) (s : State),
    ((s.itgt k).sample = none → exec (.sampleAnswer k) s = .next s) ∧
    (∀ n pg, (s.itgt k).sample = some n → n < 0x600 → n % 64 < blockPages (n / 64) → pg = blockBase (n / 64) + 0x1000 * (n % 64) →
      ∃ t, exec (.sampleAnswer k) s = .next t ∧ (t.itgt k).sample = none ∧ (t.itgt k).insvc = (s.itgt k).insvc ∧
        (s.rd (pg + 0x14) &&& s.rd (pg + 0x18) ≠ 0 → t.isrc n = { s.isrc n with p := true }) ∧
        (s.rd (pg + 0x14) &&& s.rd (pg + 0x18) = 0 → t.isrc n = s.isrc n) ∧ (∀ m, m ≠ n → t.isrc m = s.isrc m) ∧ t.kept = s.kept)) ∧
  (∀ (k : Fin 257) (s : State),
    (s.candidate k = none ∨ (k.val ≠ 256 ∧ (s.itgt k).mask = false ∧ (s.itgt k).sleep = false) ∨ (k.val = 256 ∧ s.aon.fast = true) →
      exec (.targetWake k) s = .next s) ∧
    (k.val = 256 → s.aon.fast = false → (s.candidate 256).isSome = true → s.get SEC_STAT_ISLAND_OK = 1 →
      exec (.targetWake k) s = .next { s with aon := { s.aon with fast := true } }) ∧
    (k.val ≠ 256 → (s.itgt k).mask = true ∨ (s.itgt k).sleep = true → (s.candidate k).isSome = true → s.get HIF_LINK_STAT_DSTATE = 3 →
      s.hif.pmeEn = true → exec (.targetWake k) s = .next { s with hif := { s.hif with pmes := s.hif.pmes + 1 } }))

/-! ### 17: counters, dumps and the capture ring -/

/-- COUNTER_REPORT, COUNTER_WRITE, COUNTER_READ, COUNT_LOOKUP and COUNTER_PAGE_READ (R400, R401, R402, R403, R405, R406, R408, R409, R429): an
enabled CNT adds an occurrence to every counter that selects it, saturating with SAT at 2⁴⁸ − 1; a WRITE reprograms the selected counter without
an edge and clears it on demand; a COUNT adds its increment or misses; a page read answers a count whose high word it captures for that page. -/
def Obligations.CountersCountTheirSelection : Prop :=
  (∀ s : State, s.reports = [] → exec (.counterReport false none) s = .next s) ∧
  (∀ (e : CEvent) (l : List CEvent) (s : State), s.reports = e :: l →
    (s.cfg (ctlEn cntPage) ≠ 1 → exec (.counterReport false none) s = .next { s with reports := l }) ∧
    (s.cfg (ctlEn cntPage) = 1 → Tbl.wf (fun _ => ({} : Prog)) s.cnt.prog = true →
      ∃ t, exec (.counterReport false none) s = .next t ∧ (∃ l', t.reports = l ++ l') ∧
        (∀ n, (s.prog n).mode ≠ 0 → (s.prog n).counts e = true → t.prog n = { s.prog n with
          value := min ((s.prog n).value + 1) (2 ^ 48 - 1)
          sat := (s.prog n).sat || decide (2 ^ 48 - 1 ≤ (s.prog n).value + 1) }) ∧
        (∀ n, (s.prog n).mode = 0 ∨ (s.prog n).counts e = false → t.prog n = s.prog n) ∧ t.sch = s.sch ∧ t.kept = s.kept)) ∧
  (∀ s : State, s.cfg (ctlEn cntPage) = 1 → Tbl.wf (fun _ => ({} : Prog)) s.cnt.prog = true →
    ∃ t, exec (.counterReport true none) s = .next t ∧ t.ovl = { s.ovl with cyc := [] } ∧ t.kept = s.kept ∧
      ∀ (n : Nat) (x : Prog), x = s.prog n →
        (condType x.type = false → t.prog n = x) ∧
        (condType x.type = true → (t.prog n).prev = s.condition x ∧ (t.prog n).cfg0 = x.cfg0 ∧ (t.prog n).cfg1 = x.cfg1 ∧
          (t.prog n).value = if s.condition x = true ∧ (x.mode = 2 ∨ x.mode = 1 ∧ x.prev = false) then min (x.value + 1) (2 ^ 48 - 1) else x.value)) ∧
  (∀ (b : Bool) (n : Fin 4096) (s : State), ∃ t, exec (.counterReport b (some n)) s = .next t ∧ (t.prog n).sat = true ∧ t.get ⟨0x90010, 0, 1⟩ = 1 ∧
    t.kept = s.kept) ∧
  (∀ (i : Fin 5) (clear : Bool) (n : Nat) (s : State), s.reaches i CNT_CMD = true → n = s.get CNT_SEL_INDEX →
    ∃ t, exec (.counterWrite i clear) s = .next t ∧ (t.prog n).cfg0 = s.rd CNT_CFG0 &&& 0x3FFFFF ∧ (t.prog n).cfg1 = s.rd CNT_CFG1 &&& 0x1FFFF ∧
      (condType (t.prog n).type = true → (t.prog n).prev = s.condition (t.prog n)) ∧
      (clear = true → (t.prog n).value = 0 ∧ (t.prog n).sat = false) ∧
      (clear = false → (t.prog n).value = (s.prog n).value ∧ (t.prog n).sat = (s.prog n).sat) ∧
      (∀ m, m ≠ n → t.prog m = s.prog m) ∧ t = { s with cnt := { s.cnt with prog := t.cnt.prog } }) ∧
  (∀ (i : Fin 5) (x : Prog) (s : State), s.reaches i CNT_CMD = true → x = s.prog (s.get CNT_SEL_INDEX) →
    ∃ t, exec (.counterRead i) s = .next t ∧ t.rd CNT_CFG0 = x.cfg0 ∧ t.rd CNT_CFG1 = x.cfg1 ∧
      (∀ b, b ≠ CNT_CFG0 → b ≠ CNT_CFG1 → t.rd b = s.rd b) ∧ t = { s with regs := t.regs }) ∧
  (∀ (k : Nat) (bad : Bool) (s : State), s.lookup k .count = none → exec (.countLookup k bad) s = .next s) ∧
  (∀ (k w : Nat) (x : Prog) (l : Lookup) (s : State), s.lookup k .count = some l → w = beNat (bytesAt l.key 0 2) → x = s.prog w →
    (s.cfg (ctlEn cntPage) ≠ 1 → ∀ b, exec (.countLookup k b) s = .next (s.answer k (errRes 2))) ∧
    (s.cfg (ctlEn cntPage) = 1 → l.key.length ≠ 4 ∨ l.tid ≠ 0 ∨ 4096 ≤ w → ∀ b, exec (.countLookup k b) s = .next (s.answer k (errRes 1))) ∧
    (s.cfg (ctlEn cntPage) = 1 → l.key.length = 4 → l.tid = 0 → w < 4096 →
      (x.type ≠ 4 ∨ x.mode = 0 → exec (.countLookup k false) s = .next (s.answer k missRes)) ∧
      (x.type = 4 → x.mode ≠ 0 → ∃ t, exec (.countLookup k false) s = .next t ∧ t.lkp = (s.answer k (mkRes 1 0 0 0 0)).lkp ∧
        (t.prog w).value = min (x.value + if x.mode = 1 then beNat (bytesAt l.key 2 2) else 1) (2 ^ 48 - 1) ∧
        (∀ m, m ≠ w → t.prog m = s.prog m) ∧ t.kept = s.kept))) ∧
  (∀ (p : Fin 4096) (w : Fin 1024) (v : Nat) (s : State), v = s.pageCount p (w.val / 2) →
    (w.val % 2 = 0 → (∃ t, exec (.counterPageRead p w true) s = .next t ∧ t = { s with rbytes := leBytes 8 v }) ∧
      ∃ t, exec (.counterPageRead p w false) s = .next t ∧ t.rbytes = leBytes 4 v ∧
        Tbl.get (fun _ => none) t.cnt.pageCap p = some (w.val / 2, BitVec.ofNat 32 (v / 2 ^ 32)) ∧
        (∀ q, q ≠ p.val → Tbl.get (fun _ => none) t.cnt.pageCap q = Tbl.get (fun _ => none) s.cnt.pageCap q) ∧ t.cnt.prog = s.cnt.prog ∧
        t.regs = s.regs ∧ t.kept = s.kept) ∧
    (∀ c, w.val % 2 = 1 → Tbl.get (fun _ => none) s.cnt.pageCap p = some (w.val / 2, c) →
      ∃ t, exec (.counterPageRead p w false) s = .next t ∧ t.rbytes = leBytes 4 c.toNat ∧ Tbl.get (fun _ => none) t.cnt.pageCap p = none ∧
        (∀ q, q ≠ p.val → Tbl.get (fun _ => none) t.cnt.pageCap q = Tbl.get (fun _ => none) s.cnt.pageCap q) ∧ t.cnt.prog = s.cnt.prog ∧
        t.regs = s.regs ∧ t.kept = s.kept) ∧
    (w.val % 2 = 1 → (∀ c, Tbl.get (fun _ => none) s.cnt.pageCap p ≠ some (w.val / 2, c)) →
      exec (.counterPageRead p w false) s = .next { s with rbytes := leBytes 4 (v / 2 ^ 32) }) ∧
    (p.val < 256 → w.val < 32 → v = (s.prog (16 * p + w.val / 2)).value + 2 ^ 63 * b2n (s.prog (16 * p + w.val / 2)).sat) ∧
    (515 ≤ p.val → v = 0))

/-- DUMP_INSTANT, DUMP_COMMIT, CAPTURE_TRIGGER and CAPTURE_WRITE (R410, R411, R412, R413, R414, R415, R416, R418, R430): a dump begins with COMMIT 0 and its
header and ends with COMMIT equal to SEQ; one that finds another unfinished is skipped and one without a place fails; the lowest trigger that takes an
event queues its record, up to MAXREC in a period; the Scrivener writes it at CAP_WR with the next SEQ or loses it. -/
def Obligations.DumpsAndCapturesAreWritten : Prop :=
  (∀ s : State, s.cfg (ctlEn cntPage) ≠ 1 ∨ s.get CNT_DUMP_CFG_EN ≠ 1 ∨ s.tb.ns % (s.dumpMs * 1000000) ≠ 0 → exec .dumpInstant s = .next s) ∧
  (∀ s : State, s.cfg (ctlEn cntPage) = 1 → s.get CNT_DUMP_CFG_EN = 1 → s.tb.ns % (s.dumpMs * 1000000) = 0 →
    (s.cnt.dump.isSome = true → ∃ t, exec .dumpInstant s = .next t ∧ t.get CNT_DUMP_ERR_SKIPS = min (s.get CNT_DUMP_ERR_SKIPS + 1) (2 ^ 16 - 1) ∧
      t.get ⟨0x90014, 1, 1⟩ = 1 ∧ t.cnt = s.cnt ∧ t.hostWrites = s.hostWrites ∧ t.kept = s.kept) ∧
    (s.cnt.dump = none → (s.get CNT_DUMP_CFG_DEST = 1 ∧ s.get CNT_DUMP_NSLOT_NSLOT = 0) ∨ (s.get CNT_DUMP_CFG_DEST ≠ 1 ∧ s.stacksUp = false) →
      ∃ t, exec .dumpInstant s = .next t ∧ t.get CNT_DUMP_ERR_FAILS = min (s.get CNT_DUMP_ERR_FAILS + 1) (2 ^ 16 - 1) ∧
        t.get ⟨0x90014, 3, 1⟩ = 1 ∧ t.cnt = s.cnt ∧ t.hostWrites = s.hostWrites ∧ t.kept = s.kept) ∧
    (∀ n seq at0, s.cnt.dump = none → seq = nextSeq s.cnt.seq → s.get CNT_DUMP_CFG_DEST = 1 → n = s.get CNT_DUMP_NSLOT_NSLOT → n ≠ 0 →
      at0 = (s.rd CNT_DUMP_ADDR_LO).toNat / 4096 * 4096 + 2 ^ 32 * (s.rd CNT_DUMP_ADDR_HI).toNat + seq % n * 0x44000 →
      ∃ t, exec .dumpInstant s = .next t ∧ (∃ l, t.hostWrites = s.hostWrites ++ (at0 + 0x43000, leBytes 8 0) :: (at0, s.dumpHeader seq) :: l) ∧
        t.cnt = { s.cnt with
          dump := some ⟨at0, seq, true⟩
          seq := seq } ∧ t.regs = s.regs ∧ t.kept = s.kept) ∧
    (∀ n seq at0, s.cnt.dump = none → seq = nextSeq s.cnt.seq → s.get CNT_DUMP_CFG_DEST ≠ 1 → n = s.cfg HBC_REGION_CFG_STAT_U * 0x4000000 / 0x44000 →
      n ≠ 0 → s.stacksUp = true → at0 = s.dumpBase + seq % n * 0x44000 →
      ∃ t, exec .dumpInstant s = .next t ∧ (∀ k, k < 64 → t.hbmByte (at0 + k) = (s.dumpHeader seq).getD k 0) ∧
        (∀ k, k < 8 → t.hbmByte (at0 + 0x43000 + k) = 0) ∧ (∀ a, a < at0 ∨ at0 + 0x44000 ≤ a → t.hbmByte a = s.hbmByte a) ∧
        t.cnt = { s.cnt with
          dump := some ⟨at0, seq, false⟩
          seq := seq } ∧ t.hostWrites = s.hostWrites ∧ t.regs = s.regs ∧ t.outside = s.outside)) ∧
  (∀ (ok : Bool) (s : State), s.cnt.dump = none → exec (.dumpCommit ok) s = .next s) ∧
  (∀ (d : Dump) (s : State), s.cnt.dump = some d →
    (d.host = true → (∃ t, exec (.dumpCommit true) s = .next t ∧
        t.hostWrites = s.hostWrites ++ [(d.base + 0x43000, leBytes 4 d.seq ++ leBytes 4 0)] ∧ t.cnt = { s.cnt with dump := none } ∧
        t.get CNT_DUMP_STAT_SEQ = d.seq % 2 ^ 32 ∧ t.get ⟨0x90014, 0, 1⟩ = 1 ∧ t.kept = s.kept) ∧
      ∃ t, exec (.dumpCommit false) s = .next t ∧ t.hostWrites = s.hostWrites ∧ t.cnt = { s.cnt with dump := none } ∧
        t.get CNT_DUMP_ERR_FAILS = min (s.get CNT_DUMP_ERR_FAILS + 1) (2 ^ 16 - 1) ∧ t.get ⟨0x90010, 1, 1⟩ = 1 ∧ t.get ⟨0x90014, 3, 1⟩ = 1 ∧
        t.get CNT_DUMP_STAT_SEQ = s.get CNT_DUMP_STAT_SEQ ∧ t.kept = s.kept) ∧
    (d.host = false → s.stacksUp = true → ∀ ok, ∃ t, exec (.dumpCommit ok) s = .next t ∧
      (∀ k, k < 4 → t.hbmByte (d.base + 0x43000 + k) = (leBytes 4 d.seq).getD k 0) ∧
      (∀ a, a < d.base + 0x43000 ∨ d.base + 0x43008 ≤ a → t.hbmByte a = s.hbmByte a) ∧ t.cnt = { s.cnt with dump := none } ∧
      t.get CNT_DUMP_STAT_SEQ = d.seq % 2 ^ 32 ∧ t.get ⟨0x90014, 0, 1⟩ = 1 ∧ t.hostWrites = s.hostWrites ∧ t.outside = s.outside)) ∧
  (∀ s : State, s.capEv = [] → exec .captureTrigger s = .next s) ∧
  (∀ (e : CapEvent) (l : List CapEvent) (s : State), s.capEv = e :: l →
    (s.cfg (ctlEn capPage) ≠ 1 ∨ (∀ i, i < 16 → s.trigTakes i e = false) → exec .captureTrigger s = .next { s with capEv := l }) ∧
    (∀ i us p n, s.cfg (ctlEn capPage) = 1 → i < 16 → s.trigTakes i e = true → (∀ j, j < i → s.trigTakes j e = false) →
      us = max 1 (s.get (CAP_TRIG_LIM_PERIOD_US i)) → p = Tbl.get (fun _ => (0, 0, 0)) s.cap.per i →
      n = (if p.1 = e.t / 1000000000 ∧ p.2.1 = e.t % 1000000000 / 1000 / us then p.2.2 else 0) →
      (s.get (CAP_TRIG_LIM_MAXREC i) ≠ 0 → s.get (CAP_TRIG_LIM_MAXREC i) ≤ n → ∃ t, exec .captureTrigger s = .next t ∧
        t.get (CAP_TRIG_SUPP_SUPP i) = min (s.get (CAP_TRIG_SUPP_SUPP i) + 1) (2 ^ 32 - 1) ∧ t.cap = s.cap ∧ t.capEv = l ∧ t.kept = s.kept) ∧
      (s.get (CAP_TRIG_LIM_MAXREC i) = 0 ∨ n < s.get (CAP_TRIG_LIM_MAXREC i) →
        (4096 ≤ s.cap.q.length ∨ s.capUnits = 0 → ∃ t, exec .captureTrigger s = .next t ∧
          t.get CAP_LOST_LOST = min (s.get CAP_LOST_LOST + 1) (2 ^ 32 - 1) ∧ t.get ⟨0xA0014, 0, 1⟩ = 1 ∧ t.cap.lost = true ∧ t.cap.q = s.cap.q ∧
          (Tbl.get (fun _ => (0, 0, 0)) t.cap.per i).2.2 = n + 1 ∧ t.capEv = l ∧ t.kept = s.kept) ∧
        (s.cap.q.length < 4096 → s.capUnits ≠ 0 → ∃ t, exec .captureTrigger s = .next t ∧
          t.cap.q = s.cap.q ++ [capRecord i (min 8 (s.get (CAP_TRIG_CFG_SNAP i))) e] ∧ t.cap.lost = s.cap.lost ∧
          (Tbl.get (fun _ => (0, 0, 0)) t.cap.per i).2.2 = n + 1 ∧
          t.get (CAP_TRIG_CNT_RECS i) = min (s.get (CAP_TRIG_CNT_RECS i) + 1) (2 ^ 32 - 1) ∧ t.capEv = l ∧ t.kept = s.kept)))) ∧
  (∀ (b : Bool) (s : State), s.cap.q = [] → exec (.captureWrite b) s = .next s) ∧
  (∀ (b : List Byte) (l : List (List Byte)) (n w k : Nat) (s : State), s.cap.q = b :: l → n = s.capUnits → w = s.get CAP_WR_OFF → k = b.length / 32 →
    (∃ t, exec (.captureWrite true) s = .next t ∧ t.cap.q = l ∧ t.cap.lost = true ∧ t.get ⟨0xA0010, 0, 1⟩ = 1 ∧
      t.get CAP_LOST_LOST = min (s.get CAP_LOST_LOST + 1) (2 ^ 32 - 1) ∧ t.kept = s.kept) ∧
    (n = 0 ∨ s.stacksUp = false ∨ (s.get CAP_CFG_FULL = 0 ∧ n - s.capUsed < k) → ∃ t, exec (.captureWrite false) s = .next t ∧ t.cap.q = l ∧
      t.cap.lost = true ∧ t.get CAP_LOST_LOST = min (s.get CAP_LOST_LOST + 1) (2 ^ 32 - 1) ∧ t.get CAP_WR_OFF = w ∧
      t.get CAP_SEQ_SEQ = s.get CAP_SEQ_SEQ ∧ t.kept = s.kept) ∧
    (n ≠ 0 → s.stacksUp = true → s.get CAP_CFG_FULL = 1 ∨ k ≤ n - s.capUsed → k ≤ n - w → s.cap.lost = false →
      ∃ t, exec (.captureWrite false) s = .next t ∧ t.cap.q = l ∧
        (∀ j, j < b.length → t.hbmByte (s.capBase + 32 * w + j) = (patchBytes b 20 (leBytes 4 (s.get CAP_SEQ_SEQ))).getD j 0) ∧
        (∀ a, a < s.capBase + 32 * w ∨ s.capBase + 32 * w + b.length ≤ a → t.hbmByte a = s.hbmByte a) ∧
        t.get CAP_WR_OFF = (w + k) % n % 2 ^ 29 ∧ t.get CAP_SEQ_SEQ = (s.get CAP_SEQ_SEQ + 1) % 2 ^ 32 ∧
        t.get CAP_RECS_RECS = min (s.get CAP_RECS_RECS + 1) (2 ^ 32 - 1) ∧ t.get CAP_LOST_LOST = s.get CAP_LOST_LOST ∧ t.outside = s.outside))

/-! ### 18: the time base -/

/-- TIME_READ and PPS_IN_READ, with the reads of the registers that they capture (R420): a read of TIM_NOW_NS captures TIM_NOW_SLO and TIM_NOW_SHI of
the same cycle for its initiator; each gives up its capture when that initiator reads it and answers the current value without one; TIM_PPS_IN_NS
captures TIM_PPS_IN_SLO in the same way; neither this capture nor that of R33 disturbs the other. -/
def Obligations.TimeReadsCaptureOneCycle : Prop :=
  let cap (s : State) (i k : Nat) : Option Word := Tbl.get (fun _ => none) s.tim.cap (4 * i + k)
  let ans (s : State) (i : Nat) : Word := Tbl.get (fun _ => 0) s.rdata i
  let only (s t : State) : Prop := t = { s with
    tim := { s.tim with cap := t.tim.cap }
    rdata := t.rdata }
  (∀ (i : Fin 5) (s : State), s.reaches i TIM_NOW_NS = true →
    ∃ t, exec (.timeRead i) s = .next t ∧ exec (.loRegisterRead i (BitVec.ofNat 27 TIM_NOW_NS) false) s = .next t ∧
      ans t i = BitVec.ofNat 32 s.tb.ns ∧ cap t i 0 = some (BitVec.ofNat 32 s.tb.sec) ∧
      cap t i 1 = some (BitVec.ofNat 32 (s.tb.sec / 2 ^ 32 + s.tb.frac / 2 ^ 24 * 2 ^ 16)) ∧ cap t i 2 = cap s i 2 ∧
      (∀ (j : Fin 5) (k : Fin 3), j ≠ i → cap t j k = cap s j k) ∧ only s t) ∧
  (∀ (i : Fin 5) (s : State), s.reaches i TIM_PPS_IN_NS = true →
    ∃ t, exec (.ppsInRead i) s = .next t ∧ exec (.loRegisterRead i (BitVec.ofNat 27 TIM_PPS_IN_NS) false) s = .next t ∧
      ans t i = s.rd TIM_PPS_IN_NS ∧ cap t i 2 = some (s.rd TIM_PPS_IN_SLO) ∧ cap t i 0 = cap s i 0 ∧ cap t i 1 = cap s i 1 ∧
      (∀ (j : Fin 5) (k : Fin 3), j ≠ i → cap t j k = cap s j k) ∧ only s t) ∧
  (∀ (i : Fin 5) (k : Fin 3) (a : Nat) (cur : Word) (s : State),
    (k = 0 ∧ a = TIM_NOW_SLO ∧ cur = BitVec.ofNat 32 s.tb.sec) ∨
      (k = 1 ∧ a = TIM_NOW_SHI ∧ cur = BitVec.ofNat 32 (s.tb.sec / 2 ^ 32 + s.tb.frac / 2 ^ 24 * 2 ^ 16)) ∨
      (k = 2 ∧ a = TIM_PPS_IN_SLO ∧ cur = s.rd TIM_PPS_IN_SLO) →
    s.reaches i a = true →
    ∃ t, exec (.loRegisterRead i (BitVec.ofNat 27 a) false) s = .next t ∧ exec (.hiRegisterRead i (BitVec.ofNat 27 a)) s = .next t ∧
      ans t i = (cap s i k).getD cur ∧ cap t i k = none ∧
      (∀ (j : Fin 5) (m : Fin 3), (j, m) ≠ (i, k) → cap t j m = cap s j m) ∧ only s t) ∧
  (∀ (i : Fin 5) (addr : BitVec 27) (s : State), addr.toNat % 4 = 0 → s.reaches i addr.toNat = true → pairOf addr.toNat ≠ .plain → blockOf addr.toNat ≠ 7 →
    (∃ t, exec (.loRegisterRead i addr false) s = .next t ∧ t.tim = s.tim) ∧ ∃ t, exec (.hiRegisterRead i addr) s = .next t ∧ t.tim = s.tim)

/-- TIME_SET, TIME_STEP, PLL_LOCK_LOSS, TIME_PLL_LOCK, PPS_IN_EDGE, PPS_OUT_EDGE, SYNCE_SQUELCH, SYNCE_RESTORE, TIME_SEND, TIME_MESSAGE and TIME_HOLDOVER
(R419, R421, R422, R424, R425, R426, R427, R432): the time base is loaded and stepped, or the command refused with CMD_ERR; lock, edges and squelches set
their bits; TIME goes to the far end of every UP link; the servo of the followed link steps or slews; a silence of 1 ms is holdover. That a step with
an empty queue is one nanosecond is the model's choice (log 2); the time base then advances by 1 ns, FREQ × 2⁻⁴⁰ ns and the slew's part. -/
def Obligations.TheTimeBaseIsKept : Prop :=
  (∀ s : State, s.pending = [] →
    ∃ t, step s = .next t ∧ t.now = s.now + 1 ∧ t.regs = s.regs ∧ t.hbm = s.hbm ∧ t.pending = [] ∧ t.sec = s.sec ∧
      (s.held = true ∨ s.refLost = true → t = { s with now := s.now + 1 }) ∧
      (s.held = false → s.refLost = false →
        t.tbFull = ((s.tbFull : Int) + 2 ^ 40 + sgn 32 (s.rd TIM_FREQ).toNat + s.tim.part).toNat % (2 ^ 48 * 1000000000 * 2 ^ 40))) ∧
  (∀ (i : Fin 5) (s : State), s.reaches i TIM_CMD = true →
    ((s.rd TIM_ARG_NS).toNat ≤ 999999999 → ∃ t, exec (.timeSet i) s = .next t ∧
      t.tb = ⟨(s.rd TIM_ARG_SLO).toNat + 2 ^ 32 * s.get TIM_ARG_SHI_SEC, (s.rd TIM_ARG_NS).toNat, s.get TIM_ARG_SHI_FRAC * 2 ^ 24⟩ ∧
      t.get TIM_CMD_CMD_ERR = 0 ∧ (∀ b, b ≠ TIM_CMD → t.rd b = s.rd b) ∧ t = { s with
        tb := t.tb
        regs := t.regs }) ∧
    (999999999 < (s.rd TIM_ARG_NS).toNat → ∃ t, exec (.timeSet i) s = .next t ∧ t.get TIM_CMD_CMD_ERR = 1 ∧
      (∀ b, b ≠ TIM_CMD → t.rd b = s.rd b) ∧ t = { s with regs := t.regs }) ∧
    (∀ n : Int, n = (s.tbFull : Int) + sgn 32 (s.rd TIM_ARG_NS).toNat * 2 ^ 40 →
      (n < 0 → ∃ t, exec (.timeStep i) s = .next t ∧ t.get TIM_CMD_CMD_ERR = 1 ∧ (∀ b, b ≠ TIM_CMD → t.rd b = s.rd b) ∧
        t = { s with regs := t.regs }) ∧
      (0 ≤ n → ∃ t, exec (.timeStep i) s = .next t ∧ (t.tbFull : Int) = n % (2 ^ 48 * 1000000000 * 2 ^ 40) ∧ t.tb.ns < 1000000000 ∧
        t.get TIM_CMD_CMD_ERR = 0 ∧ (∀ b, b ≠ TIM_CMD → t.rd b = s.rd b) ∧ t = { s with
          tb := t.tb
          regs := t.regs }))) ∧
  (∀ s : State,
    (∃ t, exec .timePllLock s = .next t ∧ t.get TIM_STAT_LOCKED = 1 ∧ (∀ b, b ≠ TIM_STAT → t.rd b = s.rd b) ∧ t = { s with regs := t.regs }) ∧
    (s.get TIM_STAT_LOCKED = 0 → exec .pllLockLoss s = .next s) ∧
    (s.get TIM_STAT_LOCKED = 1 → ∃ t, exec .pllLockLoss s = .next t ∧ t.get TIM_STAT_LOCKED = 0 ∧ t.get ⟨0x80014, 1, 1⟩ = 1 ∧
      t.get ⟨0x80010, 0, 1⟩ = 1 ∧ t.raises = s.raises ++ [⟨448, 0, 0, 0, 0, 0, s.tb.sec % 2 ^ 32, s.tb.ns⟩] ∧ t.rd TIM_FREQ = s.rd TIM_FREQ ∧
      t.tb = s.tb ∧ t.kept = s.kept) ∧
    (s.get TIM_PPS_CFG_IN_EN = 0 → exec .ppsInEdge s = .next s) ∧
    (∀ n : Nat, s.get TIM_PPS_CFG_IN_EN = 1 → (n : Int) = (s.tbNs : Int) - sgn 16 (s.get TIM_PPS_OFS_IN_DLY) →
      ∃ t, exec .ppsInEdge s = .next t ∧ t.rd TIM_PPS_IN_NS = BitVec.ofNat 32 (n % 1000000000) ∧
        t.rd TIM_PPS_IN_SLO = BitVec.ofNat 32 (n / 1000000000) ∧ t.get ⟨0x80014, 0, 1⟩ = 1 ∧ t.tb = s.tb ∧ t.kept = s.kept) ∧
    (s.timOn = false ∨ s.get TIM_PPS_CFG_OUT_EN = 0 →
      exec .ppsOutEdge s = .next { s with tim := { s.tim with pps := none } }) ∧
    (s.timOn = true → s.get TIM_PPS_CFG_OUT_EN = 1 → s.tim.pps = none →
      ((s.tbNs : Int) - sgn 16 (s.get TIM_PPS_OFS_OUT_OFS)) % 1000000000 = 0 →
      ∃ t, exec .ppsOutEdge s = .next t ∧ t.ppsOut = true ∧ t = { s with tim := { s.tim with pps := some s.tbNs } }) ∧
    (∀ t0, s.timOn = true → s.get TIM_PPS_CFG_OUT_EN = 1 → s.tim.pps = some t0 →
      (t0 + min 999 (max 1 (s.get TIM_PPS_CFG_WIDTH_MS)) * 1000000 ≤ s.tbNs →
        ∃ t, exec .ppsOutEdge s = .next t ∧ t.ppsOut = false ∧ t = { s with tim := { s.tim with pps := none } }) ∧
      (s.tbNs < t0 + min 999 (max 1 (s.get TIM_PPS_CFG_WIDTH_MS)) * 1000000 → exec .ppsOutEdge s = .next s))) ∧
  (∀ (n : Fin 2) (lost : Bool) (s : State),
    (s.synceEn n = false ∨ (lost = false ∧ s.synceUp n = true) ∨ s.get (synceSq n) = 1 → exec (.synceSquelch n lost) s = .next s) ∧
    (s.synceEn n = true → lost = true ∨ s.synceUp n = false → s.get (synceSq n) = 0 →
      ∃ t, exec (.synceSquelch n lost) s = .next t ∧ t.get (synceSq n) = 1 ∧ t.get ⟨0x80014, 4, 1⟩ = 1 ∧ t.tb = s.tb ∧ t.kept = s.kept) ∧
    (s.synceUp n = false → exec (.synceRestore n) s = .next s) ∧
    (s.synceUp n = true → ∃ t, exec (.synceRestore n) s = .next t ∧ t.get (synceSq n) = 0 ∧ (∀ b, b ≠ TIM_STAT → t.rd b = s.rd b) ∧
      t = { s with regs := t.regs })) ∧
  (∀ s : State,
    (s.timOn = false ∨ s.timRole = 0 ∨ s.now - s.tim.sentAt < s.timeUs * 1000 → exec .timeSend s = .next s) ∧
    (∀ d, s.timOn = true → (s.timRole = 1 ∧ d = 0) ∨ (s.timRole = 2 ∧ d = min 15 (s.get TIM_STAT_DEPTH + 1)) →
      s.timeUs * 1000 ≤ s.now - s.tim.sentAt →
      ∃ t, exec .timeSend s = .next t ∧ t.tim.sentAt = s.now ∧ t.cly.ctrl = s.cly.ctrl ++
        ((List.range 256).filter fun l => s.linkState l == 3).map (fun l => (s.get (CLY_LINK_STAT_FAR_DEV (l / 32) (l % 32)),
          [BitVec.ofNat 8 4, BitVec.ofNat 8 d] ++ List.replicate 14 0)) ∧ t.regs = s.regs ∧ t.tb = s.tb ∧ t.kept = s.kept) ∧
    (s.timOn = false ∨ s.timRole ≠ 2 ∨ s.get TIM_STAT_HOLDOVER = 1 ∨ s.now - s.tim.lastAt < 1000000 → exec .timeHoldover s = .next s) ∧
    (s.timOn = true → s.timRole = 2 → s.get TIM_STAT_HOLDOVER = 0 → 1000000 ≤ s.now - s.tim.lastAt →
      ∃ t, exec .timeHoldover s = .next t ∧ t.get TIM_STAT_HOLDOVER = 1 ∧ t.get ⟨0x80014, 2, 1⟩ = 1 ∧ t.rd TIM_FREQ = s.rd TIM_FREQ ∧ t.tb = s.tb ∧
        t.kept = s.kept)) ∧
  (∀ (m : CtlMsg) (l : List CtlMsg) (s : State), s.cly.inbox = m :: l →
    (byteAt m.b 0 ≠ 4 → exec .timeMessage s = .next s) ∧
    (byteAt m.b 0 = 4 → s.timOn = false ∨ s.timRole ≠ 2 →
      exec .timeMessage s = .next { s with cly := { s.cly with inbox := l } }) ∧
    (∀ (s' : State) (e : Int), byteAt m.b 0 = 4 → s.timOn = true → s.timRole = 2 → s' = { s with tim := { s.tim with
        heard := Tbl.set (fun _ => none) s.tim.heard m.link (some (byteAt m.b 1 % 16, s.now))
        lastAt := s.now } } →
      e = (((leNat (bytesAt m.b 8 6) * 1000000000 + leNat (bytesAt m.b 4 4)) * 2 ^ 16 + leNat (bytesAt m.b 2 2) +
        s.get (CLY_LINK_DLY_DLY (m.link / 32) (m.link % 32)) * 256 : Nat) : Int) - (m.t * 2 ^ 16 : Nat) →
      (s'.timeLink ≠ some m.link → ∃ t, exec .timeMessage s = .next t ∧ t.get TIM_STAT_HOLDOVER = 0 ∧ t.tim = s'.tim ∧ t.tb = s.tb ∧
        t.cly.inbox = l ∧ (∀ b, b ≠ TIM_STAT → t.rd b = s.rd b) ∧ t.kept = s.kept) ∧
      (s'.timeLink = some m.link → s.get TIM_CFG_STEP_THR * 65536 < e.natAbs → 0 ≤ (s.tbFull : Int) + e * 2 ^ 24 →
        ∃ t, exec .timeMessage s = .next t ∧ (t.tbFull : Int) = ((s.tbFull : Int) + e * 2 ^ 24) % (2 ^ 48 * 1000000000 * 2 ^ 40) ∧
          t.get ⟨0x80014, 3, 1⟩ = 1 ∧ t.get TIM_STAT_HOLDOVER = 0 ∧ t.get TIM_STAT_DEPTH = byteAt m.b 1 % 16 ∧
          t.rd TIM_OFFSET = BitVec.ofInt 32 (max (-(2 ^ 31)) (min (2 ^ 31 - 1) e)) ∧ t.rd TIM_FREQ = s.rd TIM_FREQ ∧ t.cly.inbox = l ∧ t.kept = s.kept) ∧
      (s'.timeLink = some m.link → e.natAbs ≤ s.get TIM_CFG_STEP_THR * 65536 →
        ∃ t, exec .timeMessage s = .next t ∧ t.tb = s.tb ∧ t.tim.slew = e / 2 ^ s.get TIM_CFG_KP_SH * 2 ^ 24 ∧ t.tim.slewN = s.timeUs * 1000 ∧
          t.tim.slewI = 0 ∧ t.get TIM_STAT_HOLDOVER = 0 ∧ t.get TIM_STAT_DEPTH = byteAt m.b 1 % 16 ∧
          t.rd TIM_OFFSET = BitVec.ofInt 32 (max (-(2 ^ 31)) (min (2 ^ 31 - 1) e)) ∧
          t.rd TIM_FREQ = BitVec.ofInt 32 (max (-(2 ^ 31)) (min (2 ^ 31 - 1) (sgn 32 (s.rd TIM_FREQ).toNat + e / 2 ^ s.get TIM_CFG_KI_SH))) ∧
          t.cly.inbox = l ∧ t.kept = s.kept)))

/-! ### 19: fault collection -/

/-- The raise `r` has its record in the place of FLT_REC_STAT.WR with the next SEQ (R435, R447), the record of PARENT, CLASS and REACT given; FIRST
takes the first PRIMARY record while it is armed, and no other (R448). -/
def Sys2Proof.recordedAs (s t : State) (r : Raise) (parent cls react : Nat) : Prop :=
  Tbl.get (fun _ => []) t.flt.recs (s.get FLT_REC_STAT_WR) = recordWords r (s.get FLT_SEQ_SEQ) parent cls react ∧
  (∀ i, i ≠ s.get FLT_REC_STAT_WR → Tbl.get (fun _ => []) t.flt.recs i = Tbl.get (fun _ => []) s.flt.recs i) ∧
  t.get FLT_SEQ_SEQ = (s.get FLT_SEQ_SEQ + 1) % 2 ^ 32 ∧ t.get FLT_REC_STAT_WR = (s.get FLT_REC_STAT_WR + 1) % 256 ∧
  (s.get FLT_REC_STAT_WRAPPED = 1 → s.flt.read.contains (s.get FLT_REC_STAT_WR) = false →
    t.get FLT_REC_STAT_OVERRUN = min (s.get FLT_REC_STAT_OVERRUN + 1) (2 ^ 16 - 1) ∧ t.get ⟨0x30014, 2, 1⟩ = 1) ∧
  (cls = 0 → s.get FLT_FIRST_CTL_FIRST_V = 0 → t.get FLT_FIRST_CTL_FIRST_V = 1 ∧ t.get ⟨0x30014, 1, 1⟩ = 1 ∧
    ∀ k : Fin 8, t.rd (FLT_FIRST k) = (recordWords r (s.get FLT_SEQ_SEQ) parent cls react).getD k 0) ∧
  (cls ≠ 0 ∨ s.get FLT_FIRST_CTL_FIRST_V = 1 → t.get FLT_FIRST_CTL_FIRST_V = s.get FLT_FIRST_CTL_FIRST_V ∧
    ∀ k : Fin 8, t.rd (FLT_FIRST k) = s.rd (FLT_FIRST k)) ∧
  (t.fsrc r.src).count = min 0xFFFF ((s.fsrc r.src).count + 1)

/-- FAULT_RAISE (R433, R435, R436, R437, R439, R440, R441, R442, R443, R444, R445, R447): the raise that comes first of one cycle is recorded, and as
PRIMARY takes its source's reaction: interrupt, trap, block reset with its shadow, error pin, safe state or chip reset; a raise of a source with its
reaction in progress is REPEAT (in a shadow too: log 61), another one in a shadow CONSEQUENTIAL, one after a chip-reset raise PREEMPTED, and none of those reacts. -/
def Obligations.RaisesAreRecordedAndReactedTo : Prop :=
  (∀ (n : Nat) (b : Bool) (s : State), s.raises = [] → exec (.faultRaise n b) s = .next s) ∧
  (∀ (r1 r2 : Raise) (l : List Raise) (s : State), s.raises = r1 :: r2 :: l → s.raiseBefore r2 r1 = true → r2.src / 64 < 24 →
    ∃ t parent cls react, exec (.faultRaise 1 false) s = .next t ∧ recordedAs s t r2 parent cls react ∧ (∃ l', t.raises = r1 :: l ++ l') ∧
      t.outside = s.outside) ∧
  (∀ (r : Raise) (l : List Raise) (s : State), s.raises = r :: l → 24 ≤ r.src / 64 → exec (.faultRaise 0 false) s = .next { s with raises := l }) ∧
  (∀ (r : Raise) (l : List Raise) (s : State), s.raises = r :: l →
    ∃ t, exec (.faultRaise 0 true) s = .next t ∧ (t.fsrc r.src).bad = true ∧ t.get ⟨0x30010, 1, 1⟩ = 1 ∧ t.outside = s.outside) ∧
  (∀ (r : Raise) (l : List Raise) (b pg : Nat) (x : FltSrc) (s : State), s.raises = r :: l → b = r.src / 64 → b < 24 → x = s.fsrc r.src →
    pg = blockBase b + 0x1000 * r.inst →
    (∀ p, s.flt.chipPend = some p → ∃ t, exec (.faultRaise 0 false) s = .next t ∧ recordedAs s t r p 3 0 ∧ t.raises = l ∧ t.flt.chipPend = some p ∧
      t.rd FLT_PIN = s.rd FLT_PIN ∧ t.safe = s.safe ∧ t.hostWrites = s.hostWrites ∧ t.kept = s.kept) ∧
    (s.flt.chipPend = none → x.reaction b = 6 → ∃ t, exec (.faultRaise 0 false) s = .next t ∧ recordedAs s t r (s.get FLT_SEQ_SEQ) 0 6 ∧
      t.flt.chipPend = some (s.get FLT_SEQ_SEQ) ∧ t.flt.shadows = [] ∧ (∀ k, (t.fsrc k).ireact = 0) ∧ t.get FLT_PIN_ERRN = 1 ∧ t.safe = s.safe ∧
      t.kept = s.kept) ∧
    (∀ sh, s.flt.chipPend = none → x.reaction b ≠ 6 → x.ireact = 0 → x.noShadow = false → s.shadowOf b = some sh →
      ∃ t, exec (.faultRaise 0 false) s = .next t ∧ recordedAs s t r sh.seq 1 0 ∧ t.raises = l ∧ t.flt.shadows = s.flt.shadows ∧
        t.rd FLT_PIN = s.rd FLT_PIN ∧ t.hostWrites = s.hostWrites ∧ t.kept = s.kept) ∧
    (s.flt.chipPend = none → x.ireact ≠ 0 → x.reaction b ≤ x.ireact →
      x.escN = 0 ∨ min 15 (x.repeats + 1) < x.escN ∨ x.escalation b ≤ x.ireact → x.reaction b ≠ 6 →
      ∃ t, exec (.faultRaise 0 false) s = .next t ∧ recordedAs s t r x.seq 2 0 ∧ (t.fsrc r.src).repeats = min 15 (x.repeats + 1) ∧ t.raises = l ∧
        t.rd FLT_PIN = s.rd FLT_PIN ∧ t.hostWrites = s.hostWrites ∧ t.kept = s.kept) ∧
    (s.flt.chipPend = none →
      (x.ireact = 0 ∧ (x.noShadow = true ∨ s.shadowOf b = none)) ∨ (x.ireact ≠ 0 ∧ x.ireact < x.reaction b) ∨
        (x.ireact ≠ 0 ∧ x.reaction b ≤ x.ireact ∧ x.escN ≠ 0 ∧ x.escN ≤ min 15 (x.repeats + 1) ∧ x.ireact < x.escalation b ∧ x.escalation b ≠ 6) → x.reaction b ≠ 6 →
      ∀ c, c = (if x.ireact = 0 ∨ x.ireact < x.reaction b then x.reaction b else x.escalation b) →
        (s.get (ctlEn fltPage) = 0 ∨ c = 0 → ∃ t, exec (.faultRaise 0 false) s = .next t ∧ recordedAs s t r (s.get FLT_SEQ_SEQ) 0 0 ∧ t.raises = l ∧
          t.rd FLT_PIN = s.rd FLT_PIN ∧ t.hostWrites = s.hostWrites ∧ t.safe = s.safe ∧ t.kept = s.kept) ∧
        (s.get (ctlEn fltPage) = 1 → c = 1 → ∃ t, exec (.faultRaise 0 false) s = .next t ∧ recordedAs s t r (s.get FLT_SEQ_SEQ) 0 1 ∧
          t.get ⟨0x30014, 0, 1⟩ = 1 ∧ t.raises = l ∧ t.rd FLT_PIN = s.rd FLT_PIN ∧ t.hostWrites = s.hostWrites ∧ t.safe = s.safe ∧
          (s.get ⟨pg + 0x10, r.src % 64 % 32, 1⟩ = 1 → (t.fsrc r.src).ireact = 1 ∧ (t.fsrc r.src).seq = s.get FLT_SEQ_SEQ) ∧ t.kept = s.kept) ∧
        (s.get (ctlEn fltPage) = 1 → c = 2 → ∃ t, exec (.faultRaise 0 false) s = .next t ∧ recordedAs s t r (s.get FLT_SEQ_SEQ) 0 2 ∧
          t.get ⟨0x30014, 0, 1⟩ = 1 ∧ t.get FLT_NMT_PEND = 1 ∧ (t.fsrc r.src).ireact = 2 ∧
          (s.get HIF_LINK_STAT_SPEED ≠ 0 → s.get HIF_LINK_STAT_DSTATE = 0 → t.hostWrites = s.hostWrites ++
            [((s.rd FLT_NMT_ADDR_LO).toNat / 4 * 4 + 2 ^ 32 * (s.rd FLT_NMT_ADDR_HI).toNat, leBytes 4 (s.rd FLT_NMT_DATA).toNat)]) ∧
          (s.get HIF_LINK_STAT_SPEED = 0 ∨ s.get HIF_LINK_STAT_DSTATE ≠ 0 → t.hostWrites = s.hostWrites ∧ t.get ⟨0x30014, 3, 1⟩ = 1) ∧
          t.outside = s.outside) ∧
        (s.get (ctlEn fltPage) = 1 → c = 3 → s.resetting pg = false → (resetPages b r.inst).any s.resetting = false → b ≠ 19 →
          ∃ t, exec (.faultRaise 0 false) s = .next t ∧ recordedAs s t r (s.get FLT_SEQ_SEQ) 0 3 ∧ t.get ⟨0x30014, 0, 1⟩ = 1 ∧
          (∀ p, p ∈ resetPages b r.inst → t.get (statResetting p) = 1 ∧ t.get ⟨p + 0x24, 4, 1⟩ = 1) ∧
          (s.flt.shadows.length < 16 →
            t.flt.shadows = s.flt.shadows ++ [{ blk := b, page := pg, seq := s.get FLT_SEQ_SEQ, since := s.now }]) ∧
          (16 ≤ s.flt.shadows.length → t.flt.shadows = s.flt.shadows ∧ t.get ⟨0x30014, 4, 1⟩ = 1) ∧ t.outside = s.outside) ∧
        (s.get (ctlEn fltPage) = 1 → 4 ≤ c → c ≤ 5 → ∃ t, exec (.faultRaise 0 false) s = .next t ∧ recordedAs s t r (s.get FLT_SEQ_SEQ) 0 c ∧
          t.get ⟨0x30014, 0, 1⟩ = 1 ∧ t.get FLT_PIN_ERRN = 1 ∧ t.get FLT_NMT_PEND = 1 ∧ (c = 5 → t.safe = true) ∧ (t.fsrc r.src).ireact = c ∧
          t.outside = s.outside)))

/-- SHADOW_CLOSE, NMT_ACK, ERROR_PIN_RELEASE, SAFE_STATE_EXIT, FIRST_REARM and RECORD_SELECT (R439, R441, R442, R444, R447, R448, R449): a shadow is closed
at its end; ACK ends the trap; REL is ignored in safe state and EXIT while the island holds it; FIRST is armed again; a selected record is read. -/
def Obligations.FaultCommandsEndReactions : Prop :=
  (∀ s : State,
    ((∀ x ∈ s.flt.shadows, ∀ d, x.done = some d → s.now < d + s.shadowUs * 1000) → exec .shadowClose s = .next s) ∧
    (∀ x l d, s.flt.shadows = x :: l → x.done = some d → d + s.shadowUs * 1000 ≤ s.now →
      ∃ t, exec .shadowClose s = .next t ∧ t = { s with flt := { s.flt with shadows := l } })) ∧
  (∀ (i : Fin 5) (s : State), s.reaches i FLT_NMT = true →
    ∃ t, exec (.nmtAck i) s = .next t ∧ t.get FLT_NMT_PEND = 0 ∧ (4, 0) ∉ t.aon.conds ∧ (∀ b, b ≠ FLT_NMT → t.rd b = s.rd b) ∧
      (∀ k, (s.fsrc k).ireact = 2 → Tbl.wf (fun _ => ({} : FltSrc)) s.flt.src = true → (t.fsrc k).ireact = 0 ∧ (t.fsrc k).repeats = 0) ∧
      t.safe = s.safe ∧ t.kept = s.kept) ∧
  (∀ (i : Fin 5) (s : State), s.reaches i FLT_PIN = true →
    (s.safe = true → exec (.errorPinRelease i) s = .next s) ∧
    (s.safe = false → ∃ t, exec (.errorPinRelease i) s = .next t ∧ t.get FLT_PIN_ERRN = 0 ∧ (∀ b, b ≠ FLT_PIN → t.rd b = s.rd b) ∧
      t.safe = false ∧ t.kept = s.kept) ∧
    (s.safe = false ∨ s.aon.conds ≠ [] → exec (.safeStateExit i) s = .next s) ∧
    (s.safe = true → s.aon.conds = [] → ∃ t, exec (.safeStateExit i) s = .next t ∧ t.safe = false ∧ t.get FLT_PIN_SAFE = 0 ∧
      t.get FLT_PIN_ERRN = s.get FLT_PIN_ERRN ∧ t.outside = s.outside)) ∧
  (∀ (i : Fin 5) (s : State), s.reaches i FLT_FIRST_CTL = true →
    ∃ t, exec (.firstRearm i) s = .next t ∧ t.get FLT_FIRST_CTL_FIRST_V = 0 ∧ (∀ b, b ≠ FLT_FIRST_CTL → t.rd b = s.rd b) ∧
      t = { s with regs := t.regs }) ∧
  (∀ (i : Fin 5) (w : Word) (n : Nat) (ws : List Word) (s : State), s.reaches i FLT_REC_SEL = true → n = w.toNat % 256 →
    ws = Tbl.get (fun _ => []) s.flt.recs n →
    (∃ t, exec (.recordSelect i w false) s = .next t ∧ t.get FLT_REC_SEL_INDEX = n ∧ (∀ k : Fin 8, t.rd (FLT_REC_DATA k) = ws.getD k 0) ∧
      (ws ≠ [] → t.flt.read.contains n = true) ∧ t.flt.recs = s.flt.recs ∧ t.kept = s.kept) ∧
    (∃ t, exec (.recordSelect i w true) s = .next t ∧ t.rd (FLT_REC_DATA 0) = ws.getD 0 0 ∧
      (∀ k : Fin 8, k ≠ 0 → t.rd (FLT_REC_DATA k) = 0) ∧ t.get ⟨0x30010, 0, 1⟩ = 1 ∧ t.flt.recs = s.flt.recs ∧ t.kept = s.kept))

/-! ### 20: the island -/

/-- ISLAND_TICK, WAKE_BEGIN, WAKE_FAIL, LEVEL_CHANGE_DONE, COOL_PERIOD, TACH_GATE, DIE_SENSOR_READING, SENSOR_TIMEOUT, ISLAND_ONLY, WAKE_CTRL,
ISLAND_RESTART and ISLAND_CONTROLLER_HALT (R451, R452, R454, R455, R456, R457, R458, R460, R461, R465, R466, R468): a tick samples and filters every channel,
evaluates every rule on the new values and forms the targets; a wake begins in the order of the rules while fewer than WAKE_MAX have begun in 10 µs; the
drive follows the loop; two readings of a sensor in a row begin or end a condition; the island-only state drains every workshop. -/
def Obligations.TheIslandKeepsItsTargets : Prop :=
  (∀ (ain : List (BitVec 12)) (p : BitVec 16) (s : State),
    (s.now - s.aon.tickAt < 640 * max 1 (s.get AON_CFG_TICK) → ∀ b, exec (.islandTick ain p b) s = .next s) ∧
    (640 * max 1 (s.get AON_CFG_TICK) ≤ s.now - s.aon.tickAt →
      (∃ t, exec (.islandTick ain p none) s = .next t ∧ t.aon.tickAt = s.now ∧ t.outside = s.outside ∧
        (∀ c : Fin 32, s.get (AON_CH_CFG_EN c) = 0 → t.get (AON_CH_VAL_RAW c) = 0 ∧ t.get (AON_CH_VAL_F c) = 0 ∧
          Tbl.get (fun _ => none) t.aon.filt c = none) ∧
        (∀ (c : Fin 32) (x y : Nat), s.get (AON_CH_CFG_EN c) = 1 → x = (s.takeInputs ain p).source (s.get (AON_CH_CFG_SRC c)) →
          y = filterStep (Tbl.get (fun _ => none) s.aon.filt c) x (s.get (AON_CH_CFG_K c)) →
          t.get (AON_CH_VAL_RAW c) = x % 2 ^ 16 ∧ t.get (AON_CH_VAL_F c) = y / 256 % 2 ^ 16 ∧ Tbl.get (fun _ => none) t.aon.filt c = some y) ∧
        (∀ r : Fin 128, bit (t.rd (AON_RULE_HELD (r / 32))).toNat (r % 32) = (s.get (ctlEn aonPage) == 1 && t.ruleHolds r)) ∧
        (∀ r : Fin 128, s.get (ctlEn aonPage) = 1 → t.ruleHolds r = true →
          (s.cfg (AON_RULE2_ACT r) = 7 → t.get ⟨0x40014, 8 + s.cfg (AON_RULE2_ARG r) % 8, 1⟩ = 1) ∧
          (s.cfg (AON_RULE2_ACT r) = 6 → (1, r.val) ∈ t.aon.conds ∧ ((1, r.val) ∉ s.aon.conds → t.safe = true))) ∧
        (s.get (ctlEn aonPage) = 1 → s.aon.only = false →
          (∀ q : Fin 4, t.get (AON_TARGET_N_at q) = t.awakeTarget t.held128 q) ∧
          (∀ sl : Fin 16, t.levelTarget sl = t.levelGoal t.held128 sl))) ∧
      ∀ b : Fin 128, ∃ t, exec (.islandTick ain p (some b)) s = .next t ∧ t.aon.badRules.contains b.val = true ∧ t.get ⟨0x40010, 4, 1⟩ = 1 ∧
        t.ruleHolds b = false ∧ t.outside = s.outside)) ∧
  (∀ (s : State) (q : Nat), q = (s.aon.starts.filter fun x => decide (s.now < x + 10000)).length →
    (s.aon.only = true ∨ min 4 (max 1 (s.get AON_CFG_WAKE_MAX)) ≤ q ∨ s.nextWake = none → exec .wakeBegin s = .next s) ∧
    (∀ n last, s.aon.only = false → q < min 4 (max 1 (s.get AON_CFG_WAKE_MAX)) → s.nextWake = some (n, last) →
      ∃ t, exec .wakeBegin s = .next t ∧ t.wksState n = 1 ∧ Tbl.get (fun _ => 0) t.wks.wakeAt n = s.now ∧
        t.aon.starts = (s.aon.starts.filter fun x => decide (s.now < x + 10000)) ++ [s.now] ∧ (∀ c ∈ t.aon.chosen, c.1 ≠ n) ∧
        t.get AON_CNT_WAKES = min (s.get AON_CNT_WAKES + 1) (2 ^ 16 - 1) ∧ (∀ m, m ≠ n → t.wksState m = s.wksState m) ∧ t.kept = s.kept ∧
        (last = true → s.budgetOk = true ∧ s.coolHolds = false)) ∧
    (∀ n l, s.aon.cstWake = n :: l → s.wakeable n = true → s.sliceFree n = true → s.nextWake = some (n, false)) ∧
    (∀ n last, s.nextWake = some (n, last) → s.wakeable n = true ∧ s.sliceFree n = true)) ∧
  (∀ (w : Fin 64) (s : State),
    (s.wksState w ≠ 1 ∨ s.now - Tbl.get (fun _ => 0) s.wks.wakeAt w.val < 20000 → exec (.wakeFail w) s = .next s) ∧
    (s.wksState w = 1 → 20000 ≤ s.now - Tbl.get (fun _ => 0) s.wks.wakeAt w.val → s.get CST_STAT_STATE = 0 →
      ∃ t, exec (.wakeFail w) s = .next t ∧ t.wksState w = 0 ∧ t.failed w = true ∧ t.get ⟨0x40014, 4, 1⟩ = 1 ∧ t.get ⟨0x40010, 3, 1⟩ = 1 ∧
        t.raises = s.raises ++ [⟨259, 0, 0, 0, 0, w.val, s.tb.sec % 2 ^ 32, s.tb.ns⟩] ∧ t.kept = s.kept)) ∧
  (∀ (sl : Fin 16) (s : State),
    (s.levelChange sl = none → exec (.levelChangeDone sl) s = .next s) ∧
    (∀ l due, s.levelChange sl = some (l, due) →
      (s.now < due → exec (.levelChangeDone sl) s = .next s) ∧
      (due ≤ s.now → l ≤ 5 → s.levelTarget sl = l → ∃ t, exec (.levelChangeDone sl) s = .next t ∧ t.level sl = l ∧ t.levelChange sl = none ∧
        t.aon.ltgt = s.aon.ltgt ∧ t.kept = s.kept))) ∧
  (∀ s : State,
    (s.now - s.aon.cperAt < 1000000 * max 1 (s.get AON_COOL_SP_CPER_MS) → exec .coolPeriod s = .next s) ∧
    (1000000 * max 1 (s.get AON_COOL_SP_CPER_MS) ≤ s.now - s.aon.cperAt →
      (s.get (ctlEn aonPage) = 0 ∨ s.get AON_CFG_COOL_EN = 0 → exec .coolPeriod s = .next { s with aon := { s.aon with cperAt := s.now } }) ∧
      (∀ e u : Int, s.get (ctlEn aonPage) = 1 → s.get AON_CFG_COOL_EN = 1 →
        e = (s.get (AON_CH_VAL_F (s.get AON_COOL_CTL_CH)) : Int) - s.get AON_COOL_SP_SP →
        u = ((s.get AON_COOL_CTL_KP : Int) * e) / 16 + s.aon.integ / 256 + ((s.get AON_FF_KFF * s.powerSum / 2 ^ 14 : Nat) : Int) +
          s.get AON_COOL_LIM_DBASE → -4096 ≤ u → u ≤ 4095 →
        ∃ t, exec .coolPeriod s = .next t ∧ t.aon.cperAt = s.now ∧
          t.get AON_COOL_STAT_D = min 1023 (max (max (s.get AON_COOL_LIM_DMIN) s.driveFloor) u.toNat) ∧
          (t.get AON_COOL_STAT_SAT = 1 ↔ 1023 < u) ∧
          t.aon.integ = (if (1023 < u ∧ 0 < e) ∨ (u < s.get AON_COOL_LIM_DMIN ∧ e < 0) then s.aon.integ else s.aon.integ + s.get AON_COOL_CTL_KI * e) ∧
          (∀ b, b ≠ AON_COOL_STAT → t.rd b = s.rd b) ∧ t.kept = s.kept))) ∧
  (∀ (k : Fin 4) (n rpm : Nat) (s : State), rpm = n * 240 / (s.get (AON_TACH_CFG_PPR_at k) + 1) →
    ∃ t, exec (.tachGate k n) s = .next t ∧ Tbl.get (fun _ => 0) t.aon.tach k.val = min 65535 rpm ∧ t.kept = s.kept ∧
      (s.get AON_TACH_CFG_TMIN = 0 ∨ s.get AON_TACH_CFG_TMIN * 16 ≤ rpm ∨ s.duty k < 512 →
        Tbl.get (fun _ => 0) t.aon.slow k.val = 0 ∧ t.regs = s.regs ∧ t.raises = s.raises) ∧
      (s.get AON_TACH_CFG_TMIN ≠ 0 → rpm < s.get AON_TACH_CFG_TMIN * 16 → 512 ≤ s.duty k → Tbl.get (fun _ => 0) s.aon.slow k.val = 3 →
        t.get ⟨0x40010, 1, 1⟩ = 1 ∧ t.get ⟨0x40014, 3, 1⟩ = 1 ∧
          t.raises = s.raises ++ [⟨257, 0, 0, 0, 0, k.val, s.tb.sec % 2 ^ 32, s.tb.ns⟩])) ∧
  (∀ (k : Fin 26) (v : BitVec 16) (thr : Nat) (c : Nat × Nat) (s : State),
    thr = (if k.val < 20 then s.get AON_TSAFE_DIE else s.get AON_TSAFE_HBM) → c = (if k.val < 20 then (2, k.val) else (3, k.val - 20)) →
    (thr ≤ v.toNat → 1 ≤ Tbl.get (fun _ => 0) s.aon.high k.val → c ∉ s.aon.conds →
      ∃ t, exec (.dieSensorReading k v) s = .next t ∧ t.temp k = v.toNat ∧ c ∈ t.aon.conds ∧ t.safe = true ∧ t.get FLT_PIN_ERRN = 1 ∧
        t.get ⟨0x40014, 0, 1⟩ = 1 ∧ t.get ⟨0x40010, 0, 1⟩ = 1 ∧ t.outside = s.outside) ∧
    (v.toNat < thr → 1 ≤ Tbl.get (fun _ => 0) s.aon.low k.val → ∃ t, exec (.dieSensorReading k v) s = .next t ∧ t.temp k = v.toNat ∧
      c ∉ t.aon.conds ∧ (∀ d, d ≠ c → (d ∈ t.aon.conds ↔ d ∈ s.aon.conds)) ∧ t.safe = s.safe ∧ t.regs = s.regs ∧ t.kept = s.kept) ∧
    ((thr ≤ v.toNat ∧ Tbl.get (fun _ => 0) s.aon.high k.val = 0) ∨ (v.toNat < thr ∧ Tbl.get (fun _ => 0) s.aon.low k.val = 0) →
      ∃ t, exec (.dieSensorReading k v) s = .next t ∧ t.temp k = v.toNat ∧ t.aon.conds = s.aon.conds ∧ t.safe = s.safe ∧ t.regs = s.regs ∧
        t.kept = s.kept) ∧
    (s.now - Tbl.get (fun _ => 0) s.aon.tempAt k.val < 1000000 → exec (.sensorTimeout k) s = .next s) ∧
    (1000000 ≤ s.now - Tbl.get (fun _ => 0) s.aon.tempAt k.val →
      ∃ t, exec (.sensorTimeout k) s = .next t ∧ t.get ⟨0x40010, 2, 1⟩ = 1 ∧ t.aon = s.aon ∧ t.kept = s.kept)) ∧
  (∀ (i : Fin 5) (s : State), s.reaches i AON_CMD = true →
    (∀ sl : Fin 16, s.get (PRT_SLICE_MODE_MODE sl) ≠ 0 → ∃ t, exec (.islandOnly i) s = .next t ∧ t.get AON_STAT_CMD_ERR = 1 ∧
      (∀ b, b ≠ AON_STAT → t.rd b = s.rd b) ∧ t = { s with regs := t.regs }) ∧
    ((∀ sl : Fin 16, s.get (PRT_SLICE_MODE_MODE sl) = 0) → ∃ t, exec (.islandOnly i) s = .next t ∧ t.aon.only = true ∧
      t.get AON_STAT_CMD_ERR = 0 ∧ (∀ n : Fin 64, s.wksState n = 1 ∨ s.wksState n = 2 → t.wksState n = 3) ∧
      (s.get HIF_LINK_STAT_SPEED ≠ 0 → t.get HIF_LINK_STAT_LPM = 3) ∧ t.outside = s.outside) ∧
    (∃ t, exec (.wakeCtrl i) s = .next t ∧ t.get AON_STAT_CMD_ERR = 0 ∧ (s.get SEC_STAT_ISLAND_OK = 1 → t.aon.fast = true) ∧
      (s.get SEC_STAT_ISLAND_OK = 0 → t.aon = s.aon) ∧ (∀ b, b ≠ AON_STAT → t.rd b = s.rd b) ∧ t.kept = s.kept)) ∧
  (∀ s : State,
    (s.aon.only = false → exec .islandRestart s = .next s) ∧
    (s.aon.only = true → ∃ t, exec .islandRestart s = .next t ∧ t.aon.only = false ∧ (s.get SEC_STAT_ISLAND_OK = 1 → t.aon.fast = true) ∧
      (s.get HIF_LINK_STAT_SPEED ≠ 0 → t.get HIF_LINK_STAT_LPM = 0) ∧ (∀ n : Fin 64, t.wksState n = s.wksState n) ∧ t.outside = s.outside) ∧
    ((s.candidate 256).isSome = true ∨ s.get FLT_NMT_PEND = 1 ∨ (∃ r : Fin 128, bit (s.rd (AON_RULE_HELD (r / 32))).toNat (r % 32) = true ∧
        s.cfg (AON_RULE2_ACT r) = 7) → exec .islandControllerHalt s = .next s) ∧
    (s.candidate 256 = none → s.get FLT_NMT_PEND = 0 → (∀ r : Fin 128, bit (s.rd (AON_RULE_HELD (r / 32))).toNat (r % 32) = true →
        s.cfg (AON_RULE2_ACT r) ≠ 7) → exec .islandControllerHalt s = .next { s with aon := { s.aon with fast := false } }))

/-! ### 21: boot, identity and signed images -/

/-- SEC_LOAD, ATTEST, SVN_ADVANCE, REVOKE, RECOVER, CONTAINER_CHECK, FUSE_COMMAND_DONE, ATTEST_REPORT_SIGNED and BOOT_ROM (R472, R473, R475, R476, R477, R478,
R479, R480, R482, R483, R511, R512): a command is taken up, refused with BUSY or refused with CMD_ERR by STATE; no image that fails its check starts, and
a failed check is counted, recorded and raised; fuses advance to their argument; the report is signed; the boot ends READY or FAILED. That a LEN of 0 ends
the command at once with FETCH_ERR is the model's choice (log 60). -/
def Obligations.OnlyCheckedImagesRun : Prop :=
  (∀ (i : Fin 5) (s : State), s.reaches i SEC_CMD = true →
    ∀ p ∈ [(Instr.secLoad i, 1), (Instr.attest i, 2), (Instr.svnAdvance i, 3), (Instr.revoke i, 4), (Instr.recover i, 5)],
      (s.get SEC_STAT_BUSY = 1 → ∃ t, exec p.1 s = .next t ∧ t.get SEC_RESULT_RESULT = 6 ∧ t.get SEC_RESULT_CMD_ERR = 1 ∧
        (∀ b, b ≠ SEC_RESULT → t.rd b = s.rd b) ∧ t = { s with regs := t.regs }) ∧
      (s.get SEC_STAT_BUSY = 0 → s.get (ctlEn secPage) = 0 ∨ s.get SEC_STAT_STATE ≠ (if p.2 = 5 then 3 else 2) →
        ∃ t, exec p.1 s = .next t ∧ t.get SEC_RESULT_CMD_ERR = 1 ∧ t.get SEC_RESULT_RESULT = s.get SEC_RESULT_RESULT ∧
          (∀ b, b ≠ SEC_RESULT → t.rd b = s.rd b) ∧ t = { s with regs := t.regs }) ∧
      (s.get SEC_STAT_BUSY = 0 → s.get (ctlEn secPage) = 1 → s.get SEC_STAT_STATE = (if p.2 = 5 then 3 else 2) →
        (p.2 = 1 ∨ p.2 = 5 → s.get SEC_SRC_LEN_LEN ≠ 0 → ∃ t, exec p.1 s = .next t ∧ t.get SEC_STAT_BUSY = 1 ∧ t.get SEC_RESULT_CMD_ERR = 0 ∧
          t.get SEC_RESULT_RESULT = s.get SEC_RESULT_RESULT ∧ t.sec.cmd = p.2 ∧ t.sec.len = s.get SEC_SRC_LEN_LEN ∧ t.kept = s.kept) ∧
        (p.2 = 1 ∨ p.2 = 5 → s.get SEC_SRC_LEN_LEN = 0 → ∃ t, exec p.1 s = .next t ∧ t.get SEC_STAT_BUSY = 0 ∧ t.get SEC_RESULT_RESULT = 8 ∧
          t.get ⟨0x20014, 2, 1⟩ = 1 ∧ t.kept = s.kept) ∧
        (p.2 = 2 → ∃ t, exec p.1 s = .next t ∧ t.get SEC_STAT_BUSY = 1 ∧ t.get SEC_RESULT_CMD_ERR = 0 ∧ t.sec.cmd = 2 ∧
          t.sec.report = s.reportBytes ∧ t.kept = s.kept) ∧
        (∀ v, p.2 = 3 → v = s.get SEC_SVN_ARG_ARG →
          (v ≤ s.svn ∨ 64 < v ∨ (s.sec.boot.map SecImg.svn).getD 0 < v → ∃ t, exec p.1 s = .next t ∧ t.get SEC_RESULT_RESULT = 5 ∧
            t.get SEC_STAT_BUSY = 0 ∧ t.get SEC_RESULT_CMD_ERR = 0 ∧ t.get ⟨0x20014, 2, 1⟩ = 1 ∧ t.kept = s.kept) ∧
          (s.svn < v → v ≤ 64 → v ≤ (s.sec.boot.map SecImg.svn).getD 0 → ∃ t, exec p.1 s = .next t ∧ t.get SEC_STAT_BUSY = 1 ∧
            t.get SEC_RESULT_CMD_ERR = 0 ∧ t.sec.cmd = 3 ∧ t.sec.arg = v ∧ t.kept = s.kept)) ∧
        (∀ v, p.2 = 4 → v = s.get SEC_SVN_ARG_ARG % 4 →
          (s.sec.boot.map SecImg.slot = some v ∨ (∀ j, j < 4 → j = v ∨ bit s.revokedSlots j = true) → ∃ t, exec p.1 s = .next t ∧
            t.get SEC_RESULT_RESULT = 5 ∧ t.get SEC_STAT_BUSY = 0 ∧ t.get SEC_RESULT_CMD_ERR = 0 ∧ t.get ⟨0x20014, 2, 1⟩ = 1 ∧ t.kept = s.kept) ∧
          (s.sec.boot.map SecImg.slot ≠ some v → (∃ j, j < 4 ∧ j ≠ v ∧ bit s.revokedSlots j = false) → ∃ t, exec p.1 s = .next t ∧
            t.get SEC_STAT_BUSY = 1 ∧ t.get SEC_RESULT_CMD_ERR = 0 ∧ t.sec.cmd = 4 ∧ t.sec.arg = v ∧ t.kept = s.kept)))) ∧
  (∀ s : State,
    (s.sec.cmd ≠ 3 → s.sec.cmd ≠ 4 → exec .fuseCommandDone s = .next s) ∧
    (s.sec.cmd = 3 → s.sec.arg ≤ 64 → s.fuseSvn < s.sec.arg → ∃ t, exec .fuseCommandDone s = .next t ∧ t.fuseSvn = s.sec.arg ∧
      t.fuseRevoked = s.fuseRevoked ∧ t.get SEC_RESULT_RESULT = 1 ∧ t.get SEC_STAT_BUSY = 0 ∧ t.get ⟨0x20014, 2, 1⟩ = 1 ∧ t.sec.cmd = 0 ∧
      t.hbm = s.hbm) ∧
    (s.sec.cmd = 4 → ∃ t, exec .fuseCommandDone s = .next t ∧ t.fuseRevoked = s.fuseRevoked ||| 2 ^ s.sec.arg ∧ t.fuseSvn = s.fuseSvn ∧
      t.get SEC_RESULT_RESULT = 1 ∧ t.get SEC_STAT_BUSY = 0 ∧ t.get ⟨0x20014, 2, 1⟩ = 1 ∧ t.sec.cmd = 0 ∧ t.hbm = s.hbm)) ∧
  (∀ (c : Fetched) (s : State), (s.sec.cmd ≠ 1 ∨ s.sec.graphPend.isSome = true) → s.sec.cmd ≠ 5 → exec (.containerCheck c) s = .next s) ∧
  (∀ (l b : List Byte) (k cause : Nat) (s : State), b = bytesAt l 0 s.sec.len →
    (s.sec.cmd = 1 ∧ s.sec.graphPend = none ∧ k = (if contKind b = 2 then 2 else 4)) ∨ (s.sec.cmd = 5 ∧ k = 1) → cause = s.verify k b →
    (cause ≠ 0 → ∃ t, exec (.containerCheck (.bytes l)) s = .next t ∧ t.get SEC_RESULT_RESULT = 2 ∧ t.get SEC_STAT_BUSY = 0 ∧
      t.get SEC_CNT_CHECKS = min (s.get SEC_CNT_CHECKS + 1) (2 ^ 16 - 1) ∧ t.get SEC_CNT_FAILS = min (s.get SEC_CNT_FAILS + 1) (2 ^ 16 - 1) ∧
      t.get SEC_FAIL_CAUSE = cause ∧ t.get SEC_FAIL_KIND = contKind b % 8 ∧ t.get ⟨0x20014, 1, 1⟩ = 1 ∧ t.get ⟨0x20014, 2, 1⟩ = 1 ∧
      t.get ⟨0x20010, 0, 1⟩ = 1 ∧ t.get SEC_STAT_ISLAND_OK = s.get SEC_STAT_ISLAND_OK ∧ t.get SEC_STAT_STATE = s.get SEC_STAT_STATE ∧
      t.sec = { s.sec with cmd := 0 } ∧ t.ldg = s.ldg ∧ t.kept = s.kept) ∧
    (cause = 0 → k = 2 → ∃ t, exec (.containerCheck (.bytes l)) s = .next t ∧ t.get SEC_RESULT_RESULT = 1 ∧ t.get SEC_STAT_BUSY = 0 ∧
      t.get SEC_STAT_ISLAND_OK = 1 ∧ t.aon.fast = true ∧ t.sec = { s.sec with
        cmd := 0
        island := some (imageOf b) } ∧ t.get SEC_CNT_CHECKS = min (s.get SEC_CNT_CHECKS + 1) (2 ^ 16 - 1) ∧
      t.get SEC_CNT_FAILS = s.get SEC_CNT_FAILS ∧ t.kept = s.kept) ∧
    (cause = 0 → k = 4 → graphItems (b.drop 256) = none → ∃ t, exec (.containerCheck (.bytes l)) s = .next t ∧ t.get SEC_RESULT_RESULT = 3 ∧
      t.get SEC_STAT_BUSY = 0 ∧ t.sec = { s.sec with cmd := 0 } ∧ t.ldg = s.ldg ∧ t.gmem = s.gmem ∧ t.kept = s.kept) ∧
    (cause = 0 → k = 4 → (graphItems (b.drop 256)).isSome = true → s.txnState 4 ≠ .idle → ∃ t, exec (.containerCheck (.bytes l)) s = .next t ∧
      t.get SEC_RESULT_RESULT = 4 ∧ t.get SEC_STAT_BUSY = 0 ∧ t.sec = { s.sec with cmd := 0 } ∧ t.ldg = s.ldg ∧ t.gmem = s.gmem ∧ t.kept = s.kept) ∧
    (cause = 0 → k = 4 → (graphItems (b.drop 256)).isSome = true → s.txnState 4 = .idle → ∃ t, exec (.containerCheck (.bytes l)) s = .next t ∧
      t.sec.graph = s.sec.graph ∧ t.get SEC_CNT_CHECKS = min (s.get SEC_CNT_CHECKS + 1) (2 ^ 16 - 1) ∧ t.get SEC_CNT_FAILS = s.get SEC_CNT_FAILS ∧
      t.outside = s.outside) ∧
    (cause = 0 → k = 1 → ∃ t, exec (.containerCheck (.bytes l)) s = .next t ∧ t.get SEC_RESULT_RESULT = 1 ∧ t.get SEC_STAT_BUSY = 0 ∧
      t.get SEC_STAT_STATE = 1 ∧ t.get SEC_STAT_BOOT_SRC = 3 ∧ t.sec = { s.sec with
        cmd := 0
        boot := some (imageOf b) } ∧ t.kept = s.kept)) ∧
  (∀ s : State, (s.sec.cmd = 1 ∧ s.sec.graphPend = none) ∨ s.sec.cmd = 5 →
    ∃ t, exec (.containerCheck .failed) s = .next t ∧ t.get SEC_RESULT_RESULT = 8 ∧ t.get SEC_STAT_BUSY = 0 ∧ t.get SEC_FAIL_CAUSE = 6 ∧
      t.get ⟨0x20014, 2, 1⟩ = 1 ∧ t.sec = { s.sec with cmd := 0 } ∧ t.ldg = s.ldg ∧
      (s.sec.cmd = 5 ∨ s.get SEC_SRC_LEN_FLASH = 0 → t.get HIF_DMA_ERR_DMA_ERR = min (s.get HIF_DMA_ERR_DMA_ERR + 1) (2 ^ 32 - 1)) ∧ t.kept = s.kept) ∧
  (∀ (bad : Bool) (s : State),
    (s.sec.cmd ≠ 2 → exec (.attestReportSigned bad) s = .next s) ∧
    (s.sec.cmd = 2 → ∃ t, exec (.attestReportSigned bad) s = .next t ∧ t.get SEC_STAT_BUSY = 0 ∧ t.sec.cmd = 0 ∧ t.get ⟨0x20014, 2, 1⟩ = 1 ∧
      (bad = true → t.get SEC_RESULT_RESULT = 7 ∧ ∀ k : Fin 64, t.rd (SEC_REPORT k) = 0) ∧
      (bad = false → t.get SEC_RESULT_RESULT = 1 ∧ ∀ k : Fin 64, t.rd (SEC_REPORT k) =
        BitVec.ofNat 32 (leNat (bytesAt (s.sec.report ++ bytesAt (Config.sm2Sign s.sec.report) 0 64) (4 * k.val) 4))) ∧ t.kept = s.kept)) ∧
  (∀ (fe ke : Bool) (d0 d1 b0 b1 i0 i1 : Fetched) (s : State),
    (s.held = true ∨ 2 ≤ s.get SEC_STAT_STATE → exec (.bootRom fe ke d0 d1 b0 b1 i0 i1) s = .next s) ∧
    (s.held = false → s.get SEC_STAT_STATE = 0 →
      (ke = true → ∃ t, exec (.bootRom fe ke d0 d1 b0 b1 i0 i1) s = .next t ∧ t.get SEC_STAT_STATE = 3 ∧ t.get ⟨0x20010, 2, 1⟩ = 1 ∧
        t.get ⟨0x20014, 0, 1⟩ = 1 ∧ t.sec.katFail = true ∧ t.sec.boot = s.sec.boot ∧ (fe = true → t.svn = 64 ∧ t.revokedSlots = 15 ∧
          t.get ⟨0x20010, 1, 1⟩ = 1) ∧ t.kept = s.kept) ∧
      (ke = false → dirOk d0 = false → dirOk d1 = false → ∃ t, exec (.bootRom fe ke d0 d1 b0 b1 i0 i1) s = .next t ∧
        t.get SEC_STAT_STATE = 3 ∧ t.get ⟨0x20010, 3, 1⟩ = 1 ∧ t.get ⟨0x20014, 0, 1⟩ = 1 ∧ t.sec.boot = s.sec.boot ∧ t.kept = s.kept) ∧
      (∀ (n : Nat) (l : List Byte) (s' : State), ke = false → fe = false → dirOk d0 = true → n = dirLen d0 1 → n ≠ 0 → b0 = .bytes l →
        s' = { s with sec := { s.sec with
          badFuses := false
          katFail := false } } → s'.verify 1 (bytesAt l 0 n) = 0 →
        ∃ t, exec (.bootRom fe ke d0 d1 b0 b1 i0 i1) s = .next t ∧ t.get SEC_STAT_STATE = 2 ∧ t.get SEC_STAT_BOOT_SRC = 1 ∧
          t.get ⟨0x20014, 0, 1⟩ = 1 ∧ t.sec.boot = some (imageOf (bytesAt l 0 n)) ∧ t.kept = s.kept ∧
          (∀ m il, m = dirLen d0 2 → m ≠ 0 → i0 = .bytes il → s'.verify 2 (bytesAt il 0 m) = 0 → t.get SEC_STAT_ISLAND_OK = 1 ∧
            t.sec.island = some (imageOf (bytesAt il 0 m)) ∧ t.aon.fast = true) ∧
          (dirLen d0 2 = 0 → dirLen d1 2 = 0 → t.get SEC_STAT_ISLAND_OK = s.get SEC_STAT_ISLAND_OK ∧ t.sec.island = s.sec.island))) ∧
    (s.held = false → s.get SEC_STAT_STATE = 1 → ∃ t, exec (.bootRom fe ke d0 d1 b0 b1 i0 i1) s = .next t ∧ t.get SEC_STAT_STATE = 2 ∧
      t.get ⟨0x20014, 0, 1⟩ = 1 ∧ t.sec.boot = s.sec.boot ∧ t.kept = s.kept))

end
end

