-- ==== Sys2Proof/Laws/Tables.lean ====
section
/-! SUPPORT. The laws of sparse tables: read after write, and that every change keeps the canonical form. -/

namespace Sys2Proof.Machine

variable {α : Type}

theorem Tbl.get_of_not_mem (d : Nat → α) (t : Tbl α) (k : Nat) (h : ∀ p ∈ t, p.1 ≠ k) : t.get d k = d k := by
  induction t with
  | nil => rfl
  | cons p r ih => simp_all [Tbl.get]

@[simp] theorem Tbl.get_erase_self (d : Nat → α) (t : Tbl α) (k : Nat) : (t.erase k).get d k = d k :=
  Tbl.get_of_not_mem d _ k (by simp [Tbl.erase])

@[simp] theorem Tbl.get_erase_ne (d : Nat → α) (t : Tbl α) (k j : Nat) (h : j ≠ k) : (t.erase k).get d j = t.get d j := by
  induction t with
  | nil => rfl
  | cons p r ih =>
    obtain ⟨a, v⟩ := p
    by_cases ha : a = k
    · subst ha; simpa [Tbl.erase, Tbl.get, Ne.symm h] using ih
    · simp only [Tbl.erase] at ih ⊢
      simp [ha, Tbl.get, ih]

theorem Tbl.get_insert_self (d : Nat → α) (t : Tbl α) (k : Nat) (v : α) (h : ∀ p ∈ t, p.1 ≠ k) :
    (t.insert k v).get d k = v := by
  induction t with
  | nil => simp [Tbl.insert, Tbl.get]
  | cons p r ih =>
    obtain ⟨a, w⟩ := p
    simp only [Tbl.insert]
    split
    · simp [Tbl.get]
    · simp_all [Tbl.get]

theorem Tbl.get_insert_ne (d : Nat → α) (t : Tbl α) (k j : Nat) (v : α) (h : j ≠ k) :
    (t.insert k v).get d j = t.get d j := by
  induction t with
  | nil => simp [Tbl.insert, Tbl.get, Ne.symm h]
  | cons p r ih =>
    obtain ⟨a, w⟩ := p
    simp only [Tbl.insert]
    split
    · simp [Tbl.get, Ne.symm h]
    · simp [Tbl.get, ih]

/-- A key reads what was last written to it. -/
@[simp] theorem Tbl.get_set_self [DecidableEq α] (d : Nat → α) (t : Tbl α) (k : Nat) (v : α) : (t.set d k v).get d k = v := by
  unfold Tbl.set
  split
  · simp_all
  · exact Tbl.get_insert_self d _ k v (by simp [Tbl.erase])

/-- A write leaves every other key alone. -/
theorem Tbl.get_set_ne [DecidableEq α] (d : Nat → α) (t : Tbl α) (k j : Nat) (v : α) (h : j ≠ k) :
    (t.set d k v).get d j = t.get d j := by
  unfold Tbl.set
  split
  · simp [h]
  · rw [Tbl.get_insert_ne d _ k j v h, Tbl.get_erase_ne d t k j h]

/-- What a key reads after a write. -/
theorem Tbl.get_set [DecidableEq α] (d : Nat → α) (t : Tbl α) (k j : Nat) (v : α) :
    (t.set d k v).get d j = if j = k then v else t.get d j := by
  split
  · simp_all
  · exact Tbl.get_set_ne d t k j v (by assumption)

/-- Consecutive stores leave every key outside them alone. -/
theorem Tbl.get_setMany_ne [DecidableEq α] (d : Nat → α) (l : List α) (t : Tbl α) (k j : Nat)
    (h : j < k ∨ k + l.length ≤ j) : (t.setMany d k l).get d j = t.get d j := by
  induction l generalizing t k with
  | nil => rfl
  | cons v r ih =>
    simp only [List.length_cons] at h
    rw [Tbl.setMany, ih _ _ (by omega), Tbl.get_set_ne d t k j v (by omega)]

/-- Consecutive stores are read back. -/
theorem Tbl.get_setMany [DecidableEq α] (d : Nat → α) (l : List α) (t : Tbl α) (k i : Nat) (h : i < l.length) :
    (t.setMany d k l).get d (k + i) = l[i] := by
  induction l generalizing t k i with
  | nil => simp at h
  | cons v r ih =>
    rw [Tbl.setMany]
    cases i with
    | zero => rw [Nat.add_zero, Tbl.get_setMany_ne d r _ _ _ (by omega)]; simp
    | succ i =>
      have := ih (t.set d k v) (k + 1) i (by simpa using h)
      rw [show k + (i + 1) = k + 1 + i by omega, this]; simp

/-! ### The canonical form -/

theorem Tbl.wf_filter [DecidableEq α] (d : Nat → α) (t : Tbl α) (p : Nat × α → Bool) (h : t.wf d = true) :
    Tbl.wf d (t.filter p) = true := by
  induction t with
  | nil => rfl
  | cons q r ih =>
    simp only [Tbl.wf, Bool.and_eq_true, List.all_eq_true] at h
    simp only [List.filter_cons]
    split
    · simp only [Tbl.wf, Bool.and_eq_true, List.all_eq_true, List.mem_filter]
      exact ⟨⟨h.1.1, fun x hx => h.1.2 x hx.1⟩, ih h.2⟩
    · exact ih h.2

theorem Tbl.wf_insert [DecidableEq α] (d : Nat → α) (t : Tbl α) (k : Nat) (v : α) (h : t.wf d = true)
    (hk : ∀ p ∈ t, p.1 ≠ k) (hv : v ≠ d k) : Tbl.wf d (t.insert k v) = true := by
  induction t with
  | nil => simp [Tbl.insert, Tbl.wf, hv]
  | cons p r ih =>
    obtain ⟨a, w⟩ := p
    have hc := h
    simp only [Tbl.wf, Bool.and_eq_true, List.all_eq_true, decide_eq_true_eq] at h
    simp only [Tbl.insert]
    split
    · rename_i hlt
      rw [Tbl.wf]
      simp only [Bool.and_eq_true, List.all_eq_true, decide_eq_true_eq, List.mem_cons, forall_eq_or_imp]
      exact ⟨⟨by simpa using hv, hlt, fun x hx => Nat.lt_trans hlt (h.1.2 x hx)⟩, hc⟩
    · rename_i hlt
      have hak : a < k := by have := hk (a, w) (by simp); simp at this; omega
      simp only [Tbl.wf, Bool.and_eq_true, List.all_eq_true, decide_eq_true_eq]
      refine ⟨⟨h.1.1, ?_⟩, ih h.2 (fun p hp => hk p (by simp [hp]))⟩
      intro x hx
      have : x ∈ (k, v) :: r := by
        clear ih h hk hc
        induction r with
        | nil => simpa [Tbl.insert] using hx
        | cons q r ihr =>
          simp only [Tbl.insert] at hx
          split at hx
          · exact hx
          · rcases List.mem_cons.1 hx with rfl | hx
            · simp
            · rcases List.mem_cons.1 (ihr hx) with rfl | h <;> simp [*]
      rcases List.mem_cons.1 this with rfl | hx
      · exact hak
      · exact h.1.2 x hx

/-- Storing keeps the canonical form. -/
theorem Tbl.wf_set [DecidableEq α] (d : Nat → α) (t : Tbl α) (k : Nat) (v : α) (h : t.wf d = true) : (t.set d k v).wf d = true := by
  have he : Tbl.wf d (t.erase k) = true := Tbl.wf_filter d t _ h
  unfold Tbl.set
  split
  · exact he
  · exact Tbl.wf_insert d _ k v he (by simp [Tbl.erase]) (by assumption)

/-- Consecutive stores keep the canonical form. -/
theorem Tbl.wf_setMany [DecidableEq α] (d : Nat → α) (l : List α) (t : Tbl α) (k : Nat) (h : t.wf d = true) :
    (t.setMany d k l).wf d = true := by
  induction l generalizing t k with
  | nil => exact h
  | cons v r ih => exact ih _ _ (Tbl.wf_set d t k v h)

end Sys2Proof.Machine
end

