-- ==== Sys2Proof/Laws/State.lean ====
section
/-! SUPPORT. One lemma per field per update of a register, and the frame `State.kept` of a state written out. -/

namespace Sys2Proof.Machine

@[simp] theorem State.wr_now (s : State) (a : Nat) (v : Word) : (s.wr a v).now = s.now := rfl
@[simp] theorem State.wr_free (s : State) (a : Nat) (v : Word) : (s.wr a v).free = s.free := rfl
@[simp] theorem State.wr_pending (s : State) (a : Nat) (v : Word) : (s.wr a v).pending = s.pending := rfl
@[simp] theorem State.wr_tb (s : State) (a : Nat) (v : Word) : (s.wr a v).tb = s.tb := rfl
@[simp] theorem State.wr_unsw (s : State) (a : Nat) (v : Word) : (s.wr a v).unsw = s.unsw := rfl
@[simp] theorem State.wr_slotVals (s : State) (a : Nat) (v : Word) : (s.wr a v).slotVals = s.slotVals := rfl
@[simp] theorem State.wr_hiCap (s : State) (a : Nat) (v : Word) : (s.wr a v).hiCap = s.hiCap := rfl
@[simp] theorem State.wr_loHold (s : State) (a : Nat) (v : Word) : (s.wr a v).loHold = s.loHold := rfl
@[simp] theorem State.wr_rdata (s : State) (a : Nat) (v : Word) : (s.wr a v).rdata = s.rdata := rfl
@[simp] theorem State.wr_rbytes (s : State) (a : Nat) (v : Word) : (s.wr a v).rbytes = s.rbytes := rfl
@[simp] theorem State.wr_hbm (s : State) (a : Nat) (v : Word) : (s.wr a v).hbm = s.hbm := rfl
@[simp] theorem State.wr_raises (s : State) (a : Nat) (v : Word) : (s.wr a v).raises = s.raises := rfl
@[simp] theorem State.wr_reports (s : State) (a : Nat) (v : Word) : (s.wr a v).reports = s.reports := rfl
@[simp] theorem State.wr_capEv (s : State) (a : Nat) (v : Word) : (s.wr a v).capEv = s.capEv := rfl
@[simp] theorem State.wr_safe (s : State) (a : Nat) (v : Word) : (s.wr a v).safe = s.safe := rfl
@[simp] theorem State.wr_held (s : State) (a : Nat) (v : Word) : (s.wr a v).held = s.held := rfl
@[simp] theorem State.wr_refLost (s : State) (a : Nat) (v : Word) : (s.wr a v).refLost = s.refLost := rfl
@[simp] theorem State.wr_straps (s : State) (a : Nat) (v : Word) : (s.wr a v).straps = s.straps := rfl
@[simp] theorem State.wr_icuMsgs (s : State) (a : Nat) (v : Word) : (s.wr a v).icuMsgs = s.icuMsgs := rfl
@[simp] theorem State.wr_hostWrites (s : State) (a : Nat) (v : Word) : (s.wr a v).hostWrites = s.hostWrites := rfl
@[simp] theorem State.wr_frames (s : State) (a : Nat) (v : Word) : (s.wr a v).frames = s.frames := rfl
@[simp] theorem State.wr_nextFrame (s : State) (a : Nat) (v : Word) : (s.wr a v).nextFrame = s.nextFrame := rfl
@[simp] theorem State.wr_lkp (s : State) (a : Nat) (v : Word) : (s.wr a v).lkp = s.lkp := rfl
@[simp] theorem State.wr_ldg (s : State) (a : Nat) (v : Word) : (s.wr a v).ldg = s.ldg := rfl
@[simp] theorem State.wr_gmem (s : State) (a : Nat) (v : Word) : (s.wr a v).gmem = s.gmem := rfl
@[simp] theorem State.wr_gmemSlot (s : State) (a : Nat) (v : Word) : (s.wr a v).gmemSlot = s.gmemSlot := rfl
@[simp] theorem State.wr_xmt (s : State) (a : Nat) (v : Word) : (s.wr a v).xmt = s.xmt := rfl
@[simp] theorem State.wr_lpm (s : State) (a : Nat) (v : Word) : (s.wr a v).lpm = s.lpm := rfl
@[simp] theorem State.wr_obj (s : State) (a : Nat) (v : Word) : (s.wr a v).obj = s.obj := rfl
@[simp] theorem State.wr_acs (s : State) (a : Nat) (v : Word) : (s.wr a v).acs = s.acs := rfl
@[simp] theorem State.wr_hif (s : State) (a : Nat) (v : Word) : (s.wr a v).hif = s.hif := rfl
@[simp] theorem State.wr_icu (s : State) (a : Nat) (v : Word) : (s.wr a v).icu = s.icu := rfl
@[simp] theorem State.wr_buf (s : State) (a : Nat) (v : Word) : (s.wr a v).buf = s.buf := rfl
@[simp] theorem State.wr_voq (s : State) (a : Nat) (v : Word) : (s.wr a v).voq = s.voq := rfl
@[simp] theorem State.wr_prt (s : State) (a : Nat) (v : Word) : (s.wr a v).prt = s.prt := rfl
@[simp] theorem State.wr_loom (s : State) (a : Nat) (v : Word) : (s.wr a v).loom = s.loom := rfl
@[simp] theorem State.wr_cnt (s : State) (a : Nat) (v : Word) : (s.wr a v).cnt = s.cnt := rfl
@[simp] theorem State.wr_cap (s : State) (a : Nat) (v : Word) : (s.wr a v).cap = s.cap := rfl
@[simp] theorem State.wr_tim (s : State) (a : Nat) (v : Word) : (s.wr a v).tim = s.tim := rfl
@[simp] theorem State.wr_ovl (s : State) (a : Nat) (v : Word) : (s.wr a v).ovl = s.ovl := rfl
@[simp] theorem State.wr_prs (s : State) (a : Nat) (v : Word) : (s.wr a v).prs = s.prs := rfl
@[simp] theorem State.wr_ord (s : State) (a : Nat) (v : Word) : (s.wr a v).ord = s.ord := rfl
@[simp] theorem State.wr_wks (s : State) (a : Nat) (v : Word) : (s.wr a v).wks = s.wks := rfl
@[simp] theorem State.wr_cst (s : State) (a : Nat) (v : Word) : (s.wr a v).cst = s.cst := rfl
@[simp] theorem State.wr_sch (s : State) (a : Nat) (v : Word) : (s.wr a v).sch = s.sch := rfl
@[simp] theorem State.wr_cly (s : State) (a : Nat) (v : Word) : (s.wr a v).cly = s.cly := rfl
@[simp] theorem State.wr_hbc (s : State) (a : Nat) (v : Word) : (s.wr a v).hbc = s.hbc := rfl
@[simp] theorem State.wr_aon (s : State) (a : Nat) (v : Word) : (s.wr a v).aon = s.aon := rfl
@[simp] theorem State.wr_flt (s : State) (a : Nat) (v : Word) : (s.wr a v).flt = s.flt := rfl
@[simp] theorem State.wr_sec (s : State) (a : Nat) (v : Word) : (s.wr a v).sec = s.sec := rfl

@[simp] theorem State.set_now (s : State) (f : Reg.Fld) (v : Nat) : (s.set f v).now = s.now := rfl
@[simp] theorem State.set_free (s : State) (f : Reg.Fld) (v : Nat) : (s.set f v).free = s.free := rfl
@[simp] theorem State.set_pending (s : State) (f : Reg.Fld) (v : Nat) : (s.set f v).pending = s.pending := rfl
@[simp] theorem State.set_tb (s : State) (f : Reg.Fld) (v : Nat) : (s.set f v).tb = s.tb := rfl
@[simp] theorem State.set_unsw (s : State) (f : Reg.Fld) (v : Nat) : (s.set f v).unsw = s.unsw := rfl
@[simp] theorem State.set_slotVals (s : State) (f : Reg.Fld) (v : Nat) : (s.set f v).slotVals = s.slotVals := rfl
@[simp] theorem State.set_hiCap (s : State) (f : Reg.Fld) (v : Nat) : (s.set f v).hiCap = s.hiCap := rfl
@[simp] theorem State.set_loHold (s : State) (f : Reg.Fld) (v : Nat) : (s.set f v).loHold = s.loHold := rfl
@[simp] theorem State.set_rdata (s : State) (f : Reg.Fld) (v : Nat) : (s.set f v).rdata = s.rdata := rfl
@[simp] theorem State.set_rbytes (s : State) (f : Reg.Fld) (v : Nat) : (s.set f v).rbytes = s.rbytes := rfl
@[simp] theorem State.set_hbm (s : State) (f : Reg.Fld) (v : Nat) : (s.set f v).hbm = s.hbm := rfl
@[simp] theorem State.set_raises (s : State) (f : Reg.Fld) (v : Nat) : (s.set f v).raises = s.raises := rfl
@[simp] theorem State.set_reports (s : State) (f : Reg.Fld) (v : Nat) : (s.set f v).reports = s.reports := rfl
@[simp] theorem State.set_capEv (s : State) (f : Reg.Fld) (v : Nat) : (s.set f v).capEv = s.capEv := rfl
@[simp] theorem State.set_safe (s : State) (f : Reg.Fld) (v : Nat) : (s.set f v).safe = s.safe := rfl
@[simp] theorem State.set_held (s : State) (f : Reg.Fld) (v : Nat) : (s.set f v).held = s.held := rfl
@[simp] theorem State.set_refLost (s : State) (f : Reg.Fld) (v : Nat) : (s.set f v).refLost = s.refLost := rfl
@[simp] theorem State.set_straps (s : State) (f : Reg.Fld) (v : Nat) : (s.set f v).straps = s.straps := rfl
@[simp] theorem State.set_icuMsgs (s : State) (f : Reg.Fld) (v : Nat) : (s.set f v).icuMsgs = s.icuMsgs := rfl
@[simp] theorem State.set_hostWrites (s : State) (f : Reg.Fld) (v : Nat) : (s.set f v).hostWrites = s.hostWrites := rfl
@[simp] theorem State.set_frames (s : State) (f : Reg.Fld) (v : Nat) : (s.set f v).frames = s.frames := rfl
@[simp] theorem State.set_nextFrame (s : State) (f : Reg.Fld) (v : Nat) : (s.set f v).nextFrame = s.nextFrame := rfl
@[simp] theorem State.set_lkp (s : State) (f : Reg.Fld) (v : Nat) : (s.set f v).lkp = s.lkp := rfl
@[simp] theorem State.set_ldg (s : State) (f : Reg.Fld) (v : Nat) : (s.set f v).ldg = s.ldg := rfl
@[simp] theorem State.set_gmem (s : State) (f : Reg.Fld) (v : Nat) : (s.set f v).gmem = s.gmem := rfl
@[simp] theorem State.set_gmemSlot (s : State) (f : Reg.Fld) (v : Nat) : (s.set f v).gmemSlot = s.gmemSlot := rfl
@[simp] theorem State.set_xmt (s : State) (f : Reg.Fld) (v : Nat) : (s.set f v).xmt = s.xmt := rfl
@[simp] theorem State.set_lpm (s : State) (f : Reg.Fld) (v : Nat) : (s.set f v).lpm = s.lpm := rfl
@[simp] theorem State.set_obj (s : State) (f : Reg.Fld) (v : Nat) : (s.set f v).obj = s.obj := rfl
@[simp] theorem State.set_acs (s : State) (f : Reg.Fld) (v : Nat) : (s.set f v).acs = s.acs := rfl
@[simp] theorem State.set_hif (s : State) (f : Reg.Fld) (v : Nat) : (s.set f v).hif = s.hif := rfl
@[simp] theorem State.set_icu (s : State) (f : Reg.Fld) (v : Nat) : (s.set f v).icu = s.icu := rfl
@[simp] theorem State.set_buf (s : State) (f : Reg.Fld) (v : Nat) : (s.set f v).buf = s.buf := rfl
@[simp] theorem State.set_voq (s : State) (f : Reg.Fld) (v : Nat) : (s.set f v).voq = s.voq := rfl
@[simp] theorem State.set_prt (s : State) (f : Reg.Fld) (v : Nat) : (s.set f v).prt = s.prt := rfl
@[simp] theorem State.set_loom (s : State) (f : Reg.Fld) (v : Nat) : (s.set f v).loom = s.loom := rfl
@[simp] theorem State.set_cnt (s : State) (f : Reg.Fld) (v : Nat) : (s.set f v).cnt = s.cnt := rfl
@[simp] theorem State.set_cap (s : State) (f : Reg.Fld) (v : Nat) : (s.set f v).cap = s.cap := rfl
@[simp] theorem State.set_tim (s : State) (f : Reg.Fld) (v : Nat) : (s.set f v).tim = s.tim := rfl
@[simp] theorem State.set_ovl (s : State) (f : Reg.Fld) (v : Nat) : (s.set f v).ovl = s.ovl := rfl
@[simp] theorem State.set_prs (s : State) (f : Reg.Fld) (v : Nat) : (s.set f v).prs = s.prs := rfl
@[simp] theorem State.set_ord (s : State) (f : Reg.Fld) (v : Nat) : (s.set f v).ord = s.ord := rfl
@[simp] theorem State.set_wks (s : State) (f : Reg.Fld) (v : Nat) : (s.set f v).wks = s.wks := rfl
@[simp] theorem State.set_cst (s : State) (f : Reg.Fld) (v : Nat) : (s.set f v).cst = s.cst := rfl
@[simp] theorem State.set_sch (s : State) (f : Reg.Fld) (v : Nat) : (s.set f v).sch = s.sch := rfl
@[simp] theorem State.set_cly (s : State) (f : Reg.Fld) (v : Nat) : (s.set f v).cly = s.cly := rfl
@[simp] theorem State.set_hbc (s : State) (f : Reg.Fld) (v : Nat) : (s.set f v).hbc = s.hbc := rfl
@[simp] theorem State.set_aon (s : State) (f : Reg.Fld) (v : Nat) : (s.set f v).aon = s.aon := rfl
@[simp] theorem State.set_flt (s : State) (f : Reg.Fld) (v : Nat) : (s.set f v).flt = s.flt := rfl
@[simp] theorem State.set_sec (s : State) (f : Reg.Fld) (v : Nat) : (s.set f v).sec = s.sec := rfl

/-! ### The frame of a state -/

@[simp ↓] theorem State.kept_mk x0 x1 x2 x3 x4 x5 x6 x7 x8 x9 x10 x11 x12 x13 x14 x15 x16 x17 x18 x19 x20 x21 x22 x23 x24 x25 x26 x27 x28 x29 x30 x31 x32 x33 x34 x35 x36 x37 x38 x39 x40 x41 x42 x43 x44 x45 x46 x47 x48 x49 x50 : (State.mk x0 x1 x2 x3 x4 x5 x6 x7 x8 x9 x10 x11 x12 x13 x14 x15 x16 x17 x18 x19 x20 x21 x22 x23 x24 x25 x26 x27 x28 x29 x30 x31 x32 x33 x34 x35 x36 x37 x38 x39 x40 x41 x42 x43 x44 x45 x46 x47 x48 x49 x50).kept = (((x2, x16, x17, x0, x50.svn, x50.revoked), x11)) := by unfold State.kept State.outside; exact Eq.refl _

@[simp ↓, simp] theorem State.kept_eta (s : State) : ((s.pending, s.held, s.refLost, s.now, s.sec.svn, s.sec.revoked), s.hbm) = s.kept := by unfold State.kept State.outside; exact Eq.refl _

theorem forEach_kept {α : Type} (l : List α) (f : α → State → State) (s : State) (h : ∀ x s, (f x s).kept = s.kept) :
    (forEach l f s).kept = s.kept := by
  unfold forEach; induction l generalizing s with
  | nil => rfl
  | cons a l ih => simp only [List.foldl_cons]; rw [ih, h]

theorem foldl_kept {α : Type} (l : List α) (f : State → α → State) (s : State) (h : ∀ s x, (f s x).kept = s.kept) :
    (l.foldl f s).kept = s.kept := by
  induction l generalizing s with
  | nil => rfl
  | cons a l ih => simp only [List.foldl_cons]; rw [ih, h]

theorem foldlPair_kept {α β : Type} (l : List α) (f : β × State → α → β × State) (p : β × State) (h : ∀ p x, (f p x).2.kept = p.2.kept) :
    (l.foldl f p).2.kept = p.2.kept := by
  induction l generalizing p with
  | nil => rfl
  | cons a l ih => simp only [List.foldl_cons]; rw [ih, h]

theorem forEach_outside {α : Type} (l : List α) (f : α → State → State) (s : State) (h : ∀ x s, (f x s).kept.1 = s.kept.1) :
    (forEach l f s).kept.1 = s.kept.1 := by
  unfold forEach; induction l generalizing s with
  | nil => rfl
  | cons a l ih => simp only [List.foldl_cons]; rw [ih, h]

theorem forEach_wf {α : Type} (l : List α) (f : α → State → State) (s : State)
    (h : ∀ x s, Memory.wf s.kept.2 = true → Memory.wf (f x s).kept.2 = true) (hs : Memory.wf s.kept.2 = true) :
    Memory.wf (forEach l f s).kept.2 = true := by
  unfold forEach; induction l generalizing s with
  | nil => exact hs
  | cons a l ih => exact ih _ (h _ _ hs)

/-- Storing bytes keeps the canonical form of the memory. -/
@[simp] theorem Memory.wf_setMany (m : List Host.Cell) (a : Nat) (l : List Byte) (h : Memory.wf m = true) :
    Memory.wf (Tbl.setMany (fun _ => 0) m a l) = true := Tbl.wf_setMany _ l m a h

/-- Losing bytes keeps the canonical form of the memory. -/
@[simp] theorem Memory.wf_filter (m : List Host.Cell) (p : Host.Cell → Bool) (h : Memory.wf m = true) :
    Memory.wf (m.filter p) = true := Tbl.wf_filter _ m p h

/-- A frame that keeps everything keeps its first part. -/
theorem State.outside_of_kept {s t : State} (h : t.kept = s.kept) : t.outside = s.outside := congrArg Prod.fst h

/-- A frame that keeps everything keeps the memory. -/
theorem State.hbm_of_kept {s t : State} (h : t.kept = s.kept) : t.hbm = s.hbm := congrArg Prod.snd h

@[simp] theorem Goes_next (t : State) (P : State → Prop) : Goes (.next t) P = P t := by
  simp [Goes]

@[simp] theorem Goes_ite (c : Prop) [Decidable c] (a b : Host.Outcome State Fault Refusal) (P : State → Prop) :
    Goes (if c then a else b) P = if c then Goes a P else Goes b P := by split <;> rfl

end Sys2Proof.Machine
end

