-- ==== Sys2Proof/Laws/Fields.lean ====
section
/-! SUPPORT. Reading registers and fields after a write of one, an interrupt bit or a fault raise. -/

namespace Sys2Proof.Machine

open Reg

theorem Reg.Fld.testBit_of (f : Fld) (w : Word) (i : Nat) : (f.of w).testBit i = (decide (i < f.w) && w.getLsbD (f.lo + i)) := by
  simp [Fld.of, bits, Nat.testBit_mod_two_pow, Nat.testBit_shiftRight, BitVec.getLsbD]

theorem Reg.Fld.getLsbD_put (f : Fld) (w : Word) (v i : Nat) (hi : i < 32) :
    (f.put w v).getLsbD i = if f.lo ≤ i ∧ i < f.lo + f.w then v.testBit (i - f.lo) else w.getLsbD i := by
  simp only [Fld.put, BitVec.getLsbD_or, BitVec.getLsbD_and, BitVec.getLsbD_not, BitVec.getLsbD_ofNat, Nat.testBit_shiftLeft,
    Nat.testBit_two_pow_sub_one, Nat.testBit_mod_two_pow]
  by_cases h1 : f.lo ≤ i
  · by_cases h2 : i - f.lo < f.w
    · have : i < f.lo + f.w := by omega
      simp [hi, h1, h2, this]
    · have : ¬i < f.lo + f.w := by omega
      simp [hi, h1, h2, this]
  · simp [hi, h1]

/-- A field of a word reads the value put into it. -/
theorem Reg.Fld.of_put (f : Fld) (w : Word) (v : Nat) (h : f.lo + f.w ≤ 32) : f.of (f.put w v) = v % 2 ^ f.w := by
  apply Nat.eq_of_testBit_eq; intro i
  rw [Fld.testBit_of, Nat.testBit_mod_two_pow]
  by_cases hi : i < f.w
  · rw [Fld.getLsbD_put _ _ _ _ (by omega)]; simp [hi]
  · simp [hi]

/-- A field of a word is not changed by another field that shares no bit with it. -/
theorem Reg.Fld.of_put_ne (f g : Fld) (w : Word) (v : Nat) (h : f.lo + f.w ≤ 32) (hd : f.lo + f.w ≤ g.lo ∨ g.lo + g.w ≤ f.lo) :
    f.of (g.put w v) = f.of w := by
  apply Nat.eq_of_testBit_eq; intro i
  rw [Fld.testBit_of, Fld.testBit_of]
  by_cases hi : i < f.w
  · rw [Fld.getLsbD_put _ _ _ _ (by omega), if_neg (by omega)]
  · simp [hi]

@[simp] theorem State.rd_wr_self (s : State) (a : Nat) (v : Word) : (s.wr a v).rd a = v := by simp [State.wr, State.rd]

theorem State.rd_wr_ne (s : State) (a b : Nat) (v : Word) (h : b ≠ a) : (s.wr a v).rd b = s.rd b := Tbl.get_set_ne _ _ _ _ _ h

theorem State.rd_set_ne (s : State) (f : Fld) (v b : Nat) (h : b ≠ f.addr) : (s.set f v).rd b = s.rd b := State.rd_wr_ne s _ _ _ h

/-- A field reads the value set, cut to its width. -/
theorem State.get_set_self (s : State) (f : Fld) (v : Nat) (h : f.lo + f.w ≤ 32) : (s.set f v).get f = v % 2 ^ f.w := by
  simp only [State.get, State.set, State.rd_wr_self]; exact Fld.of_put f _ v h

/-- Setting a field of another register changes nothing of this one. -/
theorem State.get_set_addr (s : State) (f g : Fld) (v : Nat) (h : f.addr ≠ g.addr) : (s.set g v).get f = s.get f := by
  simp only [State.get]; rw [State.rd_set_ne _ _ _ _ h]

/-- Setting another field of the same register changes nothing of this one. -/
theorem State.get_set_field (s : State) (f g : Fld) (v : Nat) (ha : f.addr = g.addr) (h : f.lo + f.w ≤ 32)
    (hd : f.lo + f.w ≤ g.lo ∨ g.lo + g.w ≤ f.lo) : (s.set g v).get f = s.get f := by
  simp only [State.get, State.set]; rw [ha, State.rd_wr_self]; exact Fld.of_put_ne f g _ v h hd

/-- Setting a field leaves every field apart from it alone. -/
theorem State.get_set_ne (s : State) (f g : Fld) (v : Nat) (h : f.lo + f.w ≤ 32)
    (hd : f.addr ≠ g.addr ∨ f.lo + f.w ≤ g.lo ∨ g.lo + g.w ≤ f.lo) : (s.set g v).get f = s.get f := by
  by_cases ha : f.addr = g.addr
  · exact State.get_set_field s f g v ha h (hd.resolve_left fun hn => hn ha)
  · exact State.get_set_addr s f g v ha

/-! ### Reads of a state whose registers stand -/

theorem State.rd_congr {s t : State} (h : t.regs = s.regs) (a : Nat) : t.rd a = s.rd a := by simp [State.rd, h]

theorem State.get_congr {s t : State} (h : t.regs = s.regs) (f : Fld) : t.get f = s.get f := by simp [State.get, State.rd, h]

/-! ### Interrupt bits and raises -/

theorem State.setInt_regs (s : State) (pg b : Nat) : (s.setInt pg b).regs = (s.set ⟨pg + 0x14, b, 1⟩ 1).regs := by
  simp only [State.setInt, State.withIrq]; split <;> rfl

/-- An interrupt bit reads 1 once it is set. -/
theorem State.get_setInt_self (s : State) (pg b : Nat) (h : b < 32) : (s.setInt pg b).get ⟨pg + 0x14, b, 1⟩ = 1 := by
  rw [State.get_congr (State.setInt_regs s pg b), State.get_set_self _ _ _ (by dsimp only; omega)]; rfl

theorem State.rd_setInt_ne (s : State) (pg b a : Nat) (h : a ≠ pg + 0x14) : (s.setInt pg b).rd a = s.rd a := by
  rw [State.rd_congr (State.setInt_regs s pg b), State.rd_set_ne _ _ _ _ h]

theorem State.get_setInt_ne (s : State) (pg b : Nat) (f : Fld) (h : f.addr ≠ pg + 0x14) : (s.setInt pg b).get f = s.get f := by
  simp only [State.get]; rw [State.rd_setInt_ne _ _ _ _ h]

theorem State.raise_regs (s : State) (pg i ad ma ac de : Nat) : (s.raise pg i ad ma ac de).regs = (s.set ⟨pg + 0x10, i, 1⟩ 1).regs := rfl

/-- A fault bit reads 1 once it is raised. -/
theorem State.get_raise_self (s : State) (pg i ad ma ac de : Nat) (h : i < 32) : (s.raise pg i ad ma ac de).get ⟨pg + 0x10, i, 1⟩ = 1 := by
  rw [State.get_congr (State.raise_regs s pg i ad ma ac de), State.get_set_self _ _ _ (by dsimp only; omega)]; rfl

theorem State.rd_raise_ne (s : State) (pg i ad ma ac de a : Nat) (h : a ≠ pg + 0x10) : (s.raise pg i ad ma ac de).rd a = s.rd a := by
  rw [State.rd_congr (State.raise_regs s pg i ad ma ac de), State.rd_set_ne _ _ _ _ h]

theorem State.get_raise_ne (s : State) (pg i ad ma ac de : Nat) (f : Fld) (h : f.addr ≠ pg + 0x10) :
    (s.raise pg i ad ma ac de).get f = s.get f := by
  simp only [State.get]; rw [State.rd_raise_ne _ _ _ _ _ _ _ _ h]

/-- A raise is sent to the Bellman last of those on their way. -/
theorem State.raise_raises (s : State) (pg i ad ma ac de : Nat) : (s.raise pg i ad ma ac de).raises =
    s.raises ++ [⟨64 * blockOf pg + i, pageIndex pg, ad, ma, ac, de, s.tb.sec % 2 ^ 32, s.tb.ns⟩] := rfl

end Sys2Proof.Machine
end

