-- ==== Sys2Proof/Laws/Ops.lean ====
section
/-! SUPPORT. What the operations and commands of Machine/Ops.lean keep. -/

namespace Sys2Proof.Machine

open Reg

set_option linter.unusedSimpArgs false
set_option linter.unusedVariables false

@[simp ↓] theorem State.wr_kept (s : State) (a : Nat) (v : Word) : (State.wr s a v).kept = s.kept := by simp [State.wr]

@[simp ↓] theorem State.set_kept (s : State) (f : Fld) (v : Nat) : (State.set s f v).kept = s.kept := by simp [State.set]

@[simp ↓] theorem State.withIrq_kept (s : State) (pg : Nat) (f : State → State) (hf : ∀ s, (f s).kept = s.kept) : (State.withIrq s pg f).kept = s.kept := by
  unfold State.withIrq; dsimp only; (repeat' split) <;> simp [*]

@[simp ↓] theorem State.setInt_kept (s : State) (pg b : Nat) : (State.setInt s pg b).kept = s.kept := by simp [State.setInt]

@[simp ↓] theorem State.raise_kept (s : State) (pg i : Nat) (addr master acc detail : Nat) : (State.raise s pg i addr master acc detail).kept = s.kept := by
  simp [State.raise]

@[simp ↓] theorem State.setFsrc_kept (s : State) (id : Nat) (x : FltSrc) : (State.setFsrc s id x).kept = s.kept := by simp [State.setFsrc]

@[simp ↓] theorem State.fltSettle_kept (s : State) : (State.fltSettle s).kept = s.kept := by simp [State.fltSettle]

@[simp ↓] theorem State.resetEnded_kept (s : State) (pgs : List Nat) : (State.resetEnded s pgs).kept = s.kept := by
  unfold State.resetEnded
  repeat' first
    | with_reducible rfl
    | (simp [apply_ite State.kept, *]; done)
    | split
    | rw [forEach_kept]
    | rw [foldl_kept]
    | intro _ _
    | simp
    | dsimp only

@[simp ↓] theorem State.inc_kept (s : State) (f : Fld) (n : Nat) : (State.inc s f n).kept = s.kept := by simp [State.inc]

@[simp ↓] theorem State.count_kept (s : State) (f : Fld) (pg b : Nat) (n : Nat) : (State.count s f pg b n).kept = s.kept := by
  simp [State.count, apply_ite State.kept]

@[simp ↓] theorem State.dec_kept (s : State) (f : Fld) (n : Nat) : (State.dec s f n).kept = s.kept := by simp [State.dec]

@[simp ↓] theorem State.inc64_kept (s : State) (lo hi : Nat) (n : Nat) : (State.inc64 s lo hi n).kept = s.kept := by simp [State.inc64]

@[simp ↓] theorem State.fresh_kept (s : State) : (State.fresh s).2.kept = s.kept := by simp [State.fresh]

@[simp ↓] theorem State.hostWrite_kept (s : State) (a : Nat) (b : List Byte) : (State.hostWrite s a b).kept = s.kept := by simp [State.hostWrite]

@[simp ↓] theorem State.setFrame_kept (s : State) (i : Nat) (f : Frame) : (State.setFrame s i f).kept = s.kept := by simp [State.setFrame]

@[simp ↓] theorem State.modFrame_kept (s : State) (i : Nat) (g : Frame → Frame) : (State.modFrame s i g).kept = s.kept := by simp [State.modFrame]

@[simp ↓] theorem State.newFrame_kept (s : State) (f : Frame) : (State.newFrame s f).2.kept = s.kept := by simp [State.newFrame]

@[simp ↓] theorem State.setSlot_kept (s : State) (k : Nat) (st : SlotState) : (State.setSlot s k st).kept = s.kept := by simp [State.setSlot]

@[simp ↓] theorem State.dmaErr_kept (s : State) (a : Nat) : (State.dmaErr s a).kept = s.kept := by simp [State.dmaErr]

@[simp ↓] theorem State.setCring_kept (s : State) (c : Nat) (r : CRing) : (State.setCring s c r).kept = s.kept := by
  simp [State.setCring, apply_ite State.kept]

@[simp ↓] theorem State.formRecord_kept (s : State) (c : Nat) (rec : List Byte) : (State.formRecord s c rec).kept = s.kept := by
  simp [State.formRecord]

@[simp ↓] theorem State.formReserved_kept (s : State) (c : Nat) (rec : List Byte) : (State.formReserved s c rec).kept = s.kept := by
  simp [State.formReserved]

@[simp ↓] theorem State.injectRecord_kept (s : State) (cq ring idx status reason : Nat) (entry : List Byte) : (State.injectRecord s cq ring idx status reason entry).kept = s.kept := by
  simp [State.injectRecord]

end Sys2Proof.Machine
end

