-- ==== Sys2Proof/Laws/Txn.lean ====
section
/-! SUPPORT. What the operations and commands of Machine/Txn.lean keep. -/

namespace Sys2Proof.Machine

open Reg

set_option linter.unusedSimpArgs false
set_option linter.unusedVariables false

@[simp ↓] theorem State.setTxnState_kept (s : State) (i : Nat) (t : TxnState) : (State.setTxnState s i t).kept = s.kept := by
  simp [State.setTxnState]

@[simp ↓] theorem State.setTxnResult_kept (s : State) (i : Nat) (r : TxnResult) : (State.setTxnResult s i r).kept = s.kept := by
  simp [State.setTxnResult]

@[simp ↓] theorem State.setTxn_kept (s : State) (i : Nat) (t : Txn) : (State.setTxn s i t).kept = s.kept := by simp [State.setTxn]

@[simp ↓] theorem State.discardTxn_kept (s : State) (i : Nat) : (State.discardTxn s i).kept = s.kept := by simp [State.discardTxn]

@[simp ↓] theorem State.doom_kept (s : State) (i : Nat) (r : TxnResult) : (State.doom s i r).kept = s.kept := by simp [State.doom]

@[simp ↓] theorem State.orphan_kept (s : State) (i a : Nat) : (State.orphan s i a).kept = s.kept := by simp [State.orphan, apply_ite State.kept]

@[simp ↓] theorem State.stageWord_kept (s : State) (i a : Nat) (w : Word) : (State.stageWord s i a w).kept = s.kept := by
  unfold State.stageWord; (repeat' split) <;> simp [*]

@[simp ↓] theorem State.secEnd_kept (s : State) (r : Nat) : (State.secEnd s r).kept = s.kept := by simp [State.secEnd]

@[simp ↓] theorem State.graphEnd_kept (s : State) (i : Nat) (ok : Bool) : (State.graphEnd s i ok).kept = s.kept := by
  unfold State.graphEnd; (repeat' split) <;> simp [*]

end Sys2Proof.Machine
end

