-- ==== Sys2Proof/Laws/Exact.lean ====
section
/-! SUPPORT. What the operations and commands of Machine/Exact.lean keep. -/

namespace Sys2Proof.Machine

open Reg

set_option linter.unusedSimpArgs false
set_option linter.unusedVariables false

@[simp ↓] theorem State.answer_kept (s : State) (k : Nat) (r : BitVec 128) : (State.answer s k r).kept = s.kept := by simp [State.answer]

@[simp ↓] theorem State.rhreq_kept (s : State) (t : Nat) : (State.rhreq s t).kept = s.kept := by simp [State.rhreq]

@[simp ↓] theorem State.placeEntry_kept (s : State) (e : XEntry) : (State.placeEntry s e).2.kept = s.kept := by
  unfold State.placeEntry; (repeat' split) <;> simp [*]

@[simp ↓] theorem State.markHit_kept (s : State) (e : XEntry) : (State.markHit s e).kept = s.kept := by simp [State.markHit]

@[simp ↓] theorem State.bucketError_kept (s : State) (g : XGeo) (way : Nat) (key : List Byte) : (State.bucketError s g way key).kept = s.kept := by
  simp [State.bucketError]

@[simp ↓] theorem State.stashError_kept (s : State) (t : Nat) (key : List Byte) : (State.stashError s t key).kept = s.kept := by
  simp [State.stashError]

@[simp ↓] theorem State.markParity_kept (s : State) (t : Nat) (key : List Byte) (q : Nat) : (State.markParity s t key q).kept = s.kept := by
  simp [State.markParity]

@[simp ↓] theorem State.xread_kept (s : State) (l : Lookup) (key : List Byte) : (State.xread s l key).2.2.kept = s.kept := by
  unfold State.xread; dsimp only; (repeat' split) <;> simp [*]

@[simp ↓] theorem State.learnRefused_kept (s : State) (t : Nat) : (State.learnRefused s t).kept = s.kept := by simp [State.learnRefused]

@[simp ↓] theorem State.learnEnqueue_kept (s : State) (l : Lookup) (key data : List Byte) : (State.learnEnqueue s l key data).kept = s.kept := by
  simp [State.learnEnqueue]

@[simp ↓] theorem State.notify_kept (s : State) (type : Nat) (r : LearnReq) : (State.notify s type r).kept = s.kept := by
  simp [State.notify, apply_ite State.kept]

@[simp ↓] theorem State.takeLearn_kept (s : State) (r : LearnReq) : (State.takeLearn s r).kept = s.kept := by simp [State.takeLearn]

@[simp ↓] theorem State.decideLearn_kept (s : State) (r : LearnReq) : (State.decideLearn s r).kept = s.kept := by
  unfold State.decideLearn; dsimp only; (repeat' split) <;> simp [*]

@[simp ↓] theorem State.endXmtJob_kept (s : State) (result : Nat) : (State.endXmtJob s result).kept = s.kept := by simp [State.endXmtJob]

@[simp ↓] theorem State.xmtJobStart_kept (s : State) (i tid count : Nat) : (State.xmtJobStart s i tid count).kept = s.kept := by
  unfold State.xmtJobStart; (repeat' split) <;> simp [*]

@[simp ↓] theorem State.xmtJobAbort_kept (s : State) : (State.xmtJobAbort s).kept = s.kept := by
  unfold State.xmtJobAbort; (repeat' split) <;> simp [*]

@[simp ↓] theorem State.xmtRecordDone_kept (s : State) (result : Nat) : (State.xmtRecordDone s result).kept = s.kept := by
  unfold State.xmtRecordDone; (repeat' split) <;> simp [*]

@[simp ↓] theorem State.xMark_kept (s : State) (t : Nat) (key : List Byte) (i : Nat) : (State.xMark s t key i).kept = s.kept := by simp [State.xMark]

@[simp ↓] theorem State.xWrite_kept (s : State) (t : Nat) (key data : List Byte) (static : Option Bool) : (State.xWrite s t key data static).2.kept = s.kept := by
  unfold State.xWrite; dsimp only; (repeat' split) <;> simp [*]

@[simp ↓] theorem State.scanHits_kept (s : State) (t : Nat) (all : Bool) (out limit recAddr : Nat) : (State.scanHits s t all out limit recAddr).kept = s.kept := by
  unfold State.scanHits
  repeat' first
    | with_reducible rfl
    | (simp [apply_ite State.kept, *]; done)
    | split
    | rw [forEach_kept]
    | rw [foldl_kept]
    | intro _ _
    | simp
    | dsimp only

@[simp ↓] theorem State.xmtRecord_kept (s : State) (j : Job) (r : List Byte) : (State.xmtRecord s j r).kept = s.kept := by
  unfold State.xmtRecord
  extract_lets t klen dlen key data op es src own s1
  clear_value t klen dlen key data op es own
  split
  · simp
  · repeat' first
      | (simp [s1]; done)
      | split

@[simp ↓] theorem State.wrAllSlots_kept (s : State) (a : Nat) (w : Word) : (State.wrAllSlots s a w).kept = s.kept := by simp [State.wrAllSlots]

@[simp ↓] theorem State.replicate_kept (s : State) (b : Nat) : (State.replicate s b).kept = s.kept := by simp [State.replicate, apply_ite State.kept]

@[simp ↓] theorem State.assayStart_kept (s : State) (t : Nat) : (State.assayStart s t).kept = s.kept := by simp [State.assayStart]

@[simp ↓] theorem State.assayDiff_kept (s : State) : (State.assayDiff s).kept = s.kept := by simp [State.assayDiff]

@[simp ↓] theorem State.assayCompare_kept (s : State) (t : Nat) (r : List Byte) : (State.assayCompare s t r).kept = s.kept := by
  unfold State.assayCompare; dsimp only; (repeat' split) <;> simp [*]

@[simp ↓] theorem State.assayEnd_kept (s : State) : (State.assayEnd s).kept = s.kept := by simp [State.assayEnd, apply_ite State.kept]

@[simp ↓] theorem State.xCommitTable_kept (s : State) (t : Nat) (cfg seed0 seed1 : Word) : (State.xCommitTable s t cfg seed0 seed1).2.2.2.kept = s.kept := by
  unfold State.xCommitTable; dsimp only; (repeat' split) <;> simp [*]

@[simp ↓] theorem State.xHoldTables_kept (s : State) (k : Nat) : (State.xHoldTables s k).kept = s.kept := by
  unfold State.xHoldTables
  repeat' first
    | with_reducible rfl
    | (simp [apply_ite State.kept, *]; done)
    | split
    | rw [forEach_kept]
    | rw [foldl_kept]
    | intro _ _
    | simp
    | dsimp only

@[simp ↓] theorem State.xReleaseExtents_kept (s : State) : (State.xReleaseExtents s).kept = s.kept := by
  unfold State.xReleaseExtents
  repeat' first
    | with_reducible rfl
    | (simp [apply_ite State.kept, *]; done)
    | split
    | rw [forEach_kept]
    | rw [foldl_kept]
    | intro _ _
    | simp
    | dsimp only

theorem execExactLookup_kept (k : Nat) (err : XErr) (s : State) : Goes (execExactLookup k err s) fun t => t.kept = s.kept := by
  unfold execExactLookup; dsimp only; (repeat' split) <;> simp [*]

theorem execLearnLookup_kept (k : Nat) (s : State) : Goes (execLearnLookup k s) fun t => t.kept = s.kept := by
  unfold execLearnLookup; dsimp only; (repeat' split) <;> simp [*]

theorem execLearnDecision_kept (s : State) : Goes (execLearnDecision s) fun t => t.kept = s.kept := by unfold execLearnDecision; split <;> simp [*]

theorem execStashReplace_kept (tid : Fin 256) (s : State) : Goes (execStashReplace tid s) fun t => t.kept = s.kept := by simp [execStashReplace]

theorem execXmtJobRecord_kept (rec : Fetched) (s : State) : Goes (execXmtJobRecord rec s) fun t => t.kept = s.kept := by
  unfold execXmtJobRecord; (repeat' split) <;> simp [*]

theorem execRehashComplete_kept (s : State) : Goes (execRehashComplete s) fun t => t.kept = s.kept := by
  unfold execRehashComplete; dsimp only; (repeat' split) <;> simp [*]

theorem execBankUtilWindow_kept (s : State) : Goes (execBankUtilWindow s) fun t => t.kept = s.kept := by
  unfold execBankUtilWindow
  repeat' first
    | (simp [apply_ite State.kept, *]; done)
    | split
    | (simp; rw [forEach_kept])
    | (simp; rw [foldl_kept])
    | rw [forEach_kept]
    | rw [foldl_kept]
    | intro _ _
    | simp
    | dsimp only

theorem execReplicaFree_kept (bank : Fin 256) (s : State) : Goes (execReplicaFree bank s) fun t => t.kept = s.kept := by
  unfold execReplicaFree; split <;> simp [*]

theorem execEntryDemote_kept (tid : Fin 256) (s : State) : Goes (execEntryDemote tid s) fun t => t.kept = s.kept := by
  unfold execEntryDemote; dsimp only; (repeat' split) <;> simp [*]

theorem execEntryPromote_kept (tid : Fin 256) (s : State) : Goes (execEntryPromote tid s) fun t => t.kept = s.kept := by
  unfold execEntryPromote; dsimp only; (repeat' split) <;> simp [*]

theorem execAssayerRecord_kept (rec : Fetched) (s : State) : Goes (execAssayerRecord rec s) fun t => t.kept = s.kept := by
  unfold execAssayerRecord; dsimp only; (repeat' split) <;> simp [*]

theorem execParityRewrite_kept (tid : Fin 256) (s : State) : Goes (execParityRewrite tid s) fun t => t.kept = s.kept := by
  unfold execParityRewrite; split <;> simp [*]

end Sys2Proof.Machine
end

