-- ==== Sys2Proof/Laws/Routes.lean ====
section
/-! SUPPORT. What the operations and commands of Machine/Routes.lean keep. -/

namespace Sys2Proof.Machine

open Reg

set_option linter.unusedSimpArgs false
set_option linter.unusedVariables false

@[simp ↓] theorem State.setCone_kept (s : State) (c : Cone) : (State.setCone s c).kept = s.kept := by simp [State.setCone]

@[simp ↓] theorem State.lpmUncor_kept (s : State) (addr detail : Nat) : (State.lpmUncor s addr detail).kept = s.kept := by simp [State.lpmUncor]

@[simp ↓] theorem State.coneHit_kept (s : State) (r : Route) : (State.coneHit s r).kept = s.kept := by simp [State.coneHit, apply_ite State.kept]

@[simp ↓] theorem State.lpmRead_kept (s : State) (k : Nat) (v6 : Bool) (vrf a : Nat) (err : LErr) : (State.lpmRead s k v6 vrf a err).2.kept = s.kept := by
  unfold State.lpmRead; dsimp only; (repeat' split) <;> simp [*]

@[simp ↓] theorem State.moveCone_kept (s : State) (c : Cone) (out : Bool) : (State.moveCone s c out).kept = s.kept := by simp [State.moveCone]

@[simp ↓] theorem State.jobStarted_kept (s : State) (r : JobRegs) : (State.jobStarted s r).kept = s.kept := by simp [State.jobStarted]

@[simp ↓] theorem State.jobEnded_kept (s : State) (r : JobRegs) (result : Nat) : (State.jobEnded s r result).kept = s.kept := by
  simp [State.jobEnded]

@[simp ↓] theorem State.endLpmJob_kept (s : State) (result : Nat) : (State.endLpmJob s result).kept = s.kept := by simp [State.endLpmJob]

@[simp ↓] theorem State.lpmRecordDone_kept (s : State) (result : Nat) : (State.lpmRecordDone s result).kept = s.kept := by
  unfold State.lpmRecordDone; (repeat' split) <;> simp [*]

@[simp ↓] theorem State.lpmJobStart_kept (s : State) (i count : Nat) : (State.lpmJobStart s i count).kept = s.kept := by
  simp [State.lpmJobStart, apply_ite State.kept]

@[simp ↓] theorem State.lpmJobAbort_kept (s : State) : (State.lpmJobAbort s).kept = s.kept := by simp [State.lpmJobAbort, apply_ite State.kept]

@[simp ↓] theorem State.lMark_kept (s : State) (v6 : Bool) (vrf plen a : Nat) : (State.lMark s v6 vrf plen a).kept = s.kept := by simp [State.lMark]

theorem State.lPlace_kept (s t : State) (r : Route) (h : s.lPlace r = some t) : t.kept = s.kept := by
  unfold State.lPlace at h
  dsimp only at h
  split at h
  · split at h
    · cases h; simp
    · cases h
  · split at h
    · cases h; simp
    · split at h
      · cases h; simp
      · cases h

@[simp ↓] theorem State.lWrite_kept (s : State) (v6 : Bool) (vrf plen a : Nat) (data : Word) (upd : Bool) : (State.lWrite s v6 vrf plen a data upd).2.kept = s.kept := by
  unfold State.lWrite
  split
  · simp
  · split
    · rfl
    · rename_i h
      have := State.lPlace_kept _ _ _ h
      simp [apply_ite State.kept, this]

@[simp ↓] theorem State.lpmRecord_kept (s : State) (j : Job) (r : List Byte) : (State.lpmRecord s j r).kept = s.kept := by
  unfold State.lpmRecord; dsimp only; (repeat' split) <;> simp [*]

@[simp ↓] theorem State.objUncor_kept (s : State) (c : OCopy) : (State.objUncor s c).kept = s.kept := by simp [State.objUncor]

@[simp ↓] theorem State.objRead_kept (s : State) (c : OCopy) (ecc : Ecc) : (State.objRead s c ecc).2.kept = s.kept := by
  unfold State.objRead; (repeat' split) <;> simp [*]

@[simp ↓] theorem State.endObjJob_kept (s : State) (result : Nat) : (State.endObjJob s result).kept = s.kept := by simp [State.endObjJob]

@[simp ↓] theorem State.objRecordDone_kept (s : State) (result : Nat) : (State.objRecordDone s result).kept = s.kept := by
  unfold State.objRecordDone; (repeat' split) <;> simp [*]

@[simp ↓] theorem State.objJobStart_kept (s : State) (i count : Nat) : (State.objJobStart s i count).kept = s.kept := by
  simp [State.objJobStart, apply_ite State.kept]

@[simp ↓] theorem State.objJobAbort_kept (s : State) : (State.objJobAbort s).kept = s.kept := by simp [State.objJobAbort, apply_ite State.kept]

@[simp ↓] theorem State.oMark_kept (s : State) (tid index : Nat) : (State.oMark s tid index).kept = s.kept := by simp [State.oMark]

@[simp ↓] theorem State.objRecord_kept (s : State) (j : Job) (r : List Byte) (list : Fetched) : (State.objRecord s j r list).kept = s.kept := by
  unfold State.objRecord; dsimp only; (repeat' split) <;> simp [*]

@[simp ↓] theorem State.setFreeExt_kept (s : State) (n : Nat) : (State.setFreeExt s n).kept = s.kept := by simp [State.setFreeExt]

@[simp ↓] theorem State.lpmCommit_kept (s : State) (ctl cap : Word) : (State.lpmCommit s ctl cap).2.2.kept = s.kept := by
  unfold State.lpmCommit; dsimp only; (repeat' split) <;> simp [*]

@[simp ↓] theorem State.objCommit_kept (s : State) (ctl cap : Word) : (State.objCommit s ctl cap).2.2.kept = s.kept := by
  unfold State.objCommit; dsimp only; (repeat' split) <;> simp [*]

@[simp ↓] theorem State.objSweep_kept (s : State) (keep : OCopy → Option OCopy) : (State.objSweep s keep).kept = s.kept := by simp [State.objSweep]

theorem execLpmLookup_kept (k : Nat) (err : LErr) (s : State) : Goes (execLpmLookup k err s) fun t => t.kept = s.kept := by
  unfold execLpmLookup; split <;> simp [*]

theorem execConeDemote_kept (v6 : Bool) (s : State) : Goes (execConeDemote v6 s) fun t => t.kept = s.kept := by
  unfold execConeDemote; dsimp only; (repeat' split) <;> simp [*]

theorem execConePromote_kept (v6 : Bool) (s : State) : Goes (execConePromote v6 s) fun t => t.kept = s.kept := by
  unfold execConePromote; dsimp only; (repeat' split) <;> simp [*]

theorem execLpmNodeRebuild_kept (s : State) : Goes (execLpmNodeRebuild s) fun t => t.kept = s.kept := by simp [execLpmNodeRebuild]

theorem execLpmJobRecord_kept (rec : Fetched) (s : State) : Goes (execLpmJobRecord rec s) fun t => t.kept = s.kept := by
  unfold execLpmJobRecord; (repeat' split) <;> simp [*]

theorem execObjLookup_kept (k : Nat) (ecc : Ecc) (s : State) : Goes (execObjLookup k ecc s) fun t => t.kept = s.kept := by
  unfold execObjLookup; dsimp only; (repeat' split) <;> simp [*]

theorem execEcmpLookup_kept (k : Nat) (ecc : Ecc) (s : State) : Goes (execEcmpLookup k ecc s) fun t => t.kept = s.kept := by
  unfold execEcmpLookup; dsimp only; (repeat' split) <;> simp [*]

theorem execObjJobRecord_kept (rec : Fetched) (list : Fetched) (s : State) : Goes (execObjJobRecord rec list s) fun t => t.kept = s.kept := by
  unfold execObjJobRecord; (repeat' split) <;> simp [*]

end Sys2Proof.Machine
end

