-- ==== Sys2Proof/Laws/Search.lean ====
section
/-! SUPPORT. What the operations and commands of Machine/Search.lean keep. -/

namespace Sys2Proof.Machine

open Reg

set_option linter.unusedSimpArgs false
set_option linter.unusedVariables false

@[simp ↓] theorem State.falseHit_kept (s : State) (q l : Nat) (g : Nat × Nat) : (State.falseHit s q l g).kept = s.kept := by simp [State.falseHit]

@[simp ↓] theorem State.blockCycles_kept (s : State) (q k l : Nat) (key : List Byte) : (State.blockCycles s q k l key).kept = s.kept := by
  simp [State.blockCycles]

@[simp ↓] theorem State.ruleUncor_kept (s : State) (q : Nat) (c : ACopy) : (State.ruleUncor s q c).kept = s.kept := by simp [State.ruleUncor]

@[simp ↓] theorem State.searchEnd_kept (s : State) (k q : Nat) (l : Lookup) (ecc : Ecc) (r : Search) : (State.searchEnd s k q l ecc r).kept = s.kept := by
  unfold State.searchEnd; dsimp only; (repeat' split) <;> simp [*]

@[simp ↓] theorem State.setSummary_kept (s : State) (i : Nat) (v : BitVec 256) : (State.setSummary s i v).kept = s.kept := by simp [State.setSummary]

@[simp ↓] theorem State.setRules_kept (s : State) (cs : List ACopy) : (State.setRules s cs).kept = s.kept := by simp [State.setRules]

@[simp ↓] theorem State.acsOpenSlot_kept (s : State) (i n prev : Nat) : (State.acsOpenSlot s i n prev).kept = s.kept := by simp [State.acsOpenSlot]

@[simp ↓] theorem State.acsClearSlot_kept (s : State) (k : Nat) : (State.acsClearSlot s k).kept = s.kept := by simp [State.acsClearSlot]

@[simp ↓] theorem State.endAcsJob_kept (s : State) (result : Nat) : (State.endAcsJob s result).kept = s.kept := by simp [State.endAcsJob]

@[simp ↓] theorem State.acsRecordDone_kept (s : State) (result : Nat) : (State.acsRecordDone s result).kept = s.kept := by
  unfold State.acsRecordDone; (repeat' split) <;> simp [*]

@[simp ↓] theorem State.acsJobStart_kept (s : State) (i count : Nat) : (State.acsJobStart s i count).kept = s.kept := by
  simp [State.acsJobStart, apply_ite State.kept]

@[simp ↓] theorem State.acsJobAbort_kept (s : State) : (State.acsJobAbort s).kept = s.kept := by simp [State.acsJobAbort, apply_ite State.kept]

@[simp ↓] theorem State.aWrite_kept (s : State) (c : ACopy) : (State.aWrite s c).kept = s.kept := by simp [State.aWrite]

@[simp ↓] theorem State.aMark_kept (s : State) (l p : Nat) : (State.aMark s l p).kept = s.kept := by simp [State.aMark]

@[simp ↓] theorem State.acsRecord_kept (s : State) (j : Job) (r : List Byte) : (State.acsRecord s j r).kept = s.kept := by
  unfold State.acsRecord; dsimp only; (repeat' split) <;> simp [*]

@[simp ↓] theorem State.acsAfterCommit_kept (s : State) (capErr : Bool) : (State.acsAfterCommit s capErr).kept = s.kept := by
  unfold State.acsAfterCommit
  repeat' first
    | with_reducible rfl
    | (simp [apply_ite State.kept, *]; done)
    | split
    | rw [forEach_kept]
    | rw [foldl_kept]
    | intro _ _
    | simp
    | dsimp only

@[simp ↓] theorem State.searchList_kept (s : State) (q k l : Nat) (key : List Byte) (hits misses : List (Nat × Nat × Nat)) (n m : Nat)
    (r : Search) : (s.searchList q k l key hits misses n m r).2.kept = s.kept := by
  induction n generalizing s m r with
  | zero => rfl
  | succ n ih =>
    unfold State.searchList
    dsimp only
    repeat' first
      | (simp [ih]; done)
      | split

@[simp ↓] theorem State.searchAll_kept (s : State) (q k : Nat) (key : List Byte) (hits misses : List (Nat × Nat × Nat)) (ls : List Nat)
    (r : Search) : (s.searchAll q k key hits misses ls r).2.kept = s.kept := by
  induction ls generalizing s r with
  | nil => rfl
  | cons l ls ih =>
    unfold State.searchAll
    dsimp only
    split
    · simp
    · simp [ih]

theorem execAcsSearch_kept (k : Nat) (hits misses : List (Nat × Nat × Nat)) (ecc : Ecc) (s : State) : Goes (execAcsSearch k hits misses ecc s) fun t => t.kept = s.kept := by
  unfold execAcsSearch; split <;> simp [*]

theorem execAcsRowRewrite_kept (q : Fin 4) (s : State) : Goes (execAcsRowRewrite q s) fun t => t.kept = s.kept := by
  unfold execAcsRowRewrite; split <;> simp [*]

theorem execAcsScrub_kept (q : Fin 4) (found : Option (Nat × Nat × Nat)) (s : State) : Goes (execAcsScrub q found s) fun t => t.kept = s.kept := by
  unfold execAcsScrub; (repeat' split) <;> simp [*]

theorem execAcsSummaryRecompute_kept (s : State) : Goes (execAcsSummaryRecompute s) fun t => t.kept = s.kept := by
  unfold execAcsSummaryRecompute; split <;> simp [*]

theorem execAcsRulestoreRewrite_kept (s : State) : Goes (execAcsRulestoreRewrite s) fun t => t.kept = s.kept := by
  unfold execAcsRulestoreRewrite; split <;> simp [*]

theorem execAcsJobRecord_kept (rec : Fetched) (s : State) : Goes (execAcsJobRecord rec s) fun t => t.kept = s.kept := by
  unfold execAcsJobRecord; (repeat' split) <;> simp [*]

end Sys2Proof.Machine
end

