-- ==== Sys2Proof/Laws/Ledger.lean ====
section
/-! SUPPORT. What the operations and commands of Machine/Ledger.lean keep. -/

namespace Sys2Proof.Machine

open Reg

set_option linter.unusedSimpArgs false
set_option linter.unusedVariables false

@[simp ↓] theorem State.cmdErr_kept (s : State) (i v : Nat) : (State.cmdErr s i v).kept = s.kept := by simp [State.cmdErr]

@[simp ↓] theorem State.endTxn_kept (s : State) (i : Nat) (r : TxnResult) (intBit : Nat) : (State.endTxn s i r intBit).kept = s.kept := by
  simp [State.endTxn]

@[simp ↓] theorem State.txnBegin_kept (s : State) (i : Nat) : (State.txnBegin s i).kept = s.kept := by unfold State.txnBegin; split <;> simp [*]

@[simp ↓] theorem State.txnCommit_kept (s : State) (i : Nat) : (State.txnCommit s i).kept = s.kept := by
  unfold State.txnCommit; (repeat' split) <;> simp [*]

@[simp ↓] theorem State.txnRollback_kept (s : State) (i : Nat) : (State.txnRollback s i).kept = s.kept := by
  unfold State.txnRollback; split <;> simp [*]

@[simp ↓] theorem State.bindSlot_kept (s : State) (i k : Nat) : (State.bindSlot s i k).kept = s.kept := by simp [State.bindSlot]

@[simp ↓] theorem State.openSlot_kept (s : State) (i k : Nat) (ep : Nat) (st : SlotState) : (State.openSlot s i k ep st).kept = s.kept := by
  simp [State.openSlot]

@[simp ↓] theorem State.grant_kept (s : State) (i : Nat) : (State.grant s i).kept = s.kept := by
  unfold State.grant; dsimp only; (repeat' split) <;> simp [*]

@[simp ↓] theorem State.waitSlot_kept (s : State) (i : Nat) : (State.waitSlot s i).kept = s.kept := by simp [State.waitSlot, apply_ite State.kept]

@[simp ↓] theorem State.liveFrameBound_kept (s : State) (k a : Nat) (w : Word) : (State.liveFrameBound s k a w).kept = s.kept := by
  simp [State.liveFrameBound]

@[simp ↓] theorem State.liveImmediate_kept (s : State) (a : Nat) (w : Word) : (State.liveImmediate s a w).kept = s.kept := by
  simp [State.liveImmediate]

@[simp ↓] theorem State.liveGmem_kept (s : State) (k g : Nat) (v : BitVec 288) : (State.liveGmem s k g v).kept = s.kept := by simp [State.liveGmem]

@[simp ↓] theorem State.checkedWords_kept (s : State) (i : Nat) : (State.checkedWords s i).2.kept = s.kept := by
  unfold State.checkedWords
  simp [apply_ite State.kept]
  rw [foldlPair_kept _ _ _ (fun _ _ => by simp)]

@[simp ↓] theorem State.liveWords_kept (s : State) (i : Nat) (k : Option Nat) : (State.liveWords s i k).kept = s.kept := by
  unfold State.liveWords
  repeat' first
    | with_reducible rfl
    | (simp [apply_ite State.kept, *]; done)
    | split
    | rw [forEach_kept]
    | rw [foldl_kept]
    | intro _ _
    | simp
    | dsimp only

@[simp ↓] theorem State.advance_kept (s : State) (k : Nat) : (State.advance s k).kept = s.kept := by simp [State.advance]

@[simp ↓] theorem State.finishCommit_kept (s : State) (i : Nat) : (State.finishCommit s i).kept = s.kept := by simp [State.finishCommit]

@[simp ↓] theorem State.commitCycle_kept (s : State) (i : Nat) (k : Option Nat) : (State.commitCycle s i k).kept = s.kept := by
  unfold State.commitCycle
  repeat' first
    | with_reducible rfl
    | (simp [apply_ite State.kept, *]; done)
    | split
    | rw [forEach_kept]
    | rw [foldl_kept]
    | intro _ _
    | simp
    | dsimp only

@[simp ↓] theorem State.unbindSlot_kept (s : State) (k : Nat) (st : SlotState) : (State.unbindSlot s k st).kept = s.kept := by
  simp [State.unbindSlot]

@[simp ↓] theorem State.loseToReset_kept (s : State) (i : Nat) : (State.loseToReset s i).kept = s.kept := by
  unfold State.loseToReset; split <;> simp [*]

@[simp ↓] theorem State.resetTxn_kept (s : State) (holds : Nat → Bool) (i : Nat) : (State.resetTxn s holds i).kept = s.kept := by
  unfold State.resetTxn; (repeat' split) <;> simp [*]

@[simp ↓] theorem State.discardFor_kept (s : State) (holds : Nat → Bool) : (State.discardFor s holds).kept = s.kept := by
  unfold State.discardFor
  repeat' first
    | with_reducible rfl
    | (simp [apply_ite State.kept, *]; done)
    | split
    | rw [forEach_kept]
    | rw [foldl_kept]
    | intro _ _
    | simp
    | dsimp only

@[simp ↓] theorem State.ldgReset_kept (s : State) : (State.ldgReset s).kept = s.kept := by
  unfold State.ldgReset
  repeat' first
    | with_reducible rfl
    | (simp [apply_ite State.kept, *]; done)
    | split
    | rw [forEach_kept]
    | rw [foldl_kept]
    | intro _ _
    | simp
    | dsimp only

@[simp ↓] theorem State.releaseSlot_kept (s : State) (k : Nat) : (State.releaseSlot s k).kept = s.kept := by simp [State.releaseSlot]

@[simp ↓] theorem State.drainSlot_kept (s : State) (k : Nat) : (State.drainSlot s k).kept = s.kept := by simp [State.drainSlot]

@[simp ↓] theorem State.preUp_kept (s : State) (k n : Nat) : (State.preUp s k n).kept = s.kept := by simp [State.preUp]

@[simp ↓] theorem State.postUp_kept (s : State) (k n : Nat) : (State.postUp s k n).kept = s.kept := by simp [State.postUp]

@[simp ↓] theorem State.countDown_kept (s : State) (f : Fld) (k which : Nat) : (State.countDown s f k which).kept = s.kept := by
  simp [State.countDown, apply_ite State.kept]

@[simp ↓] theorem State.preDown_kept (s : State) (k gen : Nat) : (State.preDown s k gen).kept = s.kept := by
  simp [State.preDown, apply_ite State.kept]

@[simp ↓] theorem State.postDown_kept (s : State) (k : Nat) : (State.postDown s k).kept = s.kept := by simp [State.postDown]

theorem execTxnTimeout_kept (i : Fin 5) (s : State) : Goes (execTxnTimeout i s) fun t => t.kept = s.kept := by
  simp [execTxnTimeout, apply_ite State.kept]

theorem execCommitGrant_kept (s : State) : Goes (execCommitGrant s) fun t => t.kept = s.kept := by unfold execCommitGrant; split <;> simp [*]

theorem execCommitTimeout_kept (i : Fin 5) (s : State) : Goes (execCommitTimeout i s) fun t => t.kept = s.kept := by simp [execCommitTimeout]

theorem execCommitCycle_kept (s : State) : Goes (execCommitCycle s) fun t => t.kept = s.kept := by
  unfold execCommitCycle; (repeat' split) <;> simp [*]

theorem execSlotFreed_kept (k : Fin 16) (s : State) : Goes (execSlotFreed k s) fun t => t.kept = s.kept := by simp [execSlotFreed]

end Sys2Proof.Machine
end

