-- ==== Sys2Proof/Laws/Passage.lean ====
section
/-! SUPPORT. What the operations and commands of Machine/Passage.lean keep. -/

namespace Sys2Proof.Machine

open Reg

set_option linter.unusedSimpArgs false
set_option linter.unusedVariables false

@[simp ↓] theorem State.portCnt_kept (s : State) (p k : Nat) (n : Nat) : (State.portCnt s p k n).kept = s.kept := by simp [State.portCnt]

@[simp ↓] theorem State.queueCnt_kept (s : State) (e n : Nat) : (State.queueCnt s e n).kept = s.kept := by simp [State.queueCnt]

@[simp ↓] theorem State.dropCnt_kept (s : State) (r : Nat) (f : Frame) : (State.dropCnt s r f).kept = s.kept := by simp [State.dropCnt]

@[simp ↓] theorem State.noteDrop_kept (s : State) (r : Nat) (f : Frame) : (State.noteDrop s r f).kept = s.kept := by simp [State.noteDrop]

@[simp ↓] theorem State.setUnit_kept (s : State) (h : Nat) (u : Option BufUnit) : (State.setUnit s h u).kept = s.kept := by simp [State.setUnit]

@[simp ↓] theorem State.freeHandle_kept (s : State) (h : Nat) : (State.freeHandle s h).kept = s.kept := by
  unfold State.freeHandle; (repeat' split) <;> simp [*]

@[simp ↓] theorem State.freeSpill_kept (s : State) (id : Nat) : (State.freeSpill s id).kept = s.kept := by simp [State.freeSpill]

@[simp ↓] theorem State.freeStore_kept (s : State) (id : Nat) : (State.freeStore s id).kept = s.kept := by
  unfold State.freeStore; dsimp only; (repeat' split) <;> simp [*]

@[simp ↓] theorem State.sendPfc_kept (s : State) (p pri quanta : Nat) : (State.sendPfc s p pri quanta).kept = s.kept := by
  simp [State.sendPfc, apply_ite State.kept]

@[simp ↓] theorem State.setPfc_kept (s : State) (p pri n : Nat) : (State.setPfc s p pri n).kept = s.kept := by
  simp [State.setPfc, apply_ite State.kept]

@[simp ↓] theorem State.pfcTake_kept (s : State) (id n : Nat) : (State.pfcTake s id n).kept = s.kept := by simp [State.pfcTake, apply_ite State.kept]

@[simp ↓] theorem State.pfcRelease_kept (s : State) (id : Nat) : (State.pfcRelease s id).kept = s.kept := by
  simp [State.pfcRelease, apply_ite State.kept]

@[simp ↓] theorem State.uncount_kept (s : State) (f : Frame) : (State.uncount s f).kept = s.kept := by simp [State.uncount, apply_ite State.kept]

@[simp ↓] theorem State.endPassage_kept (s : State) (id : Nat) : (State.endPassage s id).kept = s.kept := by simp [State.endPassage]

@[simp ↓] theorem State.drop_kept (s : State) (id r : Nat) (early : Bool) : (State.drop s id r early).kept = s.kept := by
  simp [State.drop, apply_ite State.kept]

@[simp ↓] theorem State.modFamily_kept (s : State) (id : Nat) (g : Frame → Frame) : (State.modFamily s id g).kept = s.kept := by
  unfold State.modFamily
  repeat' first
    | with_reducible rfl
    | (simp [apply_ite State.kept, *]; done)
    | split
    | rw [forEach_kept]
    | rw [foldl_kept]
    | intro _ _
    | simp
    | dsimp only

@[simp ↓] theorem State.requestBuf_kept (s : State) (id requester size : Nat) : (State.requestBuf s id requester size).kept = s.kept := by
  simp [State.requestBuf]

end Sys2Proof.Machine
end

