-- ==== Sys2Proof/Laws/Gates.lean ====
section
/-! SUPPORT. What the operations and commands of Machine/Gates.lean keep. -/

namespace Sys2Proof.Machine

open Reg

set_option linter.unusedSimpArgs false
set_option linter.unusedVariables false

@[simp ↓] theorem State.setEqQ_kept (s : State) (e : Nat) (l : List Nat) : (State.setEqQ s e l).kept = s.kept := by simp [State.setEqQ]

@[simp ↓] theorem State.gateCheck_kept (s : State) (p q : Nat) : (State.gateCheck s p q).kept = s.kept := by
  unfold State.gateCheck
  repeat' first
    | with_reducible rfl
    | (simp [apply_ite State.kept, *]; done)
    | split
    | rw [forEach_kept]
    | rw [foldl_kept]
    | intro _ _
    | simp
    | dsimp only

@[simp ↓] theorem State.gateCheckPort_kept (s : State) (p : Nat) : (State.gateCheckPort s p).kept = s.kept := by
  unfold State.gateCheckPort
  repeat' first
    | with_reducible rfl
    | (simp [apply_ite State.kept, *]; done)
    | split
    | rw [forEach_kept]
    | rw [foldl_kept]
    | intro _ _
    | simp
    | dsimp only

end Sys2Proof.Machine
end

