-- ==== Sys2Proof/Laws/Ports.lean ====
section
/-! SUPPORT. What the operations and commands of Machine/Ports.lean keep. -/

namespace Sys2Proof.Machine

open Reg

set_option linter.unusedSimpArgs false
set_option linter.unusedVariables false

@[simp ↓] theorem State.setGrp_kept (s : State) (g : Nat) (x : LoomGrp) : (State.setGrp s g x).kept = s.kept := by simp [State.setGrp]

@[simp ↓] theorem State.markBad_kept (s : State) (id : Nat) : (State.markBad s id).kept = s.kept := by simp [State.markBad, apply_ite State.kept]

@[simp ↓] theorem State.cutShort_kept (s : State) (id : Nat) : (State.cutShort s id).kept = s.kept := by
  unfold State.cutShort
  repeat' first
    | with_reducible rfl
    | (simp [apply_ite State.kept, *]; done)
    | split
    | rw [forEach_kept]
    | rw [foldl_kept]
    | intro _ _
    | simp
    | dsimp only

@[simp ↓] theorem State.setUp_kept (s : State) (p : Nat) (v : Bool) : (State.setUp s p v).kept = s.kept := by
  unfold State.setUp
  repeat' first
    | with_reducible rfl
    | (simp [apply_ite State.kept, *]; done)
    | split
    | rw [forEach_kept]
    | rw [foldl_kept]
    | intro _ _
    | simp
    | dsimp only

@[simp ↓] theorem State.setRate_kept (s : State) (p : Nat) : (State.setRate s p).kept = s.kept := by simp [State.setRate, apply_ite State.kept]

@[simp ↓] theorem State.refreshPort_kept (s : State) (p : Nat) : (State.refreshPort s p).kept = s.kept := by simp [State.refreshPort]

@[simp ↓] theorem State.countRx_kept (s : State) (p n : Nat) : (State.countRx s p n).kept = s.kept := by simp [State.countRx]

@[simp ↓] theorem State.oversize_kept (s : State) (id : Nat) : (State.oversize s id).kept = s.kept := by
  unfold State.oversize
  repeat' first
    | with_reducible rfl
    | (simp [apply_ite State.kept, *]; done)
    | split
    | rw [forEach_kept]
    | rw [foldl_kept]
    | intro _ _
    | simp
    | dsimp only

@[simp ↓] theorem State.stagingLimit_kept (s : State) (id : Nat) : (State.stagingLimit s id).kept = s.kept := by
  simp [State.stagingLimit, apply_ite State.kept]

@[simp ↓] theorem State.askBuffer_kept (s : State) (id : Nat) : (State.askBuffer s id).kept = s.kept := by
  simp [State.askBuffer, apply_ite State.kept]

@[simp ↓] theorem State.pause_kept (s : State) (p pri quanta : Nat) : (State.pause s p pri quanta).kept = s.kept := by simp [State.pause]

theorem execPortUp_kept (port : Fin 256) (s : State) : Goes (execPortUp port s) fun t => t.kept = s.kept := by simp [execPortUp]

theorem execPortDown_kept (port : Fin 256) (lf rf : Bool) (s : State) : Goes (execPortDown port lf rf s) fun t => t.kept = s.kept := by
  simp [execPortDown, apply_ite State.kept]

theorem execFrameReceive_kept (port : Fin 256) (b : List Byte) (whole : Bool) (s : State) : Goes (execFrameReceive port b whole s) fun t => t.kept = s.kept := by
  simp [execFrameReceive, apply_ite State.kept]

theorem execFrameEnd_kept (f : Nat) (rest : List Byte) (s : State) : Goes (execFrameEnd f rest s) fun t => t.kept = s.kept := by simp [execFrameEnd]

theorem execFcsResult_kept (f : Nat) (ok : Bool) (s : State) : Goes (execFcsResult f ok s) fun t => t.kept = s.kept := by
  unfold execFcsResult
  repeat' first
    | (simp [apply_ite State.kept, *]; done)
    | split
    | (simp; rw [forEach_kept])
    | (simp; rw [foldl_kept])
    | rw [forEach_kept]
    | rw [foldl_kept]
    | intro _ _
    | simp
    | dsimp only

theorem execPfcRepeat_kept (port : Fin 256) (pri : Fin 8) (s : State) : Goes (execPfcRepeat port pri s) fun t => t.kept = s.kept := by
  simp [execPfcRepeat]

theorem execPfcReceive_kept (port : Fin 256) (vec : BitVec 8) (times : List (BitVec 16)) (s : State) : Goes (execPfcReceive port vec times s) fun t => t.kept = s.kept := by
  unfold execPfcReceive
  repeat' first
    | (simp [apply_ite State.kept, *]; done)
    | split
    | (simp; rw [forEach_kept])
    | (simp; rw [foldl_kept])
    | rw [forEach_kept]
    | rw [foldl_kept]
    | intro _ _
    | simp
    | dsimp only

theorem execPfcPauseExpiry_kept (port : Fin 256) (pri : Fin 8) (s : State) : Goes (execPfcPauseExpiry port pri s) fun t => t.kept = s.kept := by
  simp [execPfcPauseExpiry]

theorem execPauseReceive_kept (port : Fin 256) (s : State) : Goes (execPauseReceive port s) fun t => t.kept = s.kept := by simp [execPauseReceive]

end Sys2Proof.Machine
end

