-- ==== Sys2Proof/Laws/Loom.lean ====
section
/-! SUPPORT. What the operations and commands of Machine/Loom.lean keep. -/

namespace Sys2Proof.Machine

open Reg

set_option linter.unusedSimpArgs false
set_option linter.unusedVariables false

@[simp ↓] theorem State.folEvt_kept (s : State) (g b : Nat) : (State.folEvt s g b).kept = s.kept := by simp [State.folEvt, apply_ite State.kept]

@[simp ↓] theorem State.grpErr_kept (s : State) (g b : Nat) : (State.grpErr s g b).kept = s.kept := by simp [State.grpErr, apply_ite State.kept]

@[simp ↓] theorem State.refreshClients_kept (s : State) (g : Nat) : (State.refreshClients s g).kept = s.kept := by
  unfold State.refreshClients
  repeat' first
    | with_reducible rfl
    | (simp [apply_ite State.kept, *]; done)
    | split
    | rw [forEach_kept]
    | rw [foldl_kept]
    | intro _ _
    | simp
    | dsimp only

@[simp ↓] theorem State.rateClients_kept (s : State) (g : Nat) : (State.rateClients s g).kept = s.kept := by
  unfold State.rateClients
  repeat' first
    | with_reducible rfl
    | (simp [apply_ite State.kept, *]; done)
    | split
    | rw [forEach_kept]
    | rw [foldl_kept]
    | intro _ _
    | simp
    | dsimp only

@[simp ↓] theorem State.refreshGroup_kept (s : State) (g : Nat) : (State.refreshGroup s g).kept = s.kept := by
  simp [State.refreshGroup, apply_ite State.kept]

@[simp ↓] theorem State.noticeDone_kept (s : State) (g : Nat) : (State.noticeDone s g).kept = s.kept := by
  unfold State.noticeDone; dsimp only; (repeat' split) <;> simp [*]

@[simp ↓] theorem State.truncate_kept (s : State) (g : Nat) : (State.truncate s g).kept = s.kept := by
  unfold State.truncate
  repeat' first
    | with_reducible rfl
    | (simp [apply_ite State.kept, *]; done)
    | split
    | rw [forEach_kept]
    | rw [foldl_kept]
    | intro _ _
    | simp
    | dsimp only

@[simp ↓] theorem State.doSwitch_kept (s : State) (g : Nat) (forced late : Bool) : (State.doSwitch s g forced late).kept = s.kept := by
  unfold State.doSwitch; dsimp only; (repeat' split) <;> simp [*]

@[simp ↓] theorem State.rejectNotice_kept (s : State) (g code : Nat) : (State.rejectNotice s g code).kept = s.kept := by
  simp [State.rejectNotice, apply_ite State.kept]

@[simp ↓] theorem State.acceptNotice_kept (s : State) (w cls : Nat) (input : Option Nat) : (State.acceptNotice s w cls input).kept = s.kept := by
  unfold State.acceptNotice; dsimp only; (repeat' split) <;> simp [*]

@[simp ↓] theorem State.hostNotice_kept (s : State) (w : Word) : (State.hostNotice s w).kept = s.kept := by
  simp [State.hostNotice, apply_ite State.kept]

@[simp ↓] theorem State.abandon_kept (s : State) (g : Nat) : (State.abandon s g).kept = s.kept := by simp [State.abandon]

@[simp ↓] theorem State.switchLoom_kept (s : State) (changed : Nat → Bool) : (State.switchLoom s changed).kept = s.kept := by
  unfold State.switchLoom
  repeat' first
    | with_reducible rfl
    | (simp [apply_ite State.kept, *]; done)
    | split
    | rw [forEach_kept]
    | rw [foldl_kept]
    | intro _ _
    | simp
    | dsimp only

@[simp ↓] theorem State.switchPrt_kept (s : State) (old : Nat → Word) : (State.switchPrt s old).kept = s.kept := by
  unfold State.switchPrt
  repeat' first
    | with_reducible rfl
    | (simp [apply_ite State.kept, *]; done)
    | split
    | rw [forEach_kept]
    | rw [foldl_kept]
    | intro _ _
    | simp
    | dsimp only

theorem execWorkingCalendarDerive_kept (g : Fin 64) (s : State) : Goes (execWorkingCalendarDerive g s) fun t => t.kept = s.kept := by
  simp [execWorkingCalendarDerive]

theorem execCalendarBoundary_kept (g : Fin 64) (s : State) : Goes (execCalendarBoundary g s) fun t => t.kept = s.kept := by
  simp [execCalendarBoundary]

theorem execPorterRateSwitch_kept (g : Fin 64) (s : State) : Goes (execPorterRateSwitch g s) fun t => t.kept = s.kept := by
  simp [execPorterRateSwitch]

theorem execCaReceive_kept (g : Fin 64) (s : State) : Goes (execCaReceive g s) fun t => t.kept = s.kept := by simp [execCaReceive]

theorem execFarCBitChange_kept (g : Fin 64) (received : List Nat) (s : State) : Goes (execFarCBitChange g received s) fun t => t.kept = s.kept := by
  simp [execFarCBitChange]

theorem execOverheadMultiframe_kept (g : Fin 64) (received : List Nat) (s : State) : Goes (execOverheadMultiframe g received s) fun t => t.kept = s.kept := by
  simp [execOverheadMultiframe]

theorem execNoticeFrame_kept (n : Fin 8) (len : Nat) (w : Word) (s : State) : Goes (execNoticeFrame n len w s) fun t => t.kept = s.kept := by
  simp [execNoticeFrame]

theorem execNoticeAckFall_kept (n : Fin 9) (s : State) : Goes (execNoticeAckFall n s) fun t => t.kept = s.kept := by
  unfold execNoticeAckFall; dsimp only; (repeat' split) <;> simp [*]

theorem execNoticeAbandon_kept (g : Fin 64) (s : State) : Goes (execNoticeAbandon g s) fun t => t.kept = s.kept := by
  unfold execNoticeAbandon; dsimp only; (repeat' split) <;> simp [*]

theorem execPhyFault_kept (g : Fin 64) (k : Fin 16) (s : State) : Goes (execPhyFault g k s) fun t => t.kept = s.kept := by simp [execPhyFault]

theorem execPhyRestore_kept (g : Fin 64) (k : Fin 16) (s : State) : Goes (execPhyRestore g k s) fun t => t.kept = s.kept := by simp [execPhyRestore]

theorem execRestoreRetry_kept (g : Fin 64) (s : State) : Goes (execRestoreRetry g s) fun t => t.kept = s.kept := by
  unfold execRestoreRetry; dsimp only; (repeat' split) <;> simp [*]

theorem execOverheadLockChange_kept (g : Fin 64) (k : Fin 16) (locked instOk : Bool) (s : State) : Goes (execOverheadLockChange g k locked instOk s) fun t => t.kept = s.kept := by
  simp [execOverheadLockChange, apply_ite State.kept]

end Sys2Proof.Machine
end

