-- ==== Sys2Proof/Laws/Overload.lean ====
section
/-! SUPPORT. What the operations and commands of Machine/Overload.lean keep. -/

namespace Sys2Proof.Machine

open Reg

set_option linter.unusedSimpArgs false
set_option linter.unusedVariables false

@[simp ↓] theorem State.ovlHit_kept (s : State) (n : Nat) : (State.ovlHit s n).kept = s.kept := by simp [State.ovlHit]

@[simp ↓] theorem State.setPunt_kept (s : State) (t n : Nat) : (State.setPunt s t n).kept = s.kept := by simp [State.setPunt]

@[simp ↓] theorem State.puntWrite_kept (s : State) (t : Nat) (w : Word) : (State.puntWrite s t w).kept = s.kept := by simp [State.puntWrite]

@[simp ↓] theorem State.puntCheck_kept (s : State) (tc : Nat) : (State.puntCheck s tc).2.kept = s.kept := by
  unfold State.puntCheck; split <;> simp [*]

theorem execOverloadWindow_kept (s : State) : Goes (execOverloadWindow s) fun t => t.kept = s.kept := by
  unfold execOverloadWindow
  repeat' first
    | (simp [apply_ite State.kept, *]; done)
    | split
    | (simp; rw [forEach_kept])
    | (simp; rw [foldl_kept])
    | rw [forEach_kept]
    | rw [foldl_kept]
    | intro _ _
    | simp
    | dsimp only

theorem execSpillBudgetReset_kept (s : State) : Goes (execSpillBudgetReset s) fun t => t.kept = s.kept := by simp [execSpillBudgetReset]

theorem execBankAccess_kept (bank : Fin 256) (arrivals : Nat) (write : Bool) (s : State) : Goes (execBankAccess bank arrivals write s) fun t => t.kept = s.kept := by
  simp [execBankAccess, apply_ite State.kept]

theorem execPuntRefill_kept (s : State) : Goes (execPuntRefill s) fun t => t.kept = s.kept := by
  unfold execPuntRefill
  repeat' first
    | (simp [apply_ite State.kept, *]; done)
    | split
    | (simp; rw [forEach_kept])
    | (simp; rw [foldl_kept])
    | rw [forEach_kept]
    | rw [foldl_kept]
    | intro _ _
    | simp
    | dsimp only

end Sys2Proof.Machine
end

