-- ==== Sys2Proof/Laws/Order.lean ====
section
/-! SUPPORT. What the operations and commands of Machine/Order.lean keep. -/

namespace Sys2Proof.Machine

open Reg

set_option linter.unusedSimpArgs false
set_option linter.unusedVariables false

@[simp ↓] theorem State.setOut_kept (s : State) (k : Nat) (l : List Ticket) : (State.setOut s k l).kept = s.kept := by simp [State.setOut]

@[simp ↓] theorem State.draw_kept (s : State) (k key id : Nat) : (State.draw s k key id).2.kept = s.kept := by
  simp [State.draw, apply_ite State.kept]

@[simp ↓] theorem State.ticketDone_kept (s : State) (k id : Nat) : (State.ticketDone s k id).kept = s.kept := by simp [State.ticketDone]

@[simp ↓] theorem State.setDisp_kept (s : State) (k : Nat) (l : List Nat) : (State.setDisp s k l).kept = s.kept := by simp [State.setDisp]

@[simp ↓] theorem State.egressHead_kept (s : State) (id p : Nat) : (State.egressHead s id p).kept = s.kept := by simp [State.egressHead]

@[simp ↓] theorem State.sendCtrl_kept (s : State) (dev : Nat) (m : List Byte) : (State.sendCtrl s dev m).kept = s.kept := by simp [State.sendCtrl]

end Sys2Proof.Machine
end

