-- ==== Sys2Proof/Laws/Cells.lean ====
section
/-! SUPPORT. What the operations and commands of Machine/Cells.lean keep. -/

namespace Sys2Proof.Machine

open Reg

set_option linter.unusedSimpArgs false
set_option linter.unusedVariables false

@[simp ↓] theorem State.clyCount_kept (s : State) (f : Fld) (n : Nat) : (State.clyCount s f n).kept = s.kept := by simp [State.clyCount]

@[simp ↓] theorem State.setLnk_kept (s : State) (l : Nat) (x : LinkQ) : (State.setLnk s l x).kept = s.kept := by simp [State.setLnk]

@[simp ↓] theorem State.setLink_kept (s : State) (l st : Nat) : (State.setLink s l st).kept = s.kept := by simp [State.setLink, apply_ite State.kept]

@[simp ↓] theorem State.linkMsg_kept (s : State) (l : Nat) (m : List Byte) : (State.linkMsg s l m).kept = s.kept := by simp [State.linkMsg]

@[simp ↓] theorem State.toUpLinks_kept (s : State) (lt : Nat) : (State.toUpLinks s lt).kept = s.kept := by
  unfold State.toUpLinks
  repeat' first
    | with_reducible rfl
    | (simp [apply_ite State.kept, *]; done)
    | split
    | rw [forEach_kept]
    | rw [foldl_kept]
    | intro _ _
    | simp
    | dsimp only

@[simp ↓] theorem State.stageFlow_kept (s : State) : (State.stageFlow s).kept = s.kept := by simp [State.stageFlow, apply_ite State.kept]

@[simp ↓] theorem State.takeSeq_kept (s : State) (k : Nat) : (State.takeSeq s k).2.kept = s.kept := by simp [State.takeSeq]

@[simp ↓] theorem State.putCell_kept (s : State) (l : Nat) (c : Cell) : (State.putCell s l c).kept = s.kept := by simp [State.putCell]

@[simp ↓] theorem State.spray_kept (s : State) (c : Cell) (pl : Option Nat) : (State.spray s c pl).kept = s.kept := by
  unfold State.spray; split <;> simp [*]

@[simp ↓] theorem State.sendCell_kept (s : State) (c : Cell) (twin : Bool) : (State.sendCell s c twin).kept = s.kept := by
  unfold State.sendCell; (repeat' split) <;> simp [*]

@[simp ↓] theorem State.cutFrame_kept (s : State) (id : Nat) : (State.cutFrame s id).kept = s.kept := by
  unfold State.cutFrame
  dsimp only
  split
  · rfl
  · simp [apply_ite State.kept]
    rw [foldlPair_kept _ _ _ (fun p x => by simp)]

@[simp ↓] theorem State.packCtrl_kept (s : State) (n : Nat) : (s.packCtrl n).kept = s.kept := by
  induction n generalizing s with
  | zero => rfl
  | succ n ih =>
    unfold State.packCtrl
    split
    · rfl
    · simp [ih]

@[simp ↓] theorem State.packAll_kept (s : State) : (State.packAll s).kept = s.kept := by
  unfold State.packAll
  repeat' first
    | with_reducible rfl
    | (simp [apply_ite State.kept, *]; done)
    | split
    | rw [forEach_kept]
    | rw [foldl_kept]
    | intro _ _
    | simp
    | dsimp only

end Sys2Proof.Machine
end

