-- ==== Sys2Proof/Laws/Buffers.lean ====
section
/-! SUPPORT. What the operations and commands of Machine/Buffers.lean keep. -/

namespace Sys2Proof.Machine

open Reg

set_option linter.unusedSimpArgs false
set_option linter.unusedVariables false

@[simp ↓] theorem State.markWaits_kept (s : State) (p : Nat) (l : List BufReq) : (State.markWaits s p l).kept = s.kept := by
  simp [State.markWaits, apply_ite State.kept]

@[simp ↓] theorem State.allocUnit_kept (s : State) (p id : Nat) : (State.allocUnit s p id).kept = s.kept := by simp [State.allocUnit]

@[simp ↓] theorem State.syncUnit_kept (s : State) (id : Nat) : (State.syncUnit s id).kept = s.kept := by
  unfold State.syncUnit; dsimp only; (repeat' split) <;> simp [*]

@[simp ↓] theorem State.setHeadQ_kept (s : State) (sl : Nat) (l : List Nat) : (State.setHeadQ s sl l).kept = s.kept := by simp [State.setHeadQ]

@[simp ↓] theorem State.stamp_kept (s : State) (id : Nat) : (State.stamp s id).kept = s.kept := by simp [State.stamp, apply_ite State.kept]

@[simp ↓] theorem State.enterHeadQ_kept (s : State) (id : Nat) : (State.enterHeadQ s id).kept = s.kept := by
  simp [State.enterHeadQ, apply_ite State.kept]

@[simp ↓] theorem State.setVoqQ_kept (s : State) (v : Nat) (l : List Nat) : (State.setVoqQ s v l).kept = s.kept := by simp [State.setVoqQ]

@[simp ↓] theorem State.reportVoq_kept (s : State) (v : Nat) (on : Bool) : (State.reportVoq s v on).kept = s.kept := by
  unfold State.reportVoq; (repeat' split) <;> simp [*]

@[simp ↓] theorem State.setBalance_kept (s : State) (v : Nat) (b : Int) : (State.setBalance s v b).kept = s.kept := by simp [State.setBalance]

@[simp ↓] theorem State.voqJoin_kept (s : State) (v id : Nat) : (State.voqJoin s v id).kept = s.kept := by simp [State.voqJoin, apply_ite State.kept]

@[simp ↓] theorem State.voqLeave_kept (s : State) (v id : Nat) : (State.voqLeave s v id).kept = s.kept := by
  simp [State.voqLeave, apply_ite State.kept]

@[simp ↓] theorem State.withdraw_kept (s : State) (q : BufReq) (r : Nat) : (State.withdraw s q r).kept = s.kept := by
  unfold State.withdraw
  repeat' first
    | with_reducible rfl
    | (simp [apply_ite State.kept, *]; done)
    | split
    | rw [forEach_kept]
    | rw [foldl_kept]
    | intro _ _
    | simp
    | dsimp only

@[simp ↓] theorem State.portCopies_kept (s : State) (id : Nat) (ecc : Ecc) : (State.portCopies s id ecc).kept = s.kept := by
  unfold State.portCopies
  repeat' first
    | with_reducible rfl
    | (simp [apply_ite State.kept, *]; done)
    | split
    | (rw [foldlPair_kept _ _ _ (fun p x => by simp [apply_ite State.kept, apply_ite Prod.snd] <;> cases p.1 <;> simp)])
    | dsimp only

@[simp ↓] theorem State.granted_kept (s : State) (q : BufReq) (ecc : Ecc) : (State.granted s q ecc).kept = s.kept := by
  simp [State.granted, apply_ite State.kept]

@[simp ↓] theorem State.placeSpill_kept (s : State) (v id : Nat) : (State.placeSpill s v id).kept = s.kept := by simp [State.placeSpill]

@[simp ↓] theorem State.spillOrStay_kept (s : State) (v id : Nat) : (State.spillOrStay s v id).2.kept = s.kept := by
  unfold State.spillOrStay; dsimp only; (repeat' split) <;> simp [*]

@[simp ↓] theorem State.enqueued_kept (s : State) (v id : Nat) : (State.enqueued s v id).kept = s.kept := by
  unfold State.enqueued; dsimp only; (repeat' split) <;> simp [*]

@[simp ↓] theorem State.enterVoq_kept (s : State) (v id : Nat) : (State.enterVoq s v id).kept = s.kept := by
  simp [State.enterVoq, apply_ite State.kept]

@[simp ↓] theorem State.refuse07_kept (s : State) (id : Nat) (inv : Bool) : (State.refuse07 s id inv).kept = s.kept := by
  simp [State.refuse07, apply_ite State.kept]

@[simp ↓] theorem State.refuse11_kept (s : State) (id : Nat) (c : OCopy) (e : Nat) : (State.refuse11 s id c e).kept = s.kept := by
  simp [State.refuse11]

@[simp ↓] theorem State.holdUp_kept (s : State) (f : Frame) (n : Nat) : (State.holdUp s f n).kept = s.kept := by
  simp [State.holdUp, apply_ite State.kept]

@[simp ↓] theorem State.deviceCopy_kept (s : State) (id : Nat) (c : OCopy) (e : Nat) (dev : Nat) : (State.deviceCopy s id c e dev).kept = s.kept := by
  simp [State.deviceCopy, apply_ite State.kept]

@[simp ↓] theorem State.deviceCopies_kept (s : State) (id : Nat) (ecc : Ecc) : (State.deviceCopies s id ecc).kept = s.kept := by
  unfold State.deviceCopies
  repeat' first
    | with_reducible rfl
    | (simp [apply_ite State.kept, *]; done)
    | split
    | (rw [foldlPair_kept _ _ _ (fun p x => by cases h : p.1 <;> simp [h])])
    | dsimp only

@[simp ↓] theorem State.voqDiscard_kept (s : State) (v id r : Nat) : (State.voqDiscard s v id r).kept = s.kept := by
  simp [State.voqDiscard, apply_ite State.kept]

@[simp ↓] theorem State.toPost_kept (s : State) (id : Nat) : (State.toPost s id).kept = s.kept := by simp [State.toPost, apply_ite State.kept]

@[simp ↓] theorem State.breakVoq_kept (s : State) (v n : Nat) : (State.breakVoq s v n).kept = s.kept := by
  unfold State.breakVoq
  repeat' first
    | with_reducible rfl
    | (simp [apply_ite State.kept, *]; done)
    | split
    | rw [forEach_kept]
    | rw [foldl_kept]
    | intro _ _
    | simp
    | dsimp only

@[simp ↓] theorem State.dequeue_kept (s : State) (v id : Nat) (d : Dest) (bufErr : Bool) (ecc : Ecc) : (State.dequeue s v id d bufErr ecc).kept = s.kept := by
  unfold State.dequeue; dsimp only; (repeat' split) <;> simp [*]

@[simp ↓] theorem State.reclaimed_kept (s : State) (addr : Nat) : (State.reclaimed s addr).kept = s.kept := by simp [State.reclaimed]

@[simp ↓] theorem State.reclaimUnit_kept (s : State) (h : Nat) (u : BufUnit) : (State.reclaimUnit s h u).kept = s.kept := by
  unfold State.reclaimUnit
  repeat' first
    | with_reducible rfl
    | (simp [apply_ite State.kept, *]; done)
    | split
    | rw [forEach_kept]
    | rw [foldl_kept]
    | intro _ _
    | simp
    | dsimp only

@[simp ↓] theorem State.reclaimBlk_kept (s : State) (i : Nat) (b : SpillBlk) : (State.reclaimBlk s i b).kept = s.kept := by
  unfold State.reclaimBlk
  repeat' first
    | with_reducible rfl
    | (simp [apply_ite State.kept, *]; done)
    | split
    | rw [forEach_kept]
    | rw [foldl_kept]
    | intro _ _
    | simp
    | dsimp only

@[simp ↓] theorem State.badBitmap_kept (s : State) (p w : Nat) : (State.badBitmap s p w).kept = s.kept := by
  unfold State.badBitmap
  repeat' first
    | with_reducible rfl
    | (simp [apply_ite State.kept, *]; done)
    | split
    | rw [forEach_kept]
    | rw [foldl_kept]
    | intro _ _
    | simp
    | dsimp only

@[simp ↓] theorem State.mapResult_kept (s : State) (r : Nat) : (State.mapResult s r).kept = s.kept := by simp [State.mapResult, apply_ite State.kept]

@[simp ↓] theorem State.writeDescr_kept (s : State) (d : Nat) (w : Word) : (State.writeDescr s d w).kept = s.kept := by
  simp [State.writeDescr, apply_ite State.kept]

@[simp ↓] theorem State.writeMc_kept (s : State) (dev : Nat) (w : Word) : (State.writeMc s dev w).kept = s.kept := by
  simp [State.writeMc, apply_ite State.kept]

@[simp ↓] theorem State.mapWrite_kept (s : State) : (State.mapWrite s).kept = s.kept := by simp [State.mapWrite, apply_ite State.kept]

@[simp ↓] theorem State.mapRead_kept (s : State) : (State.mapRead s).kept = s.kept := by simp [State.mapRead, apply_ite State.kept]

theorem execBufferGrant_kept (pool : Fin 8) (ecc : Ecc) (s : State) : Goes (execBufferGrant pool ecc s) fun t => t.kept = s.kept := by
  unfold execBufferGrant; dsimp only; (repeat' split) <;> simp [*]

theorem execBufInitDone_kept (s : State) : Goes (execBufInitDone s) fun t => t.kept = s.kept := by
  unfold execBufInitDone
  repeat' first
    | (simp [apply_ite State.kept, *]; done)
    | split
    | (simp; rw [forEach_kept])
    | (simp; rw [foldl_kept])
    | rw [forEach_kept]
    | rw [foldl_kept]
    | intro _ _
    | simp
    | dsimp only

theorem execSpillWrite_kept (f : Nat) (s : State) : Goes (execSpillWrite f s) fun t => t.kept = s.kept := by
  unfold execSpillWrite; dsimp only; (repeat' split) <;> simp [*]

theorem execDrainRateUpdate_kept (s : State) : Goes (execDrainRateUpdate s) fun t => t.kept = s.kept := by simp [execDrainRateUpdate]

theorem execSpillReturn_kept (v : Fin 131072) (s : State) : Goes (execSpillReturn v s) fun t => t.kept = s.kept := by
  unfold execSpillReturn; dsimp only; (repeat' split) <;> simp [*]

theorem execVoqEnqueue_kept (ecc : Ecc) (s : State) : Goes (execVoqEnqueue ecc s) fun t => t.kept = s.kept := by
  unfold execVoqEnqueue; dsimp only; (repeat' split) <;> simp [*]

theorem execVoqDequeue_kept (v : Fin 131072) (link : LinkErr) (bufErr : Bool) (ecc : Ecc) (s : State) : Goes (execVoqDequeue v link bufErr ecc s) fun t => t.kept = s.kept := by
  unfold execVoqDequeue; dsimp only; (repeat' split) <;> simp [*]

theorem execAgeingVisit_kept (v : Fin 131072) (s : State) : Goes (execAgeingVisit v s) fun t => t.kept = s.kept := by
  unfold execAgeingVisit
  repeat' first
    | (simp [apply_ite State.kept, *]; done)
    | split
    | (simp; rw [forEach_kept])
    | (simp; rw [foldl_kept])
    | rw [forEach_kept]
    | rw [foldl_kept]
    | intro _ _
    | simp
    | dsimp only

theorem execAuditEpochTick_kept (s : State) : Goes (execAuditEpochTick s) fun t => t.kept = s.kept := by simp [execAuditEpochTick]

theorem execTallyVisit_kept (bitmap : Option (Nat × Nat)) (s : State) : Goes (execTallyVisit bitmap s) fun t => t.kept = s.kept := by
  unfold execTallyVisit; dsimp only; (repeat' split) <;> simp [*]

end Sys2Proof.Machine
end

