-- ==== Sys2Proof/Laws/Porter.lean ====
section
/-! SUPPORT. What the operations and commands of Machine/Porter.lean keep. -/

namespace Sys2Proof.Machine

open Reg

set_option linter.unusedSimpArgs false
set_option linter.unusedVariables false

@[simp ↓] theorem State.refreshXoff_kept (s : State) (p : Nat) : (State.refreshXoff s p).kept = s.kept := by
  simp [State.refreshXoff, apply_ite State.kept]

@[simp ↓] theorem State.modSmp_kept (s : State) (e : Nat) (g : Smp → Smp) : (State.modSmp s e g).kept = s.kept := by
  simp [State.modSmp, apply_ite State.kept]

@[simp ↓] theorem State.enterEq_kept (s : State) (id : Nat) : (State.enterEq s id).kept = s.kept := by
  unfold State.enterEq; dsimp only; (repeat' split) <;> simp [*]

@[simp ↓] theorem State.setTokens_kept (s : State) (k : Nat) (n : Int) : (State.setTokens s k n).kept = s.kept := by simp [State.setTokens]

@[simp ↓] theorem State.spend_kept (s : State) (k lw : Nat) : (State.spend s k lw).kept = s.kept := by simp [State.spend, apply_ite State.kept]

@[simp ↓] theorem State.shaperReset_kept (s : State) (k : Nat) : (State.shaperReset s k).kept = s.kept := by simp [State.shaperReset]

@[simp ↓] theorem State.retag_kept (s : State) (p : Nat) : (State.retag s p).kept = s.kept := by
  unfold State.retag
  repeat' first
    | with_reducible rfl
    | (simp [apply_ite State.kept, *]; done)
    | split
    | rw [forEach_kept]
    | rw [foldl_kept]
    | intro _ _
    | simp
    | dsimp only

@[simp ↓] theorem State.noteElig_kept (s : State) (p : Nat) (c : Option Nat) : (State.noteElig s p c).kept = s.kept := by simp [State.noteElig]

@[simp ↓] theorem State.purgeBad_kept (s : State) (p : Nat) : (State.purgeBad s p).kept = s.kept := by
  unfold State.purgeBad
  repeat' first
    | with_reducible rfl
    | (simp [apply_ite State.kept, *]; done)
    | split
    | rw [forEach_kept]
    | rw [foldl_kept]
    | intro _ _
    | simp
    | dsimp only

@[simp ↓] theorem State.tsDrain_kept (s : State) : (State.tsDrain s).kept = s.kept := by
  unfold State.tsDrain
  repeat' first
    | with_reducible rfl
    | (simp [apply_ite State.kept, *]; done)
    | split
    | rw [forEach_kept]
    | rw [foldl_kept]
    | intro _ _
    | simp
    | dsimp only

@[simp ↓] theorem State.twoStep_kept (s : State) (p tag t16 : Nat) : (State.twoStep s p tag t16).kept = s.kept := by
  simp [State.twoStep, apply_ite State.kept]

@[simp ↓] theorem State.setSending_kept (s : State) (p : Nat) (x : Option Nat) : (State.setSending s p x).kept = s.kept := by simp [State.setSending]

@[simp ↓] theorem State.start_kept (s : State) (p q id : Nat) : (State.start s p q id).kept = s.kept := by
  unfold State.start; dsimp only; (repeat' split) <;> simp [*]

@[simp ↓] theorem State.select_kept (s : State) (p : Nat) : (State.select s p).kept = s.kept := by
  unfold State.select; dsimp only; (repeat' split) <;> simp [*]

@[simp ↓] theorem State.selectRecirc_kept (s : State) : (State.selectRecirc s).kept = s.kept := by
  unfold State.selectRecirc; dsimp only; (repeat' split) <;> simp [*]

@[simp ↓] theorem State.breakEq_kept (s : State) (e n : Nat) : (State.breakEq s e n).kept = s.kept := by
  unfold State.breakEq
  repeat' first
    | with_reducible rfl
    | (simp [apply_ite State.kept, *]; done)
    | split
    | rw [forEach_kept]
    | rw [foldl_kept]
    | intro _ _
    | simp
    | dsimp only

@[simp ↓] theorem State.loseSch_kept (s : State) (p : Nat) : (State.loseSch s p).kept = s.kept := by
  unfold State.loseSch
  repeat' first
    | with_reducible rfl
    | (simp [apply_ite State.kept, *]; done)
    | split
    | rw [forEach_kept]
    | rw [foldl_kept]
    | intro _ _
    | simp
    | dsimp only

@[simp ↓] theorem State.recirculate_kept (s : State) (id : Nat) : (State.recirculate s id).kept = s.kept := by simp [State.recirculate]

@[simp ↓] theorem State.setFlow_kept (s : State) (k : Nat) (on : Bool) : (State.setFlow s k on).kept = s.kept := by simp [State.setFlow]

@[simp ↓] theorem State.creditClass_kept (s : State) (p : Nat) (req : List Nat) : (State.creditClass s p req).2.kept = s.kept := by
  unfold State.creditClass; dsimp only; (repeat' split) <;> simp [*]

@[simp ↓] theorem State.issueCredit_kept (s : State) (p : Nat) : (State.issueCredit s p).kept = s.kept := by
  unfold State.issueCredit
  dsimp only
  split
  · rfl
  · split
    · simp
    · split
      · split <;> simp
      · simp

@[simp ↓] theorem State.issueCredits_kept (s : State) (p n : Nat) : (s.issueCredits p n).kept = s.kept := by
  induction n generalizing s with
  | zero => rfl
  | succ n ih =>
    unfold State.issueCredits
    simp [ih, apply_ite State.kept]

@[simp ↓] theorem State.creditRefill_kept (s : State) (p : Nat) : (State.creditRefill s p).kept = s.kept := by
  simp [State.creditRefill, apply_ite State.kept]

@[simp ↓] theorem State.creditArrives_kept (s : State) (v n : Nat) : (State.creditArrives s v n).kept = s.kept := by
  simp [State.creditArrives, apply_ite State.kept]

@[simp ↓] theorem State.setPolicer_kept (s : State) (k : Nat) (x : Policer) : (State.setPolicer s k x).kept = s.kept := by simp [State.setPolicer]

@[simp ↓] theorem State.policerWrite_kept (s : State) : (State.policerWrite s).kept = s.kept := by
  unfold State.policerWrite
  repeat' first
    | with_reducible rfl
    | (simp [apply_ite State.kept, *]; done)
    | split
    | rw [forEach_kept]
    | rw [foldl_kept]
    | intro _ _
    | simp
    | dsimp only

@[simp ↓] theorem State.policerRead_kept (s : State) : (State.policerRead s).kept = s.kept := by simp [State.policerRead]

@[simp ↓] theorem State.gateWrite_kept (s : State) : (State.gateWrite s).kept = s.kept := by simp [State.gateWrite, apply_ite State.kept]

@[simp ↓] theorem State.gateRead_kept (s : State) : (State.gateRead s).kept = s.kept := by simp [State.gateRead]

@[simp ↓] theorem State.sampleSelect_kept (s : State) (q : Nat) : (State.sampleSelect s q).kept = s.kept := by simp [State.sampleSelect]

theorem execShaperRefill_kept (s : State) : Goes (execShaperRefill s) fun t => t.kept = s.kept := by
  unfold execShaperRefill
  repeat' first
    | (simp [apply_ite State.kept, *]; done)
    | split
    | (simp; rw [forEach_kept])
    | (simp; rw [foldl_kept])
    | rw [forEach_kept]
    | rw [foldl_kept]
    | intro _ _
    | simp
    | dsimp only

theorem execSelectionInstant_kept (port : Fin 258) (q : Fin 16) (link : LinkErr) (stateErr : Bool) (s : State) : Goes (execSelectionInstant port q link stateErr s) fun t => t.kept = s.kept := by
  unfold execSelectionInstant; dsimp only; (repeat' split) <;> simp [*]

theorem execTransmitEnd_kept (port : Fin 258) (bufErr : Bool) (s : State) : Goes (execTransmitEnd port bufErr s) fun t => t.kept = s.kept := by
  unfold execTransmitEnd; dsimp only; (repeat' split) <;> simp [*]

theorem execVoqReport_kept (s : State) : Goes (execVoqReport s) fun t => t.kept = s.kept := by unfold execVoqReport; split <;> simp [*]

theorem execRequestBitTimeout_kept (dev : Fin 2048) (port : Fin 512) (cls : Fin 8) (s : State) : Goes (execRequestBitTimeout dev port cls s) fun t => t.kept = s.kept := by
  unfold execRequestBitTimeout; dsimp only; (repeat' split) <;> simp [*]

theorem execCreditRefill_kept (s : State) : Goes (execCreditRefill s) fun t => t.kept = s.kept := by
  unfold execCreditRefill
  repeat' first
    | (simp [apply_ite State.kept, *]; done)
    | split
    | (simp; rw [forEach_kept])
    | (simp; rw [foldl_kept])
    | rw [forEach_kept]
    | rw [foldl_kept]
    | intro _ _
    | simp
    | dsimp only

theorem execCreditArrive_kept (s : State) : Goes (execCreditArrive s) fun t => t.kept = s.kept := by unfold execCreditArrive; split <;> simp [*]

theorem execPoliceLookup_kept (k : Nat) (err : PolErr) (s : State) : Goes (execPoliceLookup k err s) fun t => t.kept = s.kept := by
  unfold execPoliceLookup; (repeat' split) <;> simp [*, apply_ite State.kept]

theorem execGateListSwitch_kept (port : Fin 256) (s : State) : Goes (execGateListSwitch port s) fun t => t.kept = s.kept := by
  unfold execGateListSwitch; dsimp only; (repeat' split) <;> simp [*]

theorem execGateWindowEdge_kept (port : Fin 256) (s : State) : Goes (execGateWindowEdge port s) fun t => t.kept = s.kept := by
  simp [execGateWindowEdge]

theorem execSamplePeriodEnd_kept (s : State) : Goes (execSamplePeriodEnd s) fun t => t.kept = s.kept := by simp [execSamplePeriodEnd]

end Sys2Proof.Machine
end

