-- ==== Sys2Proof/Laws/Parser.lean ====
section
/-! SUPPORT. What the operations and commands of Machine/Parser.lean keep. -/

namespace Sys2Proof.Machine

open Reg

set_option linter.unusedSimpArgs false
set_option linter.unusedVariables false

@[simp ↓] theorem State.setEngines_kept (s : State) (sl : Nat) (l : List Nat) : (State.setEngines s sl l).kept = s.kept := by simp [State.setEngines]

@[simp ↓] theorem State.setParse_kept (s : State) (id : Nat) (p : Option Parse) : (State.setParse s id p).kept = s.kept := by simp [State.setParse]

@[simp ↓] theorem State.countEvent_kept (s : State) (sl : Nat) (e : PEvent) : (State.countEvent s sl e).kept = s.kept := by simp [State.countEvent]

@[simp ↓] theorem State.countEvents_kept (s : State) (sl : Nat) (pad : Bool) (l : List PEvent) : (State.countEvents s sl pad l).kept = s.kept := by
  unfold State.countEvents
  repeat' first
    | with_reducible rfl
    | (simp [apply_ite State.kept, *]; done)
    | split
    | rw [forEach_kept]
    | rw [foldl_kept]
    | intro _ _
    | simp
    | dsimp only

@[simp ↓] theorem State.runParse_kept (s : State) (id : Nat) (p : Parse) (bad : Bool) : (State.runParse s id p bad).kept = s.kept := by
  unfold State.runParse; dsimp only; (repeat' split) <;> simp [*]

@[simp ↓] theorem State.parseErr_kept (s : State) (sl : Nat) (err : PErr) : (State.parseErr s sl err).2.kept = s.kept := by
  unfold State.parseErr; split <;> simp [*]

@[simp ↓] theorem State.gmemFlag_kept (s : State) (sl b : Nat) : (State.gmemFlag s sl b).kept = s.kept := by simp [State.gmemFlag]

@[simp ↓] theorem State.stageGmem_kept (s : State) (i : Nat) (sls : List Nat) (m idx : Nat) (v : BitVec 288) : (State.stageGmem s i sls m idx v).kept = s.kept := by
  simp [State.stageGmem, apply_ite State.kept]

@[simp ↓] theorem State.gmemWrite_kept (s : State) (i sl : Nat) : (State.gmemWrite s i sl).kept = s.kept := by
  simp [State.gmemWrite, apply_ite State.kept]

@[simp ↓] theorem State.gmemRead_kept (s : State) (i sl : Nat) : (State.gmemRead s i sl).kept = s.kept := by
  unfold State.gmemRead
  repeat' first
    | with_reducible rfl
    | (simp [apply_ite State.kept, *]; done)
    | split
    | rw [forEach_kept]
    | rw [foldl_kept]
    | intro _ _
    | simp
    | dsimp only

theorem execParseFrame_kept (slice : Fin 16) (err : PErr) (s : State) : Goes (execParseFrame slice err s) fun t => t.kept = s.kept := by
  unfold execParseFrame; dsimp only; (repeat' split) <;> simp [*]

theorem execParseResume_kept (f : Nat) (err : PErr) (s : State) : Goes (execParseResume f err s) fun t => t.kept = s.kept := by
  unfold execParseResume; split <;> simp [*]

theorem execParseResultRelease_kept (slice : Fin 16) (s : State) : Goes (execParseResultRelease slice s) fun t => t.kept = s.kept := by
  unfold execParseResultRelease; dsimp only; (repeat' split) <;> simp [*]

end Sys2Proof.Machine
end

