-- ==== Sys2Proof/Laws/Hbm.lean ====
section
/-! SUPPORT. What the operations and commands of Machine/Hbm.lean keep. -/

namespace Sys2Proof.Machine

open Reg

set_option linter.unusedSimpArgs false
set_option linter.unusedVariables false

@[simp ↓] theorem State.setHpc_kept (s : State) (h p : Nat) (x : HbmPc) : (State.setHpc s h p x).kept = s.kept := by simp [State.setHpc]

@[simp ↓] theorem State.setHbank_kept (s : State) (h p b : Nat) (x : HbmBank) : (State.setHbank s h p b x).kept = s.kept := by simp [State.setHbank]

@[simp ↓] theorem State.setHq_kept (s : State) (h : Nat) (q : List HReq) : (State.setHq s h q).kept = s.kept := by simp [State.setHq]

@[simp ↓] theorem State.setHState_kept (s : State) (h st : Nat) : (State.setHState s h st).kept = s.kept := by simp [State.setHState]

@[simp ↓] theorem State.hCount64_kept (s : State) (h lo hi : Nat) : (State.hCount64 s h lo hi).kept = s.kept := by
  simp [State.hCount64, apply_ite State.kept]

@[simp ↓] theorem State.withFailed_kept (s : State) (f : State → State) (hf : ∀ s, (f s).kept = s.kept) : (State.withFailed s f).kept = s.kept := by
  unfold State.withFailed; (repeat' split) <;> simp [*]

@[simp ↓] theorem State.markPc_kept (s : State) (h p : Nat) : (State.markPc s h p).kept = s.kept := by simp [State.markPc, apply_ite State.kept]

@[simp ↓] theorem State.markPcs_kept (s : State) (h : Nat) (m : BitVec 64) : (State.markPcs s h m).kept = s.kept := by
  unfold State.markPcs
  repeat' first
    | with_reducible rfl
    | (simp [apply_ite State.kept, *]; done)
    | split
    | rw [forEach_kept]
    | rw [foldl_kept]
    | intro _ _
    | simp
    | dsimp only

@[simp ↓] theorem State.hCor_kept (s : State) (h : Nat) : (State.hCor s h).kept = s.kept := by simp [State.hCor]

@[simp ↓] theorem State.hUncor_kept (s : State) (h a : Nat) : (State.hUncor s h a).kept = s.kept := by simp [State.hUncor, apply_ite State.kept]

@[simp ↓] theorem State.hRead_kept (s : State) (h a : Nat) (ext : Bool) (ecc : Ecc) : (State.hRead s h a ext ecc).kept = s.kept := by
  simp [State.hRead, apply_ite State.kept]

@[simp ↓] theorem State.srefLeave_kept (s : State) (h : Nat) : (State.srefLeave s h).kept = s.kept := by simp [State.srefLeave, apply_ite State.kept]

@[simp ↓] theorem State.srefLeaveAll_kept (s : State) : (State.srefLeaveAll s).kept = s.kept := by
  unfold State.srefLeaveAll
  repeat' first
    | with_reducible rfl
    | (simp [apply_ite State.kept, *]; done)
    | split
    | rw [forEach_kept]
    | rw [foldl_kept]
    | intro _ _
    | simp
    | dsimp only

@[simp ↓] theorem State.hRefuse_kept (s : State) (h : Nat) : (State.hRefuse s h).kept = s.kept := by simp [State.hRefuse]

@[simp ↓] theorem State.srefExit_kept (s : State) (h : Nat) : (State.srefExit s h).kept = s.kept := by simp [State.srefExit, apply_ite State.kept]

@[simp] theorem State.hbmStore_outside (s : State) (a : Nat) (b : List Byte) : (State.hbmStore s a b).kept.1 = s.kept.1 := by
  unfold State.kept State.outside; exact Eq.refl _

@[simp] theorem State.hbmStore_wf (s : State) (a : Nat) (b : List Byte) (hw : Memory.wf s.kept.2 = true) : Memory.wf (State.hbmStore s a b).kept.2 = true := by
  exact Memory.wf_setMany _ _ _ hw

@[simp] theorem State.hbmErase_outside (s : State) (h : Nat) : (State.hbmErase s h).kept.1 = s.kept.1 := by
  unfold State.kept State.outside; exact Eq.refl _

@[simp] theorem State.hbmErase_wf (s : State) (h : Nat) (hw : Memory.wf s.kept.2 = true) : Memory.wf (State.hbmErase s h).kept.2 = true := by
  exact Memory.wf_filter _ _ hw

@[simp] theorem State.hServe_outside (s : State) (h : Nat) (r : HReq) (rest : List HReq) : (State.hServe s h r rest).kept.1 = s.kept.1 := by
  unfold State.hServe
  extract_lets p b row t queued u v x w
  have h1 : t.kept = s.kept := by simp only [t]; split <;> simp
  have h2 : w.kept = s.kept := by
    simp only [w, x, v, u]
    simp [apply_ite State.kept, h1]
  clear_value w
  split
  · simp [h2]
  · split <;> simp [h2]

@[simp] theorem State.hServe_wf (s : State) (h : Nat) (r : HReq) (rest : List HReq) (hw : Memory.wf s.kept.2 = true) : Memory.wf (State.hServe s h r rest).kept.2 = true := by
  unfold State.hServe
  extract_lets p b row t queued u v x w
  have h1 : t.kept = s.kept := by simp only [t]; split <;> simp
  have h2 : w.kept = s.kept := by
    simp only [w, x, v, u]
    simp [apply_ite State.kept, h1]
  clear_value w
  split
  · simp [h2, hw]
  · split <;> simp [h2, hw]

@[simp] theorem State.srefGo_outside (s : State) (h : Nat) : (State.srefGo s h).kept.1 = s.kept.1 := by
  unfold State.srefGo
  repeat' first
    | (simp [apply_ite State.kept, apply_ite Prod.fst, *]; done)
    | split
    | (rw [forEach_outside])
    | intro _ _
    | simp
    | dsimp only

@[simp] theorem State.srefGo_wf (s : State) (h : Nat) (hw : Memory.wf s.kept.2 = true) : Memory.wf (State.srefGo s h).kept.2 = true := by
  unfold State.srefGo
  repeat' first
    | (simp [apply_ite State.kept, *]; done)
    | split
    | (apply forEach_wf)
    | intro _ _ _
    | simp
    | dsimp only

@[simp] theorem State.srefAll_outside (s : State) : (State.srefAll s).kept.1 = s.kept.1 := by
  unfold State.srefAll
  repeat' first
    | (simp [apply_ite State.kept, apply_ite Prod.fst, *]; done)
    | split
    | (rw [forEach_outside])
    | intro _ _
    | simp
    | dsimp only

@[simp] theorem State.srefAll_wf (s : State) (hw : Memory.wf s.kept.2 = true) : Memory.wf (State.srefAll s).kept.2 = true := by
  unfold State.srefAll
  repeat' first
    | (simp [apply_ite State.kept, *]; done)
    | split
    | (apply forEach_wf)
    | intro _ _ _
    | simp
    | dsimp only

@[simp] theorem State.srefEnter_outside (s : State) (h : Nat) : (State.srefEnter s h).kept.1 = s.kept.1 := by
  simp [State.srefEnter, apply_ite State.kept, apply_ite Prod.fst]

@[simp] theorem State.srefEnter_wf (s : State) (h : Nat) (hw : Memory.wf s.kept.2 = true) : Memory.wf (State.srefEnter s h).kept.2 = true := by
  unfold State.srefEnter; split <;> simp [*]

@[simp] theorem State.hbcTrain_outside (s : State) (h : Nat) : (State.hbcTrain s h).kept.1 = s.kept.1 := by
  simp [State.hbcTrain, apply_ite State.kept, apply_ite Prod.fst]

@[simp] theorem State.hbcTrain_wf (s : State) (h : Nat) (hw : Memory.wf s.kept.2 = true) : Memory.wf (State.hbcTrain s h).kept.2 = true := by
  unfold State.hbcTrain; dsimp only; (repeat' split) <;> simp [*]

@[simp] theorem State.hbcTest_outside (s : State) (h : Nat) : (State.hbcTest s h).kept.1 = s.kept.1 := by
  simp [State.hbcTest, apply_ite State.kept, apply_ite Prod.fst]

@[simp] theorem State.hbcTest_wf (s : State) (h : Nat) (hw : Memory.wf s.kept.2 = true) : Memory.wf (State.hbcTest s h).kept.2 = true := by
  unfold State.hbcTest; split <;> simp [*]

@[simp] theorem State.hbcReset_outside (s : State) (h st : Nat) : (State.hbcReset s h st).kept.1 = s.kept.1 := by
  simp [State.hbcReset, apply_ite State.kept, apply_ite Prod.fst]

@[simp] theorem State.hbcReset_wf (s : State) (h st : Nat) (hw : Memory.wf s.kept.2 = true) : Memory.wf (State.hbcReset s h st).kept.2 = true := by
  unfold State.hbcReset; (repeat' split) <;> simp [*]

theorem execHbmArbWindow_kept (s : State) : Goes (execHbmArbWindow s) fun t => t.kept = s.kept := by simp [execHbmArbWindow]

theorem execPageIdleClose_kept (h : Fin 6) (pc : Fin 64) (bank : Fin 48) (s : State) : Goes (execPageIdleClose h pc bank s) fun t => t.kept = s.kept := by
  simp [execPageIdleClose]

theorem execRefreshTick_kept (h : Fin 6) (pc : Fin 64) (s : State) : Goes (execRefreshTick h pc s) fun t => t.kept = s.kept := by
  simp [execRefreshTick]

theorem execMakeupRefresh_kept (h : Fin 6) (pc : Fin 64) (s : State) : Goes (execMakeupRefresh h pc s) fun t => t.kept = s.kept := by
  simp [execMakeupRefresh]

theorem execPowerDownEntry_kept (h : Fin 6) (pc : Fin 64) (s : State) : Goes (execPowerDownEntry h pc s) fun t => t.kept = s.kept := by
  simp [execPowerDownEntry]

theorem execEyeRecentre_kept (h : Fin 6) (s : State) : Goes (execEyeRecentre h s) fun t => t.kept = s.kept := by
  unfold execEyeRecentre
  repeat' first
    | (simp [apply_ite State.kept, *]; done)
    | split
    | (simp; rw [forEach_kept])
    | (simp; rw [foldl_kept])
    | rw [forEach_kept]
    | rw [foldl_kept]
    | intro _ _
    | simp
    | dsimp only

theorem execHbmTempRead_kept (h : Fin 6) (t : BitVec 8) (s : State) : Goes (execHbmTempRead h t s) fun t => t.kept = s.kept := by
  simp [execHbmTempRead]

theorem execTrainDone_kept (h : Fin 6) (lanes : BitVec 8) (failed : BitVec 64) (s : State) : Goes (execTrainDone h lanes failed s) fun t => t.kept = s.kept := by
  simp [execTrainDone]

theorem execTestDone_kept (h : Fin 6) (failed : BitVec 64) (s : State) : Goes (execTestDone h failed s) fun t => t.kept = s.kept := by
  simp [execTestDone]

theorem execRetrainDone_kept (h : Fin 6) (ok : Bool) (s : State) : Goes (execRetrainDone h ok s) fun t => t.kept = s.kept := by
  simp [execRetrainDone]

theorem execRecoverDone_kept (h : Fin 6) (s : State) : Goes (execRecoverDone h s) fun t => t.kept = s.kept := by simp [execRecoverDone]

theorem execHbmAccess_outside (h : Fin 6) (arrivals : List HReq) (s : State) : Goes (execHbmAccess h arrivals s) fun t => t.kept.1 = s.kept.1 := by
  unfold execHbmAccess; dsimp only; (repeat' split) <;> simp [*]

theorem execHbmAccess_wf (h : Fin 6) (arrivals : List HReq) (s : State) (hw : Memory.wf s.kept.2 = true) : Goes (execHbmAccess h arrivals s) fun t => Memory.wf t.kept.2 = true := by
  unfold execHbmAccess; dsimp only; (repeat' split) <;> simp [*]

theorem execInitDone_outside (h : Fin 6) (s : State) : Goes (execInitDone h s) fun t => t.kept.1 = s.kept.1 := by
  simp [execInitDone, apply_ite State.kept, apply_ite Prod.fst]

theorem execInitDone_wf (h : Fin 6) (s : State) (hw : Memory.wf s.kept.2 = true) : Goes (execInitDone h s) fun t => Memory.wf t.kept.2 = true := by
  unfold execInitDone; dsimp only; (repeat' split) <;> simp [*]

theorem execHbmScrub_outside (h : Fin 6) (ecc : Ecc) (s : State) : Goes (execHbmScrub h ecc s) fun t => t.kept.1 = s.kept.1 := by simp [execHbmScrub]

theorem execHbmScrub_wf (h : Fin 6) (ecc : Ecc) (s : State) (hw : Memory.wf s.kept.2 = true) : Goes (execHbmScrub h ecc s) fun t => Memory.wf t.kept.2 = true := by
  simp [execHbmScrub, hw]

end Sys2Proof.Machine
end

