-- ==== Sys2Proof/Laws/Cascade.lean ====
section
/-! SUPPORT. What the operations and commands of Machine/Cascade.lean keep. -/

namespace Sys2Proof.Machine

open Reg

set_option linter.unusedSimpArgs false
set_option linter.unusedVariables false

@[simp ↓] theorem State.reject_kept (s : State) : (State.reject s).kept = s.kept := by simp [State.reject]

@[simp ↓] theorem State.linksDown_kept (s : State) : (State.linksDown s).kept = s.kept := by
  unfold State.linksDown
  repeat' first
    | with_reducible rfl
    | (simp [apply_ite State.kept, *]; done)
    | split
    | rw [forEach_kept]
    | rw [foldl_kept]
    | intro _ _
    | simp
    | dsimp only

@[simp ↓] theorem State.stampMsg_kept (s : State) (l lt : Nat) : (State.stampMsg s l lt).kept = s.kept := by simp [State.stampMsg]

@[simp ↓] theorem State.emitCell_kept (s : State) (l : Nat) (c : Cell) : (State.emitCell s l c).kept = s.kept := by simp [State.emitCell]

@[simp ↓] theorem State.setCtxOf_kept (s : State) (k : Nat) (x : Reord) : (State.setCtxOf s k x).kept = s.kept := by simp [State.setCtxOf]

@[simp ↓] theorem State.loseFrame_kept (s : State) (k : Nat) (b : Build) : (State.loseFrame s k b).kept = s.kept := by simp [State.loseFrame]

@[simp ↓] theorem State.frameArrived_kept (s : State) (b : Build) : (State.frameArrived s b).kept = s.kept := by simp [State.frameArrived]

@[simp ↓] theorem State.ckptStore_kept (s : State) : (State.ckptStore s).kept = s.kept := by simp [State.ckptStore, apply_ite State.kept]

@[simp ↓] theorem State.ckptPart_kept (s : State) (c : Cell) : (State.ckptPart s c).kept = s.kept := by simp [State.ckptPart, apply_ite State.kept]

@[simp ↓] theorem State.deliver_kept (s : State) (k : Nat) (c : Cell) : (State.deliver s k c).kept = s.kept := by
  unfold State.deliver; dsimp only; (repeat' split) <;> simp [*]

@[simp ↓] theorem State.skipSeq_kept (s : State) (k n : Nat) : (State.skipSeq s k n).kept = s.kept := by
  unfold State.skipSeq; dsimp only; (repeat' split) <;> simp [*]

@[simp ↓] theorem State.release_kept (s : State) (k n : Nat) : (s.release k n).kept = s.kept := by
  induction n generalizing s with
  | zero => rfl
  | succ n ih =>
    unfold State.release
    repeat' first
      | with_reducible rfl
      | (simp [ih]; done)
      | split
      | dsimp only

@[simp ↓] theorem State.advanceN_kept (s : State) (k upto n : Nat) : (s.advanceN k upto n).kept = s.kept := by
  induction n generalizing s with
  | zero => rfl
  | succ n ih =>
    unfold State.advanceN
    dsimp only
    split
    · simp
    · simp [ih, apply_ite State.kept]

@[simp ↓] theorem State.ctxTimer_kept (s : State) (k : Nat) (restart : Bool) : (State.ctxTimer s k restart).kept = s.kept := by simp [State.ctxTimer]

@[simp ↓] theorem State.ctxTrim_kept (s : State) (k : Nat) : (State.ctxTrim s k).kept = s.kept := by
  unfold State.ctxTrim; dsimp only; (repeat' split) <;> simp [*]

@[simp ↓] theorem State.dupCell_kept (s : State) (c : Cell) : (State.dupCell s c).kept = s.kept := by simp [State.dupCell, apply_ite State.kept]

@[simp ↓] theorem State.holdCell_kept (s : State) (k : Nat) (c : Cell) : (State.holdCell s k c).kept = s.kept := by
  simp [State.holdCell, apply_ite State.kept]

@[simp ↓] theorem State.afterHold_kept (s : State) (k : Nat) : (State.afterHold s k).kept = s.kept := by simp [State.afterHold]

@[simp ↓] theorem State.takeCell_kept (s : State) (k : Nat) (c : Cell) : (State.takeCell s k c).kept = s.kept := by
  unfold State.takeCell; dsimp only; (repeat' split) <;> simp [*]

@[simp ↓] theorem State.dropCtx_kept (s : State) (k : Nat) : (State.dropCtx s k).kept = s.kept := by
  unfold State.dropCtx
  repeat' first
    | with_reducible rfl
    | (simp [apply_ite State.kept, *]; done)
    | split
    | rw [forEach_kept]
    | rw [foldl_kept]
    | intro _ _
    | simp
    | dsimp only

@[simp ↓] theorem State.forwardCell_kept (s : State) (l : Nat) (c : Cell) : (State.forwardCell s l c).kept = s.kept := by
  simp [State.forwardCell, apply_ite State.kept]

@[simp ↓] theorem State.reachWrite_kept (s : State) : (State.reachWrite s).kept = s.kept := by simp [State.reachWrite]

@[simp ↓] theorem State.reachRead_kept (s : State) : (State.reachRead s).kept = s.kept := by
  unfold State.reachRead
  repeat' first
    | with_reducible rfl
    | (simp [apply_ite State.kept, *]; done)
    | split
    | rw [forEach_kept]
    | rw [foldl_kept]
    | intro _ _
    | simp
    | dsimp only

@[simp ↓] theorem State.setCc_kept (s : State) (c : Cascade) : (State.setCc s c).kept = s.kept := by simp [State.setCc]

@[simp ↓] theorem State.ckptDue_kept (s : State) : (State.ckptDue s).kept = s.kept := by simp [State.ckptDue]

@[simp ↓] theorem State.ccPhase_kept (s : State) (p : Nat) : (State.ccPhase s p).kept = s.kept := by simp [State.ccPhase]

@[simp ↓] theorem State.ccPrepare_kept (s : State) (k ep : Nat) : (State.ccPrepare s k ep).2.kept = s.kept := by
  unfold State.ccPrepare; (repeat' split) <;> simp [*]

@[simp ↓] theorem State.ccSend_kept (s : State) (m : List Byte) (ds : List Nat) : (State.ccSend s m ds).kept = s.kept := by
  unfold State.ccSend
  repeat' first
    | with_reducible rfl
    | (simp [apply_ite State.kept, *]; done)
    | split
    | rw [forEach_kept]
    | rw [foldl_kept]
    | intro _ _
    | simp
    | dsimp only

@[simp ↓] theorem State.ccSettle_kept (s : State) : (State.ccSettle s).kept = s.kept := by simp [State.ccSettle, apply_ite State.kept]

@[simp ↓] theorem State.ccAbort_kept (s : State) (result : Nat) : (State.ccAbort s result).kept = s.kept := by
  simp [State.ccAbort, apply_ite State.kept]

@[simp ↓] theorem State.ccGo_kept (s : State) : (State.ccGo s).kept = s.kept := by simp [State.ccGo]

@[simp ↓] theorem State.ccAllReady_kept (s : State) : (State.ccAllReady s).kept = s.kept := by simp [State.ccAllReady, apply_ite State.kept]

@[simp ↓] theorem State.ccCmdPrepare_kept (s : State) : (State.ccCmdPrepare s).kept = s.kept := by
  unfold State.ccCmdPrepare
  split
  · rfl
  · extract_lets k ep s1 sc s2 s3 p
    have h : p.2.kept = s.kept := by simp [p, s3, s2, s1]
    split <;> simp [h]

@[simp ↓] theorem State.ccCommit_kept (s : State) : (State.ccCommit s).kept = s.kept := by simp [State.ccCommit, apply_ite State.kept]

@[simp ↓] theorem State.retire_kept (s : State) (k : Nat) : (State.retire s k).kept = s.kept := by simp [State.retire]

@[simp ↓] theorem State.retireOldest_kept (s : State) : (State.retireOldest s).kept = s.kept := by
  unfold State.retireOldest; (repeat' split) <;> simp [*]

@[simp ↓] theorem State.ccCmdAbort_kept (s : State) : (State.ccCmdAbort s).kept = s.kept := by simp [State.ccCmdAbort, apply_ite State.kept]

@[simp ↓] theorem State.ccRelease_kept (s : State) : (State.ccRelease s).kept = s.kept := by
  unfold State.ccRelease
  repeat' first
    | with_reducible rfl
    | (simp [apply_ite State.kept, *]; done)
    | split
    | rw [forEach_kept]
    | rw [foldl_kept]
    | intro _ _
    | simp
    | dsimp only

theorem State.popMsg_kept {s t : State} {n : Nat} {m : CtlMsg} (h : s.popMsg n = some (m, t)) : t.kept = s.kept := by
  unfold State.popMsg at h
  repeat' split at h
  all_goals simp at h
  obtain ⟨-, rfl⟩ := h
  simp

theorem State.popLink_kept {s t : State} {n l : Nat} {b : List Byte} (h : s.popLink n = some (l, b, t)) : t.kept = s.kept := by
  unfold State.popLink at h
  repeat' split at h
  all_goals simp at h
  obtain ⟨-, -, rfl⟩ := h
  simp

theorem execLinkTrained_kept (l : Fin 256) (s : State) : Goes (execLinkTrained l s) fun t => t.kept = s.kept := by simp [execLinkTrained]

theorem execHelloSend_kept (l : Fin 256) (s : State) : Goes (execHelloSend l s) fun t => t.kept = s.kept := by simp [execHelloSend]

theorem execHelloReceive_kept (s : State) : Goes (execHelloReceive s) fun t => t.kept = s.kept := by
  unfold execHelloReceive
  repeat' first
    | (simp [apply_ite State.kept, *]; done)
    | split
    | (have := State.popMsg_kept ‹_›; simp [*]; done)
    | (have := State.popLink_kept ‹_›; simp [*]; done)
    | (simp; rw [forEach_kept])
    | (simp; rw [foldl_kept])
    | rw [forEach_kept]
    | rw [foldl_kept]
    | intro _ _
    | simp
    | dsimp only

theorem execLinkDown_kept (l : Fin 256) (lockLost : Bool) (s : State) : Goes (execLinkDown l lockLost s) fun t => t.kept = s.kept := by
  simp [execLinkDown]

theorem execStopMessage_kept (s : State) : Goes (execStopMessage s) fun t => t.kept = s.kept := by
  unfold execStopMessage
  repeat' first
    | (simp [apply_ite State.kept, *]; done)
    | split
    | (have := State.popMsg_kept ‹_›; simp [*]; done)
    | (have := State.popLink_kept ‹_›; simp [*]; done)
    | (simp; rw [forEach_kept])
    | (simp; rw [foldl_kept])
    | rw [forEach_kept]
    | rw [foldl_kept]
    | intro _ _
    | simp
    | dsimp only

theorem execGoCellsMessage_kept (s : State) : Goes (execGoCellsMessage s) fun t => t.kept = s.kept := by
  unfold execGoCellsMessage
  repeat' first
    | (simp [apply_ite State.kept, *]; done)
    | split
    | (have := State.popMsg_kept ‹_›; simp [*]; done)
    | (have := State.popLink_kept ‹_›; simp [*]; done)
    | (simp; rw [forEach_kept])
    | (simp; rw [foldl_kept])
    | rw [forEach_kept]
    | rw [foldl_kept]
    | intro _ _
    | simp
    | dsimp only

theorem execLinkPing_kept (l : Fin 256) (s : State) : Goes (execLinkPing l s) fun t => t.kept = s.kept := by simp [execLinkPing]

theorem execPingMessage_kept (s : State) : Goes (execPingMessage s) fun t => t.kept = s.kept := by
  unfold execPingMessage
  repeat' first
    | (simp [apply_ite State.kept, *]; done)
    | split
    | (have := State.popMsg_kept ‹_›; simp [*]; done)
    | (have := State.popLink_kept ‹_›; simp [*]; done)
    | (simp; rw [forEach_kept])
    | (simp; rw [foldl_kept])
    | rw [forEach_kept]
    | rw [foldl_kept]
    | intro _ _
    | simp
    | dsimp only

theorem execPongMessage_kept (turn : Nat) (s : State) : Goes (execPongMessage turn s) fun t => t.kept = s.kept := by
  unfold execPongMessage
  repeat' first
    | (simp [apply_ite State.kept, *]; done)
    | split
    | (have := State.popMsg_kept ‹_›; simp [*]; done)
    | (have := State.popLink_kept ‹_›; simp [*]; done)
    | (simp; rw [forEach_kept])
    | (simp; rw [foldl_kept])
    | rw [forEach_kept]
    | rw [foldl_kept]
    | intro _ _
    | simp
    | dsimp only

theorem execCellSend_kept (l : Fin 256) (s : State) : Goes (execCellSend l s) fun t => t.kept = s.kept := by
  unfold execCellSend; dsimp only; (repeat' split) <;> simp [*]

theorem execCellReceive_kept (l : Fin 256) (b : List Byte) (err : CErr) (s : State) : Goes (execCellReceive l b err s) fun t => t.kept = s.kept := by
  simp [execCellReceive, apply_ite State.kept]

theorem execReorderSkip_kept (src : Fin 2048) (cls : Fin 9) (s : State) : Goes (execReorderSkip src cls s) fun t => t.kept = s.kept := by
  unfold execReorderSkip; dsimp only; (repeat' split) <;> simp [*]

theorem execContextStart_kept (src : Fin 2048) (cls : Fin 9) (s : State) : Goes (execContextStart src cls s) fun t => t.kept = s.kept := by
  unfold execContextStart; dsimp only; (repeat' split) <;> simp [*]

theorem execAckSend_kept (s : State) : Goes (execAckSend s) fun t => t.kept = s.kept := by
  unfold execAckSend
  rw [Goes_next]
  refine forEach_kept _ _ _ fun k s => ?_
  dsimp only
  rw [State.sendCtrl_kept, State.setCtxOf_kept]

theorem execAckMessage_kept (s : State) : Goes (execAckMessage s) fun t => t.kept = s.kept := by
  unfold execAckMessage
  repeat' first
    | (simp [apply_ite State.kept, *]; done)
    | split
    | (have := State.popMsg_kept ‹_›; simp [*]; done)
    | (have := State.popLink_kept ‹_›; simp [*]; done)
    | (simp; rw [forEach_kept])
    | (simp; rw [foldl_kept])
    | rw [forEach_kept]
    | rw [foldl_kept]
    | intro _ _
    | simp
    | dsimp only

theorem execReportRefresh_kept (v : Fin 131072) (s : State) : Goes (execReportRefresh v s) fun t => t.kept = s.kept := by
  unfold execReportRefresh; split <;> simp [*]

theorem execReportMessage_kept (s : State) : Goes (execReportMessage s) fun t => t.kept = s.kept := by
  unfold execReportMessage
  repeat' first
    | (simp [apply_ite State.kept, *]; done)
    | split
    | (have := State.popMsg_kept ‹_›; simp [*]; done)
    | (have := State.popLink_kept ‹_›; simp [*]; done)
    | (simp; rw [forEach_kept])
    | (simp; rw [foldl_kept])
    | rw [forEach_kept]
    | rw [foldl_kept]
    | intro _ _
    | simp
    | dsimp only

theorem execCreditMessage_kept (s : State) : Goes (execCreditMessage s) fun t => t.kept = s.kept := by
  unfold execCreditMessage
  repeat' first
    | (simp [apply_ite State.kept, *]; done)
    | split
    | (have := State.popMsg_kept ‹_›; simp [*]; done)
    | (have := State.popLink_kept ‹_›; simp [*]; done)
    | (simp; rw [forEach_kept])
    | (simp; rw [foldl_kept])
    | rw [forEach_kept]
    | rw [foldl_kept]
    | intro _ _
    | simp
    | dsimp only

theorem execPrepareMessage_kept (s : State) : Goes (execPrepareMessage s) fun t => t.kept = s.kept := by
  unfold execPrepareMessage
  repeat' first
    | (simp [apply_ite State.kept, *]; done)
    | split
    | (have := State.popMsg_kept ‹_›; simp [*]; done)
    | (have := State.popLink_kept ‹_›; simp [*]; done)
    | (simp; rw [forEach_kept])
    | (simp; rw [foldl_kept])
    | rw [forEach_kept]
    | rw [foldl_kept]
    | intro _ _
    | simp
    | dsimp only

theorem execReadyMessage_kept (s : State) : Goes (execReadyMessage s) fun t => t.kept = s.kept := by
  unfold execReadyMessage
  repeat' first
    | (simp [apply_ite State.kept, *]; done)
    | split
    | (have := State.popMsg_kept ‹_›; simp [*]; done)
    | (have := State.popLink_kept ‹_›; simp [*]; done)
    | (simp; rw [forEach_kept])
    | (simp; rw [foldl_kept])
    | rw [forEach_kept]
    | rw [foldl_kept]
    | intro _ _
    | simp
    | dsimp only

theorem execCcPrepTimeout_kept (s : State) : Goes (execCcPrepTimeout s) fun t => t.kept = s.kept := by simp [execCcPrepTimeout]

theorem execGoMessage_kept (s : State) : Goes (execGoMessage s) fun t => t.kept = s.kept := by
  unfold execGoMessage
  repeat' first
    | (simp [apply_ite State.kept, *]; done)
    | split
    | (have := State.popMsg_kept ‹_›; simp [*]; done)
    | (have := State.popLink_kept ‹_›; simp [*]; done)
    | (simp; rw [forEach_kept])
    | (simp; rw [foldl_kept])
    | rw [forEach_kept]
    | rw [foldl_kept]
    | intro _ _
    | simp
    | dsimp only

theorem execCcCommitTime_kept (s : State) : Goes (execCcCommitTime s) fun t => t.kept = s.kept := by
  unfold execCcCommitTime; dsimp only; (repeat' split) <;> simp [*]

theorem execAbortMessage_kept (s : State) : Goes (execAbortMessage s) fun t => t.kept = s.kept := by
  unfold execAbortMessage
  repeat' first
    | (simp [apply_ite State.kept, *]; done)
    | split
    | (have := State.popMsg_kept ‹_›; simp [*]; done)
    | (have := State.popLink_kept ‹_›; simp [*]; done)
    | (simp; rw [forEach_kept])
    | (simp; rw [foldl_kept])
    | rw [forEach_kept]
    | rw [foldl_kept]
    | intro _ _
    | simp
    | dsimp only

theorem execDoneMessage_kept (s : State) : Goes (execDoneMessage s) fun t => t.kept = s.kept := by
  unfold execDoneMessage
  repeat' first
    | (simp [apply_ite State.kept, *]; done)
    | split
    | (have := State.popMsg_kept ‹_›; simp [*]; done)
    | (have := State.popLink_kept ‹_›; simp [*]; done)
    | (simp; rw [forEach_kept])
    | (simp; rw [foldl_kept])
    | rw [forEach_kept]
    | rw [foldl_kept]
    | intro _ _
    | simp
    | dsimp only

theorem execGoRepeat_kept (s : State) : Goes (execGoRepeat s) fun t => t.kept = s.kept := by simp [execGoRepeat]

theorem execSlotDrained_kept (k : Fin 16) (s : State) : Goes (execSlotDrained k s) fun t => t.kept = s.kept := by
  simp [execSlotDrained, apply_ite State.kept]

theorem execDrainMessage_kept (s : State) : Goes (execDrainMessage s) fun t => t.kept = s.kept := by
  unfold execDrainMessage
  repeat' first
    | (simp [apply_ite State.kept, *]; done)
    | split
    | (have := State.popMsg_kept ‹_›; simp [*]; done)
    | (have := State.popLink_kept ‹_›; simp [*]; done)
    | (simp; rw [forEach_kept])
    | (simp; rw [foldl_kept])
    | rw [forEach_kept]
    | rw [foldl_kept]
    | intro _ _
    | simp
    | dsimp only

theorem execReleaseMessage_kept (s : State) : Goes (execReleaseMessage s) fun t => t.kept = s.kept := by
  unfold execReleaseMessage
  repeat' first
    | (simp [apply_ite State.kept, *]; done)
    | split
    | (have := State.popMsg_kept ‹_›; simp [*]; done)
    | (have := State.popLink_kept ‹_›; simp [*]; done)
    | (simp; rw [forEach_kept])
    | (simp; rw [foldl_kept])
    | rw [forEach_kept]
    | rw [foldl_kept]
    | intro _ _
    | simp
    | dsimp only

end Sys2Proof.Machine
end

