-- ==== Sys2Proof/Laws/Master.lean ====
section
/-! SUPPORT. What the operations and commands of Machine/Master.lean keep. -/

namespace Sys2Proof.Machine

open Reg

set_option linter.unusedSimpArgs false
set_option linter.unusedVariables false

@[simp ↓] theorem State.rwEnd_kept (s : State) (r : Nat) : (State.rwEnd s r).kept = s.kept := by simp [State.rwEnd]

@[simp ↓] theorem State.rwSend_kept (s : State) : (State.rwSend s).kept = s.kept := by simp [State.rwSend]

@[simp ↓] theorem State.rwStart_kept (s : State) (read : Bool) : (State.rwStart s read).kept = s.kept := by
  simp [State.rwStart, apply_ite State.kept]

@[simp ↓] theorem State.rollBack2_kept (s : State) : (State.rollBack2 s).kept = s.kept := by unfold State.rollBack2; split <;> simp [*]

@[simp ↓] theorem State.depose_kept (s : State) : (State.depose s).kept = s.kept := by simp [State.depose, apply_ite State.kept]

@[simp ↓] theorem State.setMaster_kept (s : State) (i c : Nat) : (State.setMaster s i c).kept = s.kept := by
  simp [State.setMaster, apply_ite State.kept]

@[simp ↓] theorem State.announce_kept (s : State) (c rel : Nat) : (State.announce s c rel).kept = s.kept := by
  unfold State.announce
  repeat' first
    | with_reducible rfl
    | (simp [apply_ite State.kept, *]; done)
    | split
    | rw [forEach_kept]
    | rw [foldl_kept]
    | intro _ _
    | simp
    | dsimp only

@[simp ↓] theorem State.ckptCells_kept (s : State) : (State.ckptCells s).kept = s.kept := by
  unfold State.ckptCells
  repeat' first
    | with_reducible rfl
    | (simp [apply_ite State.kept, *]; done)
    | split
    | rw [forEach_kept]
    | rw [foldl_kept]
    | intro _ _
    | simp
    | dsimp only

@[simp ↓] theorem State.handOver_kept (s : State) : (State.handOver s).kept = s.kept := by simp [State.handOver]

@[simp ↓] theorem State.takeOver_kept (s : State) : (State.takeOver s).kept = s.kept := by
  unfold State.takeOver
  repeat' first
    | with_reducible rfl
    | (simp [apply_ite State.kept, *]; done)
    | split
    | rw [forEach_kept]
    | rw [foldl_kept]
    | intro _ _
    | simp
    | dsimp only

@[simp ↓] theorem State.rehEnd_kept (s : State) (r dev us : Nat) : (State.rehEnd s r dev us).kept = s.kept := by simp [State.rehEnd]

@[simp ↓] theorem State.handoverCmd_kept (s : State) : (State.handoverCmd s).kept = s.kept := by simp [State.handoverCmd, apply_ite State.kept]

@[simp ↓] theorem State.rehearseCmd_kept (s : State) : (State.rehearseCmd s).kept = s.kept := by
  unfold State.rehearseCmd; dsimp only; (repeat' split) <;> simp [*]

theorem execRemoteResend_kept (s : State) : Goes (execRemoteResend s) fun t => t.kept = s.kept := by simp [execRemoteResend]

theorem execRegackMessage_kept (s : State) : Goes (execRegackMessage s) fun t => t.kept = s.kept := by
  unfold execRegackMessage
  repeat' first
    | (simp [apply_ite State.kept, *]; done)
    | split
    | (have := State.popMsg_kept ‹_›; simp [*]; done)
    | (have := State.popLink_kept ‹_›; simp [*]; done)
    | (simp; rw [forEach_kept])
    | (simp; rw [foldl_kept])
    | rw [forEach_kept]
    | rw [foldl_kept]
    | intro _ _
    | simp
    | dsimp only

theorem execMasterAnnounce_kept (s : State) : Goes (execMasterAnnounce s) fun t => t.kept = s.kept := by
  simp [execMasterAnnounce, apply_ite State.kept]

theorem execCheckpointSend_kept (sw : Fetched) (s : State) : Goes (execCheckpointSend sw s) fun t => t.kept = s.kept := by
  unfold execCheckpointSend; dsimp only; (repeat' split) <;> simp [*]

theorem execCheckpointResend_kept (s : State) : Goes (execCheckpointResend s) fun t => t.kept = s.kept := by simp [execCheckpointResend]

theorem execCkptAckMessage_kept (s : State) : Goes (execCkptAckMessage s) fun t => t.kept = s.kept := by
  unfold execCkptAckMessage
  repeat' first
    | (simp [apply_ite State.kept, *]; done)
    | split
    | (have := State.popMsg_kept ‹_›; simp [*]; done)
    | (have := State.popLink_kept ‹_›; simp [*]; done)
    | (simp; rw [forEach_kept])
    | (simp; rw [foldl_kept])
    | rw [forEach_kept]
    | rw [foldl_kept]
    | intro _ _
    | simp
    | dsimp only

theorem execStbyLost_kept (s : State) : Goes (execStbyLost s) fun t => t.kept = s.kept := by simp [execStbyLost]

theorem execTakeover_kept (s : State) : Goes (execTakeover s) fun t => t.kept = s.kept := by simp [execTakeover, apply_ite State.kept]

theorem execMasterMessage_kept (s : State) : Goes (execMasterMessage s) fun t => t.kept = s.kept := by
  unfold execMasterMessage
  repeat' first
    | (simp [apply_ite State.kept, *]; done)
    | split
    | (have := State.popMsg_kept ‹_›; simp [*]; done)
    | (have := State.popLink_kept ‹_›; simp [*]; done)
    | (simp; rw [forEach_kept])
    | (simp; rw [foldl_kept])
    | rw [forEach_kept]
    | rw [foldl_kept]
    | intro _ _
    | simp
    | dsimp only

theorem execHandoverTimeout_kept (s : State) : Goes (execHandoverTimeout s) fun t => t.kept = s.kept := by simp [execHandoverTimeout]

theorem execProbeMessage_kept (s : State) : Goes (execProbeMessage s) fun t => t.kept = s.kept := by
  unfold execProbeMessage
  repeat' first
    | (simp [apply_ite State.kept, *]; done)
    | split
    | (have := State.popMsg_kept ‹_›; simp [*]; done)
    | (have := State.popLink_kept ‹_›; simp [*]; done)
    | (simp; rw [forEach_kept])
    | (simp; rw [foldl_kept])
    | rw [forEach_kept]
    | rw [foldl_kept]
    | intro _ _
    | simp
    | dsimp only

theorem execProbeAckMessage_kept (s : State) : Goes (execProbeAckMessage s) fun t => t.kept = s.kept := by
  unfold execProbeAckMessage
  repeat' first
    | (simp [apply_ite State.kept, *]; done)
    | split
    | (have := State.popMsg_kept ‹_›; simp [*]; done)
    | (have := State.popLink_kept ‹_›; simp [*]; done)
    | (simp; rw [forEach_kept])
    | (simp; rw [foldl_kept])
    | rw [forEach_kept]
    | rw [foldl_kept]
    | intro _ _
    | simp
    | dsimp only

theorem execRehearseTimeout_kept (s : State) : Goes (execRehearseTimeout s) fun t => t.kept = s.kept := by simp [execRehearseTimeout]

end Sys2Proof.Machine
end

