-- ==== Sys2Proof/Laws/HostLink.lean ====
section
/-! SUPPORT. What the operations and commands of Machine/HostLink.lean keep. -/

namespace Sys2Proof.Machine

open Reg

set_option linter.unusedSimpArgs false
set_option linter.unusedVariables false

@[simp ↓] theorem State.setSring_kept (s : State) (n : Nat) (r : SRing) : (State.setSring s n r).kept = s.kept := by simp [State.setSring]

@[simp ↓] theorem State.dbErr_kept (s : State) : (State.dbErr s).kept = s.kept := by simp [State.dbErr]

@[simp ↓] theorem State.rxNoFrame_kept (s : State) (cq flags ring idx : Nat) (entry : List Byte) : (State.rxNoFrame s cq flags ring idx entry).kept = s.kept := by
  simp [State.rxNoFrame]

@[simp ↓] theorem State.returnCache_kept (s : State) (n : Nat) : (State.returnCache s n).kept = s.kept := by
  unfold State.returnCache
  repeat' first
    | with_reducible rfl
    | (simp [apply_ite State.kept, *]; done)
    | split
    | rw [forEach_kept]
    | rw [foldl_kept]
    | intro _ _
    | simp
    | dsimp only

@[simp ↓] theorem State.ringResult_kept (s : State) (r : Nat) : (State.ringResult s r).kept = s.kept := by
  simp [State.ringResult, apply_ite State.kept]

@[simp ↓] theorem State.writeSub_kept (s : State) (n : Nat) : (State.writeSub s n).kept = s.kept := by simp [State.writeSub, apply_ite State.kept]

@[simp ↓] theorem State.writeCpl_kept (s : State) (n : Nat) : (State.writeCpl s n).kept = s.kept := by simp [State.writeCpl, apply_ite State.kept]

@[simp ↓] theorem State.ringWrite_kept (s : State) : (State.ringWrite s).kept = s.kept := by simp [State.ringWrite, apply_ite State.kept]

@[simp ↓] theorem State.loadRing_kept (s : State) (l : List Nat) : (State.loadRing s l).kept = s.kept := by
  unfold State.loadRing
  repeat' first
    | with_reducible rfl
    | (simp [apply_ite State.kept, *]; done)
    | split
    | rw [forEach_kept]
    | rw [foldl_kept]
    | intro _ _
    | simp
    | dsimp only

@[simp ↓] theorem State.ringRead_kept (s : State) : (State.ringRead s).kept = s.kept := by simp [State.ringRead, apply_ite State.kept]

@[simp ↓] theorem State.newRound_kept (s : State) (e : Nat) : (State.newRound s e).kept = s.kept := by
  unfold State.newRound
  repeat' first
    | with_reducible rfl
    | (simp [apply_ite State.kept, *]; done)
    | split
    | rw [forEach_kept]
    | rw [foldl_kept]
    | intro _ _
    | simp
    | dsimp only

@[simp ↓] theorem State.visitRing_kept (s : State) (n : Nat) : (State.visitRing s n).kept = s.kept := by simp [State.visitRing]

@[simp ↓] theorem State.badEnt_kept (s : State) : (State.badEnt s).kept = s.kept := by simp [State.badEnt]

@[simp ↓] theorem State.unreserve_kept (s : State) (c : Nat) : (State.unreserve s c).kept = s.kept := by simp [State.unreserve]

@[simp ↓] theorem State.acceptInject_kept (s : State) (n : Nat) (x : Fetch) (e : List Byte) : (State.acceptInject s n x e).kept = s.kept := by
  simp [State.acceptInject]

@[simp ↓] theorem State.endInject_kept (s : State) (x : Inject) (status : Nat) : (State.endInject s x status).kept = s.kept := by
  simp [State.endInject]

@[simp ↓] theorem State.injectFrame_kept (s : State) (x : Inject) (b : List Byte) : (State.injectFrame s x b).kept = s.kept := by
  simp [State.injectFrame]

@[simp ↓] theorem State.leaveHostQ_kept (s : State) (id : Nat) : (State.leaveHostQ s id).kept = s.kept := by simp [State.leaveHostQ]

@[simp ↓] theorem State.puntEntry_kept (s : State) (id n idx : Nat) (entry : List Byte) : (State.puntEntry s id n idx entry).kept = s.kept := by
  simp [State.puntEntry, apply_ite State.kept]

@[simp ↓] theorem State.tailWriteback_kept (s : State) (c : Nat) : (State.tailWriteback s c).kept = s.kept := by
  simp [State.tailWriteback, apply_ite State.kept]

theorem execSubmissionDoorbell_kept (n : Fin 2048) (w : Word) (s : State) : Goes (execSubmissionDoorbell n w s) fun t => t.kept = s.kept := by
  simp [execSubmissionDoorbell]

theorem execCompletionDoorbell_kept (n : Fin 2048) (w : Word) (s : State) : Goes (execCompletionDoorbell n w s) fun t => t.kept = s.kept := by
  simp [execCompletionDoorbell]

theorem execRingFetch_kept (e : Fin 16) (s : State) : Goes (execRingFetch e s) fun t => t.kept = s.kept := by
  unfold execRingFetch; dsimp only; (repeat' split) <;> simp [*]

theorem execEntryFetched_kept (n : Fin 2048) (e : Fetched) (s : State) : Goes (execEntryFetched n e s) fun t => t.kept = s.kept := by
  unfold execEntryFetched; dsimp only; (repeat' split) <;> simp [*]

theorem execInjectDataRead_kept (table data : Fetched) (frag : Fin 64) (s : State) : Goes (execInjectDataRead table data frag s) fun t => t.kept = s.kept := by
  unfold execInjectDataRead
  repeat' first
    | (simp [apply_ite State.kept, *]; done)
    | split
    | (simp; rw [forEach_kept])
    | (simp; rw [foldl_kept])
    | rw [forEach_kept]
    | rw [foldl_kept]
    | intro _ _
    | simp
    | dsimp only

theorem execPuntDeliver_kept (bad : Bool) (s : State) : Goes (execPuntDeliver bad s) fun t => t.kept = s.kept := by
  unfold execPuntDeliver; dsimp only; (repeat' split) <;> simp [*]

theorem execPuntFlush_kept (s : State) : Goes (execPuntFlush s) fun t => t.kept = s.kept := by unfold execPuntFlush; split <;> simp [*]

theorem execRecordWrite_kept (c : Fin 2048) (bad : Bool) (s : State) : Goes (execRecordWrite c bad s) fun t => t.kept = s.kept := by
  unfold execRecordWrite; dsimp only; (repeat' split) <;> simp [*]

theorem execTailWriteback_kept (c : Fin 2048) (s : State) : Goes (execTailWriteback c s) fun t => t.kept = s.kept := by
  simp [execTailWriteback, apply_ite State.kept]

theorem execCompletionTimer_kept (c : Fin 2048) (s : State) : Goes (execCompletionTimer c s) fun t => t.kept = s.kept := by
  simp [execCompletionTimer]

theorem execPcieLinkTrained_kept (speed : Fin 6) (width : Fin 5) (flit : Bool) (s : State) : Goes (execPcieLinkTrained speed width flit s) fun t => t.kept = s.kept := by
  simp [execPcieLinkTrained]

theorem execPcieDstateChange_kept (d3 pme : Bool) (s : State) : Goes (execPcieDstateChange d3 pme s) fun t => t.kept = s.kept := by
  simp [execPcieDstateChange]

theorem execPcieL1Entry_kept (lpm : Fin 3) (s : State) : Goes (execPcieL1Entry lpm s) fun t => t.kept = s.kept := by
  simp [execPcieL1Entry, apply_ite State.kept]

end Sys2Proof.Machine
end

