-- ==== Sys2Proof/Laws/Icu.lean ====
section
/-! SUPPORT. What the operations and commands of Machine/Icu.lean keep. -/

namespace Sys2Proof.Machine

open Reg

set_option linter.unusedSimpArgs false
set_option linter.unusedVariables false

@[simp ↓] theorem State.setIsrc_kept (s : State) (n : Nat) (x : ISrc) : (State.setIsrc s n x).kept = s.kept := by
  simp [State.setIsrc, apply_ite State.kept]

@[simp ↓] theorem State.setItgt_kept (s : State) (t : Nat) (x : ITgt) : (State.setItgt s t x).kept = s.kept := by simp [State.setItgt]

@[simp ↓] theorem State.pendSet_kept (s : State) (n : Nat) (clr : Bool) : (State.pendSet s n clr).kept = s.kept := by
  simp [State.pendSet, apply_ite State.kept]

@[simp ↓] theorem State.sourceConfig_kept (s : State) (n : Nat) (w : Word) : (State.sourceConfig s n w).kept = s.kept := by simp [State.sourceConfig]

@[simp ↓] theorem State.icuLost_kept (s : State) (srcs : List (Fin 4096)) (tgts : List (Fin 257)) : (State.icuLost s srcs tgts).kept = s.kept := by
  unfold State.icuLost
  repeat' first
    | with_reducible rfl
    | (simp [apply_ite State.kept, *]; done)
    | split
    | rw [forEach_kept]
    | rw [foldl_kept]
    | intro _ _
    | simp
    | dsimp only

@[simp ↓] theorem State.claim_kept (s : State) (t : Nat) : (State.claim s t).2.kept = s.kept := by
  unfold State.claim; dsimp only; (repeat' split) <;> simp [*]

@[simp ↓] theorem State.answerRead_kept (s : State) (i : Nat) (w : Word) : (State.answerRead s i w).kept = s.kept := by simp [State.answerRead]

@[simp ↓] theorem State.eoi_kept (s : State) (t n : Nat) : (State.eoi s t n).kept = s.kept := by simp [State.eoi, apply_ite State.kept]

theorem execSourceMessage_kept (s : State) : Goes (execSourceMessage s) fun t => t.kept = s.kept := by
  unfold execSourceMessage; dsimp only; (repeat' split) <;> simp [*]

theorem execMessageEmit_kept (t : Fin 257) (srcs : List (Fin 4096)) (tgts : List (Fin 257)) (s : State) : Goes (execMessageEmit t srcs tgts s) fun t => t.kept = s.kept := by
  unfold execMessageEmit; dsimp only; (repeat' split) <;> simp [*]

theorem execSampleAnswer_kept (t : Fin 257) (s : State) : Goes (execSampleAnswer t s) fun t => t.kept = s.kept := by
  unfold execSampleAnswer; dsimp only; (repeat' split) <;> simp [*]

theorem execTargetWake_kept (t : Fin 257) (s : State) : Goes (execTargetWake t s) fun t => t.kept = s.kept := by
  simp [execTargetWake, apply_ite State.kept]

end Sys2Proof.Machine
end

