-- ==== Sys2Proof/Laws/Counters.lean ====
section
/-! SUPPORT. What the operations and commands of Machine/Counters.lean keep. -/

namespace Sys2Proof.Machine

open Reg

set_option linter.unusedSimpArgs false
set_option linter.unusedVariables false

@[simp ↓] theorem State.setProg_kept (s : State) (n : Nat) (x : Prog) : (State.setProg s n x).kept = s.kept := by simp [State.setProg]

@[simp ↓] theorem State.addProg_kept (s : State) (n k : Nat) : (State.addProg s n k).kept = s.kept := by simp [State.addProg, apply_ite State.kept]

@[simp ↓] theorem State.sampleProg_kept (s : State) (n : Nat) : (State.sampleProg s n).kept = s.kept := by
  simp [State.sampleProg, apply_ite State.kept]

@[simp ↓] theorem State.badProg_kept (s : State) (n : Nat) : (State.badProg s n).kept = s.kept := by simp [State.badProg]

@[simp ↓] theorem State.counterWrite_kept (s : State) (clear : Bool) : (State.counterWrite s clear).kept = s.kept := by simp [State.counterWrite]

@[simp ↓] theorem State.counterRead_kept (s : State) : (State.counterRead s).kept = s.kept := by simp [State.counterRead]

@[simp ↓] theorem State.dumpFail_kept (s : State) : (State.dumpFail s).kept = s.kept := by simp [State.dumpFail]

@[simp ↓] theorem State.capCount_kept (s : State) (f : Fld) : (State.capCount s f).kept = s.kept := by simp [State.capCount]

@[simp ↓] theorem State.capLost_kept (s : State) : (State.capLost s).kept = s.kept := by simp [State.capLost]

@[simp ↓] theorem State.fire_kept (s : State) (t : Nat) (e : CapEvent) : (State.fire s t e).kept = s.kept := by
  simp [State.fire, apply_ite State.kept]

@[simp ↓] theorem State.freshBytes_kept (s : State) (n : Nat) : (s.freshBytes n).2.kept = s.kept := by
  induction n generalizing s with
  | zero => rfl
  | succ n ih => unfold State.freshBytes; simp [ih]

@[simp] theorem State.dumpWrite_outside (s : State) (host : Bool) (a : Nat) (b : List Byte) : (State.dumpWrite s host a b).kept.1 = s.kept.1 := by
  simp [State.dumpWrite, apply_ite State.kept, apply_ite Prod.fst]

@[simp] theorem State.dumpWrite_wf (s : State) (host : Bool) (a : Nat) (b : List Byte) (hw : Memory.wf s.kept.2 = true) : Memory.wf (State.dumpWrite s host a b).kept.2 = true := by
  unfold State.dumpWrite; split <;> simp [*]

@[simp] theorem State.capPut_outside (s : State) (b : List Byte) : (State.capPut s b).kept.1 = s.kept.1 := by simp [State.capPut]

@[simp] theorem State.capPut_wf (s : State) (b : List Byte) (hw : Memory.wf s.kept.2 = true) : Memory.wf (State.capPut s b).kept.2 = true := by
  simp [State.capPut, hw]

@[simp] theorem State.capWrite_outside (s : State) (b : List Byte) : (State.capWrite s b).kept.1 = s.kept.1 := by
  simp [State.capWrite, apply_ite State.kept, apply_ite Prod.fst]

@[simp] theorem State.capWrite_wf (s : State) (b : List Byte) (hw : Memory.wf s.kept.2 = true) : Memory.wf (State.capWrite s b).kept.2 = true := by
  unfold State.capWrite; dsimp only; (repeat' split) <;> simp [*]

theorem execCounterReport_kept (sample : Bool) (bad : Option (Fin 4096)) (s : State) : Goes (execCounterReport sample bad s) fun t => t.kept = s.kept := by
  unfold execCounterReport
  extract_lets t on u src
  have ht : t.kept = s.kept := by simp only [t]; split <;> simp
  have hu : u.kept = s.kept := by
    simp only [u]; split
    · rw [forEach_kept _ _ _ (by simp), ht]
    · exact ht
  clear_value u
  split
  · simp [hu]
  · split
    · simpa using ht
    · rw [Goes_next]
      split
      · rw [forEach_kept _ _ _ (by simp)]; simp [ht]
      · simp [ht]

theorem execCountLookup_kept (k : Nat) (bad : Bool) (s : State) : Goes (execCountLookup k bad s) fun t => t.kept = s.kept := by
  unfold execCountLookup; (repeat' split) <;> simp [*]

theorem execCounterPageRead_kept (page : Fin 4096) (w : Fin 1024) (wide : Bool) (s : State) : Goes (execCounterPageRead page w wide s) fun t => t.kept = s.kept := by
  unfold execCounterPageRead; dsimp only; (repeat' split) <;> simp [*]

theorem execCaptureTrigger_kept (s : State) : Goes (execCaptureTrigger s) fun t => t.kept = s.kept := by
  unfold execCaptureTrigger; (repeat' split) <;> simp [*]

theorem execDumpInstant_outside (s : State) : Goes (execDumpInstant s) fun t => t.kept.1 = s.kept.1 := by
  unfold execDumpInstant
  repeat' first
    | (simp [apply_ite State.kept, apply_ite Prod.fst, *]; done)
    | split
    | (rw [forEach_outside])
    | intro _ _
    | simp
    | dsimp only

theorem execDumpInstant_wf (s : State) (hw : Memory.wf s.kept.2 = true) : Goes (execDumpInstant s) fun t => Memory.wf t.kept.2 = true := by
  unfold execDumpInstant
  repeat' first
    | (simp [apply_ite State.kept, *]; done)
    | split
    | (apply forEach_wf)
    | intro _ _ _
    | simp
    | dsimp only

theorem execDumpCommit_outside (ok : Bool) (s : State) : Goes (execDumpCommit ok s) fun t => t.kept.1 = s.kept.1 := by
  unfold execDumpCommit; split <;> simp [*]

theorem execDumpCommit_wf (ok : Bool) (s : State) (hw : Memory.wf s.kept.2 = true) : Goes (execDumpCommit ok s) fun t => Memory.wf t.kept.2 = true := by
  unfold execDumpCommit; split <;> simp [*]

theorem execCaptureWrite_outside (bad : Bool) (s : State) : Goes (execCaptureWrite bad s) fun t => t.kept.1 = s.kept.1 := by
  unfold execCaptureWrite; split <;> simp [*]

theorem execCaptureWrite_wf (bad : Bool) (s : State) (hw : Memory.wf s.kept.2 = true) : Goes (execCaptureWrite bad s) fun t => Memory.wf t.kept.2 = true := by
  unfold execCaptureWrite; split <;> simp [*]

end Sys2Proof.Machine
end

