-- ==== Sys2Proof/Laws/Time.lean ====
section
/-! SUPPORT. What the operations and commands of Machine/Time.lean keep. -/

namespace Sys2Proof.Machine

open Reg

set_option linter.unusedSimpArgs false
set_option linter.unusedVariables false

@[simp ↓] theorem State.setTb_kept (s : State) (n : Nat) : (State.setTb s n).kept = s.kept := by simp [State.setTb]

@[simp ↓] theorem State.timeSet_kept (s : State) : (State.timeSet s).kept = s.kept := by simp [State.timeSet, apply_ite State.kept]

@[simp ↓] theorem State.timeStep_kept (s : State) : (State.timeStep s).kept = s.kept := by simp [State.timeStep, apply_ite State.kept]

@[simp ↓] theorem State.setTimCap_kept (s : State) (i k : Nat) (w : Option Word) : (State.setTimCap s i k w).kept = s.kept := by
  simp [State.setTimCap]

@[simp ↓] theorem State.timeRead_kept (s : State) (i : Nat) : (State.timeRead s i).2.kept = s.kept := by simp [State.timeRead]

@[simp ↓] theorem State.timCapRead_kept (s : State) (i k : Nat) (cur : Word) : (State.timCapRead s i k cur).2.kept = s.kept := by
  unfold State.timCapRead; split <;> simp [*]

@[simp ↓] theorem State.ppsInRead_kept (s : State) (i : Nat) : (State.ppsInRead s i).2.kept = s.kept := by simp [State.ppsInRead]

@[simp ↓] theorem State.servo_kept (s : State) (e : Int) : (State.servo s e).kept = s.kept := by simp [State.servo, apply_ite State.kept]

theorem execTimePllLock_kept (s : State) : Goes (execTimePllLock s) fun t => t.kept = s.kept := by simp [execTimePllLock]

theorem execPllLockLoss_kept (s : State) : Goes (execPllLockLoss s) fun t => t.kept = s.kept := by simp [execPllLockLoss, apply_ite State.kept]

theorem execPpsInEdge_kept (s : State) : Goes (execPpsInEdge s) fun t => t.kept = s.kept := by simp [execPpsInEdge]

theorem execPpsOutEdge_kept (s : State) : Goes (execPpsOutEdge s) fun t => t.kept = s.kept := by unfold execPpsOutEdge; (repeat' split) <;> simp [*]

theorem execSynceSquelch_kept (n : Fin 2) (lost : Bool) (s : State) : Goes (execSynceSquelch n lost s) fun t => t.kept = s.kept := by
  simp [execSynceSquelch, apply_ite State.kept]

theorem execSynceRestore_kept (n : Fin 2) (s : State) : Goes (execSynceRestore n s) fun t => t.kept = s.kept := by
  simp [execSynceRestore, apply_ite State.kept]

theorem execTimeSend_kept (s : State) : Goes (execTimeSend s) fun t => t.kept = s.kept := by
  unfold execTimeSend
  repeat' first
    | (simp [apply_ite State.kept, *]; done)
    | split
    | (have := State.popMsg_kept ‹_›; simp [*]; done)
    | (have := State.popLink_kept ‹_›; simp [*]; done)
    | (simp; rw [forEach_kept])
    | (simp; rw [foldl_kept])
    | rw [forEach_kept]
    | rw [foldl_kept]
    | intro _ _
    | simp
    | dsimp only

theorem execTimeMessage_kept (s : State) : Goes (execTimeMessage s) fun t => t.kept = s.kept := by
  unfold execTimeMessage
  split
  · simp
  · have h := State.popMsg_kept ‹_›
    split
    · simpa using h
    · extract_lets d ts dly src tim u
      have hu : u.kept = s.kept := by simp [u, tim, src, h]
      clear_value u
      split <;> simp [hu]

theorem execTimeHoldover_kept (s : State) : Goes (execTimeHoldover s) fun t => t.kept = s.kept := by simp [execTimeHoldover]

end Sys2Proof.Machine
end

