-- ==== Sys2Proof/Laws/Security.lean ====
section
/-! SUPPORT. What the operations and commands of Machine/Security.lean keep. -/

namespace Sys2Proof.Machine

open Reg

set_option linter.unusedSimpArgs false
set_option linter.unusedVariables false

@[simp ↓] theorem State.recordCheck_kept (s : State) (kind cause : Nat) : (State.recordCheck s kind cause).kept = s.kept := by
  simp [State.recordCheck, apply_ite State.kept]

@[simp ↓] theorem State.checkContainer_kept (s : State) (expect : Option Nat) (len : Nat) (c : Fetched) : (State.checkContainer s expect len c).2.2.kept = s.kept := by
  unfold State.checkContainer; (repeat' split) <;> simp [*]

@[simp ↓] theorem State.loadIsland_kept (s : State) (c : List Byte) : (State.loadIsland s c).kept = s.kept := by simp [State.loadIsland]

@[simp ↓] theorem State.stageItem_kept (s : State) (r : GRec) : (State.stageItem s r).kept = s.kept := by
  unfold State.stageItem; (repeat' split) <;> simp [*]

@[simp ↓] theorem State.applyGraph_kept (s : State) (c : List Byte) : (State.applyGraph s c).kept = s.kept := by
  unfold State.applyGraph
  repeat' first
    | with_reducible rfl
    | (simp [apply_ite State.kept, *]; done)
    | split
    | rw [forEach_kept]
    | rw [foldl_kept]
    | intro _ _
    | simp
    | dsimp only

@[simp ↓] theorem State.secBusy_kept (s : State) (c arg : Nat) : (State.secBusy s c arg).kept = s.kept := by simp [State.secBusy]

@[simp ↓] theorem State.secCommand_kept (s : State) (c : Nat) : (State.secCommand s c).kept = s.kept := by
  simp [State.secCommand, apply_ite State.kept]

@[simp ↓] theorem State.startBoot_kept (s : State) (c : List Byte) (src : Nat) : (State.startBoot s c src).kept = s.kept := by simp [State.startBoot]

@[simp ↓] theorem State.loadChecked_kept (s : State) (c : Fetched) : (State.loadChecked s c).kept = s.kept := by
  unfold State.loadChecked
  have h := State.checkContainer_kept s none s.sec.len c
  split <;> rename_i e <;> rw [e] at h <;> simp at h <;> simp [h, apply_ite State.kept]

@[simp ↓] theorem State.recoverChecked_kept (s : State) (c : Fetched) : (State.recoverChecked s c).kept = s.kept := by
  unfold State.recoverChecked
  have h := State.checkContainer_kept s (some 1) s.sec.len c
  split <;> rename_i e <;> rw [e] at h <;> simp at h <;> simp [h]

@[simp ↓] theorem State.setReport_kept (s : State) (b : List Byte) : (State.setReport s b).kept = s.kept := by
  unfold State.setReport
  repeat' first
    | with_reducible rfl
    | (simp [apply_ite State.kept, *]; done)
    | split
    | rw [forEach_kept]
    | rw [foldl_kept]
    | intro _ _
    | simp
    | dsimp only

@[simp ↓] theorem State.romCheck_kept (s : State) (kind : Nat) (dir c : Fetched) : (State.romCheck s kind dir c).2.kept = s.kept := by
  unfold State.romCheck; split <;> simp [*]

@[simp ↓] theorem State.romLoad_kept (s : State) (kind : Nat) (dir0 dir1 c0 c1 : Fetched) : (State.romLoad s kind dir0 dir1 c0 c1).2.kept = s.kept := by
  unfold State.romLoad; dsimp only; (repeat' split) <;> simp [*]

@[simp ↓] theorem State.bootEnd_kept (s : State) (st : Nat) : (State.bootEnd s st).kept = s.kept := by simp [State.bootEnd]

@[simp ↓] theorem State.romIsland_kept (s : State) (dir0 dir1 isl0 isl1 : Fetched) : (State.romIsland s dir0 dir1 isl0 isl1).kept = s.kept := by
  unfold State.romIsland
  have h := State.romLoad_kept s 2 dir0 dir1 isl0 isl1
  split <;> rename_i e <;> rw [e] at h <;> simp at h <;> simp [h]

@[simp ↓] theorem State.romBoot_kept (s : State) (fuseErr katFail : Bool) (dir0 dir1 boot0 boot1 isl0 isl1 : Fetched) : (State.romBoot s fuseErr katFail dir0 dir1 boot0 boot1 isl0 isl1).kept = s.kept := by
  unfold State.romBoot
  dsimp only
  generalize hs : (if fuseErr = true then _ else _ : State) = t
  have ht : t.kept = s.kept := by rw [← hs]; simp [apply_ite State.kept]
  split
  · simp [ht]
  · have h := State.romLoad_kept t 1 dir0 dir1 boot0 boot1
    split <;> rename_i e <;> rw [e] at h <;> simp at h <;> simp [h, ht]

@[simp] theorem State.blow_hbm (s : State) (n : Nat) : (s.blow n).kept.2 = s.kept.2 := by
  unfold State.blow
  split
  · unfold State.kept; exact Eq.refl _
  · split
    · unfold State.kept; exact Eq.refl _
    · exact Eq.refl _

@[simp ↓] theorem State.secFetched_kept (s : State) (flash : Bool) (c : Fetched) : (s.secFetched flash c).kept = s.kept := by
  unfold State.secFetched; (repeat' split) <;> simp

theorem execContainerCheck_kept (c : Fetched) (s : State) : Goes (execContainerCheck c s) fun t => t.kept = s.kept := by simp [execContainerCheck]

theorem execAttestReportSigned_kept (keyBad : Bool) (s : State) : Goes (execAttestReportSigned keyBad s) fun t => t.kept = s.kept := by
  simp [execAttestReportSigned]

theorem execBootRom_kept (fuseErr katFail : Bool) (dir0 dir1 boot0 boot1 isl0 isl1 : Fetched) (s : State) : Goes (execBootRom fuseErr katFail dir0 dir1 boot0 boot1 isl0 isl1 s) fun t => t.kept = s.kept := by
  simp [execBootRom]

theorem execFuseCommandDone_wf (s : State) (hw : Memory.wf s.kept.2 = true) : Goes (execFuseCommandDone s) fun t => Memory.wf t.kept.2 = true := by
  unfold execFuseCommandDone; split <;> simp [*]

end Sys2Proof.Machine
end

