-- ==== Sys2Proof/Laws/Clear.lean ====
section
/-! SUPPORT. What the operations and commands of Machine/Clear.lean keep. -/

namespace Sys2Proof.Machine

open Reg

set_option linter.unusedSimpArgs false
set_option linter.unusedVariables false

@[simp ↓] theorem State.clearRegs_kept (s : State) (pgs : List Nat) (keep : Nat → Word) : (State.clearRegs s pgs keep).kept = s.kept := by
  simp [State.clearRegs]

@[simp ↓] theorem State.clearPages_kept (s : State) (pgs : List Nat) (cause : Nat) : (State.clearPages s pgs cause).kept = s.kept := by
  unfold State.clearPages
  repeat' first
    | with_reducible rfl
    | (simp [apply_ite State.kept, *]; done)
    | split
    | rw [forEach_kept]
    | rw [foldl_kept]
    | intro _ _
    | simp
    | dsimp only

end Sys2Proof.Machine
end

