-- ==== Sys2Proof/Laws/Microcode.lean ====
section
/-! SUPPORT. What the operations and commands of Machine/Microcode.lean keep. -/

namespace Sys2Proof.Machine

open Reg

set_option linter.unusedSimpArgs false
set_option linter.unusedVariables false

@[simp ↓] theorem State.setCtx_kept (s : State) (w c : Nat) (x : Ctx) : (State.setCtx s w c x).kept = s.kept := by simp [State.setCtx]

@[simp ↓] theorem State.freeCtx_kept (s : State) (w c : Nat) (x : Ctx) : (State.freeCtx s w c x).kept = s.kept := by simp [State.freeCtx]

@[simp ↓] theorem State.ingressResult_kept (s : State) (x : Ctx) : (State.ingressResult s x).kept = s.kept := by
  simp [State.ingressResult, apply_ite State.kept]

@[simp ↓] theorem State.egressResult_kept (s : State) (x : Ctx) : (State.egressResult s x).kept = s.kept := by simp [State.egressResult]

@[simp ↓] theorem State.progCapture_kept (s : State) (x : Ctx) : (State.progCapture s x).kept = s.kept := by
  simp [State.progCapture, apply_ite State.kept]

@[simp ↓] theorem State.cutPass_kept (s : State) (x : Ctx) : (State.cutPass s x).kept = s.kept := by simp [State.cutPass, apply_ite State.kept]

@[simp ↓] theorem State.microError_kept (s : State) (w c : Nat) (x : Ctx) (cause : Nat) : (State.microError s w c x cause).kept = s.kept := by
  simp [State.microError]

@[simp ↓] theorem State.setJman_kept (s : State) (w j : Nat) (x : Jman) : (State.setJman s w j x).kept = s.kept := by simp [State.setJman]

@[simp ↓] theorem State.issued_kept (s : State) (w c : Nat) (x : Ctx) (u : UWord) : (State.issued s w c x u).kept = s.kept := by
  simp [State.issued, apply_ite State.kept]

@[simp ↓] theorem State.abandonWks_kept (s : State) (w : Nat) : (State.abandonWks s w).kept = s.kept := by
  unfold State.abandonWks
  repeat' first
    | with_reducible rfl
    | (simp [apply_ite State.kept, *]; done)
    | split
    | rw [forEach_kept]
    | rw [foldl_kept]
    | intro _ _
    | simp
    | dsimp only

@[simp ↓] theorem State.wakeThreads_kept (s : State) (w j : Nat) (acs : Bool) : (State.wakeThreads s w j acs).kept = s.kept := by
  simp [State.wakeThreads]

theorem execMicrowordIssue_kept (w : Fin 64) (j : Fin 32) (err : WErr) (s : State) : Goes (execMicrowordIssue w j err s) fun t => t.kept = s.kept := by
  unfold execMicrowordIssue; dsimp only; (repeat' split) <;> simp [*]

theorem execWatchdogExpiry_kept (w : Fin 64) (c : Fin 256) (s : State) : Goes (execWatchdogExpiry w c s) fun t => t.kept = s.kept := by
  simp [execWatchdogExpiry]

theorem execLookupResult_kept (k : Nat) (s : State) : Goes (execLookupResult k s) fun t => t.kept = s.kept := by
  unfold execLookupResult; dsimp only; (repeat' split) <;> simp [*]

end Sys2Proof.Machine
end

