-- ==== Sys2Proof/Laws/Rolling.lean ====
section
/-! SUPPORT. What the operations and commands of Machine/Rolling.lean keep. -/

namespace Sys2Proof.Machine

open Reg

set_option linter.unusedSimpArgs false
set_option linter.unusedVariables false

@[simp ↓] theorem State.askWake_kept (s : State) (n : Nat) : (State.askWake s n).kept = s.kept := by simp [State.askWake, apply_ite State.kept]

@[simp ↓] theorem State.askSleep_kept (s : State) (n : Nat) : (State.askSleep s n).kept = s.kept := by simp [State.askSleep, apply_ite State.kept]

@[simp ↓] theorem State.cstRequests_kept (s : State) : (State.cstRequests s).kept = s.kept := by
  unfold State.cstRequests
  repeat' first
    | with_reducible rfl
    | (simp [apply_ite State.kept, *]; done)
    | split
    | rw [forEach_kept]
    | rw [foldl_kept]
    | intro _ _
    | simp
    | dsimp only

@[simp ↓] theorem State.setImgBuf_kept (s : State) (b : Nat) (x : Image) : (State.setImgBuf s b x).kept = s.kept := by simp [State.setImgBuf]

@[simp ↓] theorem State.setRoll_kept (s : State) (q : Nat) (r : Option Roll) : (State.setRoll s q r).kept = s.kept := by simp [State.setRoll]

@[simp ↓] theorem State.putStore_kept (s : State) (n : Nat) (im : Image) : (State.putStore s n im).kept = s.kept := by simp [State.putStore]

@[simp ↓] theorem State.cstFinish_kept (s : State) (r : Nat) : (State.cstFinish s r).kept = s.kept := by
  unfold State.cstFinish; dsimp only; (repeat' split) <;> simp [*]

@[simp ↓] theorem State.switchRun_kept (s : State) : (State.switchRun s).kept = s.kept := by simp [State.switchRun]

@[simp ↓] theorem State.rollStart_kept (s : State) : (State.rollStart s).kept = s.kept := by unfold State.rollStart; (repeat' split) <;> simp [*]

@[simp ↓] theorem State.rollQ_kept (s : State) (q n : Nat) : (s.rollQ q n).kept = s.kept := by
  induction n generalizing s with
  | zero => rfl
  | succ n ih =>
    unfold State.rollQ
    repeat' first
      | with_reducible rfl
      | (simp [ih, apply_ite State.kept]; done)
      | split
      | dsimp only

@[simp ↓] theorem State.rollOn_kept (s : State) : (State.rollOn s).kept = s.kept := by
  unfold State.rollOn
  have one (t : State) : (forEach (List.range 4) (fun q s => s.rollQ q 8) t.rollStart.rollStart.rollStart.rollStart).kept = t.kept := by
    rw [forEach_kept _ _ _ (fun _ _ => by simp)]; simp
  simp [apply_ite State.kept, one]

@[simp ↓] theorem State.rollBack_kept (s : State) (result : Nat) : (State.rollBack s result).kept = s.kept := by simp [State.rollBack]

@[simp ↓] theorem State.wksChanged_kept (s : State) : (State.wksChanged s).kept = s.kept := by simp [State.wksChanged]

end Sys2Proof.Machine
end

