-- ==== Sys2Proof/Laws/Workshop.lean ====
section
/-! SUPPORT. What the operations and commands of Machine/Workshop.lean keep. -/

namespace Sys2Proof.Machine

open Reg

set_option linter.unusedSimpArgs false
set_option linter.unusedVariables false

@[simp ↓] theorem State.released_kept (s : State) (k id : Nat) : (State.released s k id).kept = s.kept := by
  simp [State.released, apply_ite State.kept]

theorem execDispatchGrant_kept (w : Fin 64) (c : Fin 256) (s : State) : Goes (execDispatchGrant w c s) fun t => t.kept = s.kept := by
  unfold execDispatchGrant; dsimp only; (repeat' split) <;> simp [*]

theorem execContextLoaded_kept (w : Fin 64) (c : Fin 256) (s : State) : Goes (execContextLoaded w c s) fun t => t.kept = s.kept := by
  simp [execContextLoaded]

theorem execTicketRelease_kept (slice : Fin 16) (egress headErr : Bool) (s : State) : Goes (execTicketRelease slice egress headErr s) fun t => t.kept = s.kept := by
  unfold execTicketRelease; dsimp only; (repeat' split) <;> simp [*]

theorem execTicketSkip_kept (slice : Fin 16) (egress : Bool) (s : State) : Goes (execTicketSkip slice egress s) fun t => t.kept = s.kept := by
  unfold execTicketSkip; dsimp only; (repeat' split) <;> simp [*]

theorem execWorkshopAsleep_kept (w : Fin 64) (s : State) : Goes (execWorkshopAsleep w s) fun t => t.kept = s.kept := by
  simp [execWorkshopAsleep, apply_ite State.kept]

theorem execWorkshopAwake_kept (w : Fin 64) (s : State) : Goes (execWorkshopAwake w s) fun t => t.kept = s.kept := by
  simp [execWorkshopAwake, apply_ite State.kept]

end Sys2Proof.Machine
end

