-- ==== Sys2Proof/Laws/Store.lean ====
section
/-! SUPPORT. What the operations and commands of Machine/Store.lean keep. -/

namespace Sys2Proof.Machine

open Reg

set_option linter.unusedSimpArgs false
set_option linter.unusedVariables false

@[simp ↓] theorem State.cstErr_kept (s : State) (v : Nat) : (State.cstErr s v).kept = s.kept := by simp [State.cstErr]

@[simp ↓] theorem State.cstStart_kept (s : State) (c : Nat) : (State.cstStart s c).kept = s.kept := by simp [State.cstStart, apply_ite State.kept]

@[simp ↓] theorem State.cstAbort_kept (s : State) : (State.cstAbort s).kept = s.kept := by unfold State.cstAbort; split <;> simp [*]

@[simp ↓] theorem State.cstCommand_kept (s : State) (c : Nat) : (State.cstCommand s c).kept = s.kept := by
  unfold State.cstCommand; (repeat' split) <;> simp [*]

@[simp ↓] theorem State.imageBuilt_kept (s : State) (im : Image) : (State.imageBuilt s im).kept = s.kept := by
  simp [State.imageBuilt, apply_ite State.kept]

@[simp ↓] theorem State.written_kept (s : State) (w : Nat) (r : Roll) : (State.written s w r).kept = s.kept := by
  simp [State.written, apply_ite State.kept]

@[simp ↓] theorem State.debugRead_kept (s : State) (w : Word) : (State.debugRead s w).kept = s.kept := by
  unfold State.debugRead
  repeat' first
    | with_reducible rfl
    | (simp [apply_ite State.kept, *]; done)
    | split
    | rw [forEach_kept]
    | rw [foldl_kept]
    | intro _ _
    | simp
    | dsimp only

@[simp ↓] theorem State.cstReset_kept (s : State) (cause : Nat) : (State.cstReset s cause).kept = s.kept := by
  simp [State.cstReset, apply_ite State.kept]

theorem execCstContainerChecked_kept (c : Fetched) (s : State) : Goes (execCstContainerChecked c s) fun t => t.kept = s.kept := by
  unfold execCstContainerChecked
  split
  · simp
  · split
    · simp [apply_ite State.kept]
    · rename_i x b
      have h := State.checkContainer_kept s (some 3) s.cst.len (.bytes b)
      split <;> rename_i e <;> rw [e] at h <;> simp only at h
      · simp [h]
      · split <;> simp [h]

theorem execCstLoadWritten_kept (s : State) : Goes (execCstLoadWritten s) fun t => t.kept = s.kept := by
  unfold execCstLoadWritten
  repeat' first
    | (simp [apply_ite State.kept, *]; done)
    | split
    | (simp; rw [forEach_kept])
    | (simp; rw [foldl_kept])
    | rw [forEach_kept]
    | rw [foldl_kept]
    | intro _ _
    | simp
    | dsimp only

theorem execCstPatchWorkshopDone_kept (w : Fin 64) (out : WriteOut) (s : State) : Goes (execCstPatchWorkshopDone w out s) fun t => t.kept = s.kept := by
  unfold execCstPatchWorkshopDone; split <;> simp [*]

theorem execCstRollbackDone_kept (s : State) : Goes (execCstRollbackDone s) fun t => t.kept = s.kept := by
  simp [execCstRollbackDone, apply_ite State.kept]

theorem execCstEccRewrite_kept (s : State) : Goes (execCstEccRewrite s) fun t => t.kept = s.kept := by unfold execCstEccRewrite; split <;> simp [*]

end Sys2Proof.Machine
end

