-- ==== Sys2Proof/Laws/Safe.lean ====
section
/-! SUPPORT. What the operations and commands of Machine/Safe.lean keep. -/

namespace Sys2Proof.Machine

open Reg

set_option linter.unusedSimpArgs false
set_option linter.unusedVariables false

@[simp ↓] theorem State.setTarget_kept (s : State) (sl l : Nat) : (State.setTarget s sl l).kept = s.kept := by simp [State.setTarget]

@[simp ↓] theorem State.setLevel_kept (s : State) (sl l : Nat) : (State.setLevel s sl l).kept = s.kept := by simp [State.setLevel]

@[simp ↓] theorem State.levelsGo_kept (s : State) : (State.levelsGo s).kept = s.kept := by
  unfold State.levelsGo
  repeat' first
    | with_reducible rfl
    | (simp [apply_ite State.kept, *]; done)
    | split
    | rw [forEach_kept]
    | rw [foldl_kept]
    | intro _ _
    | simp
    | dsimp only

@[simp ↓] theorem State.refreshAll_kept (s : State) : (State.refreshAll s).kept = s.kept := by
  unfold State.refreshAll
  repeat' first
    | with_reducible rfl
    | (simp [apply_ite State.kept, *]; done)
    | split
    | rw [forEach_kept]
    | rw [foldl_kept]
    | intro _ _
    | simp
    | dsimp only

@[simp ↓] theorem State.leaveSafe_kept (s : State) : (State.leaveSafe s).kept = s.kept := by simp [State.leaveSafe]

@[simp ↓] theorem State.fastStart_kept (s : State) : (State.fastStart s).kept = s.kept := by simp [State.fastStart, apply_ite State.kept]

@[simp ↓] theorem State.condEnd_kept (s : State) (kind idx : Nat) : (State.condEnd s kind idx).kept = s.kept := by simp [State.condEnd]

@[simp] theorem State.enterSafe_outside (s : State) : (State.enterSafe s).kept.1 = s.kept.1 := by
  unfold State.enterSafe
  repeat' first
    | (simp [apply_ite State.kept, apply_ite Prod.fst, *]; done)
    | split
    | (rw [forEach_outside])
    | intro _ _
    | simp
    | dsimp only

@[simp] theorem State.enterSafe_wf (s : State) (hw : Memory.wf s.kept.2 = true) : Memory.wf (State.enterSafe s).kept.2 = true := by
  unfold State.enterSafe
  repeat' first
    | (simp [apply_ite State.kept, *]; done)
    | split
    | (apply forEach_wf)
    | intro _ _ _
    | simp
    | dsimp only

@[simp] theorem State.condBegin_outside (s : State) (kind idx : Nat) : (State.condBegin s kind idx).kept.1 = s.kept.1 := by
  simp [State.condBegin, apply_ite State.kept, apply_ite Prod.fst]

@[simp] theorem State.condBegin_wf (s : State) (kind idx : Nat) (hw : Memory.wf s.kept.2 = true) : Memory.wf (State.condBegin s kind idx).kept.2 = true := by
  unfold State.condBegin; split <;> simp [*]

@[simp] theorem State.trapIsland_outside (s : State) : (State.trapIsland s).kept.1 = s.kept.1 := by
  simp [State.trapIsland, apply_ite State.kept, apply_ite Prod.fst]

@[simp] theorem State.trapIsland_wf (s : State) (hw : Memory.wf s.kept.2 = true) : Memory.wf (State.trapIsland s).kept.2 = true := by
  unfold State.trapIsland; dsimp only; (repeat' split) <;> simp [*]

theorem execLevelChangeDone_kept (sl : Fin 16) (s : State) : Goes (execLevelChangeDone sl s) fun t => t.kept = s.kept := by
  unfold execLevelChangeDone; split <;> simp [*]

end Sys2Proof.Machine
end

