-- ==== Sys2Proof/Laws/BlockReset.lean ====
section
/-! SUPPORT. What the operations and commands of Machine/BlockReset.lean keep. -/

namespace Sys2Proof.Machine

open Reg

set_option linter.unusedSimpArgs false
set_option linter.unusedVariables false

@[simp ↓] theorem State.resetLdg_kept (s pre : State) : (State.resetLdg s pre).kept = s.kept := by
  unfold State.resetLdg
  repeat' first
    | with_reducible rfl
    | (simp [apply_ite State.kept, *]; done)
    | split
    | rw [forEach_kept]
    | rw [foldl_kept]
    | intro _ _
    | simp
    | dsimp only

@[simp ↓] theorem State.resetHif_kept (s : State) : (State.resetHif s).kept = s.kept := by
  unfold State.resetHif
  repeat' first
    | with_reducible rfl
    | (simp [apply_ite State.kept, *]; done)
    | split
    | rw [forEach_kept]
    | rw [foldl_kept]
    | intro _ _
    | simp
    | dsimp only

@[simp ↓] theorem State.resetCly_kept (s : State) : (State.resetCly s).kept = s.kept := by
  unfold State.resetCly
  repeat' first
    | with_reducible rfl
    | (simp [apply_ite State.kept, *]; done)
    | split
    | rw [forEach_kept]
    | rw [foldl_kept]
    | intro _ _
    | simp
    | dsimp only

@[simp ↓] theorem State.resetSch_kept (s : State) : (State.resetSch s).kept = s.kept := by
  unfold State.resetSch
  repeat' first
    | with_reducible rfl
    | (simp [apply_ite State.kept, *]; done)
    | split
    | rw [forEach_kept]
    | rw [foldl_kept]
    | intro _ _
    | simp
    | dsimp only

@[simp ↓] theorem State.resetWks_kept (s : State) (w : Nat) : (State.resetWks s w).kept = s.kept := by
  unfold State.resetWks
  repeat' first
    | with_reducible rfl
    | (simp [apply_ite State.kept, *]; done)
    | split
    | rw [forEach_kept]
    | rw [foldl_kept]
    | intro _ _
    | simp
    | dsimp only

@[simp ↓] theorem State.resetLoom_kept (s : State) : (State.resetLoom s).kept = s.kept := by
  unfold State.resetLoom
  repeat' first
    | with_reducible rfl
    | (simp [apply_ite State.kept, *]; done)
    | split
    | rw [forEach_kept]
    | rw [foldl_kept]
    | intro _ _
    | simp
    | dsimp only

@[simp ↓] theorem State.resetPrt_kept (s : State) (up : List Nat) : (State.resetPrt s up).kept = s.kept := by
  unfold State.resetPrt
  repeat' first
    | with_reducible rfl
    | (simp [apply_ite State.kept, *]; done)
    | split
    | rw [forEach_kept]
    | rw [foldl_kept]
    | intro _ _
    | simp
    | dsimp only

@[simp ↓] theorem State.softSec_kept (s : State) : (State.softSec s).kept = s.kept := by simp [State.softSec]

@[simp ↓] theorem State.softFlt_kept (s : State) : (State.softFlt s).kept = s.kept := by simp [State.softFlt]

@[simp ↓] theorem State.softAon_kept (s : State) : (State.softAon s).kept = s.kept := by simp [State.softAon]

@[simp] theorem State.resetEffects_outside (s pre : State) (b inst : Nat) : (State.resetEffects s pre b inst).kept.1 = s.kept.1 := by
  unfold State.resetEffects; (repeat' split) <;> simp [*]

@[simp] theorem State.resetEffects_wf (s pre : State) (b inst : Nat) (hw : Memory.wf s.kept.2 = true) : Memory.wf (State.resetEffects s pre b inst).kept.2 = true := by
  unfold State.resetEffects; (repeat' split) <;> simp [*]

@[simp] theorem State.blockReset_outside (s : State) (b inst cause : Nat) : (State.blockReset s b inst cause).kept.1 = s.kept.1 := by
  unfold State.blockReset
  repeat' first
    | (simp [apply_ite State.kept, apply_ite Prod.fst, *]; done)
    | split
    | (rw [forEach_outside])
    | intro _ _
    | simp
    | dsimp only

@[simp] theorem State.blockReset_wf (s : State) (b inst cause : Nat) (hw : Memory.wf s.kept.2 = true) : Memory.wf (State.blockReset s b inst cause).kept.2 = true := by
  unfold State.blockReset
  repeat' first
    | (simp [apply_ite State.kept, *]; done)
    | split
    | (apply forEach_wf)
    | intro _ _ _
    | simp
    | dsimp only

@[simp] theorem State.softReset_outside (s : State) (pg : Nat) : (State.softReset s pg).kept.1 = s.kept.1 := by
  simp [State.softReset, apply_ite State.kept, apply_ite Prod.fst]

@[simp] theorem State.softReset_wf (s : State) (pg : Nat) (hw : Memory.wf s.kept.2 = true) : Memory.wf (State.softReset s pg).kept.2 = true := by
  unfold State.softReset; dsimp only; (repeat' split) <;> simp [*]

theorem execBlockResetDone_kept (b : Fin 24) (inst : Fin 64) (s : State) : Goes (execBlockResetDone b inst s) fun t => t.kept = s.kept := by
  simp [execBlockResetDone, apply_ite State.kept]

end Sys2Proof.Machine
end

