-- ==== Sys2Proof/Laws/Faults.lean ====
section
/-! SUPPORT. What the operations and commands of Machine/Faults.lean keep. -/

namespace Sys2Proof.Machine

open Reg

set_option linter.unusedSimpArgs false
set_option linter.unusedVariables false

@[simp ↓] theorem State.putRecord_kept (s : State) (ws : List Word) : (State.putRecord s ws).kept = s.kept := by
  simp [State.putRecord, apply_ite State.kept]

@[simp ↓] theorem State.captureFirst_kept (s : State) (ws : List Word) : (State.captureFirst s ws).kept = s.kept := by
  unfold State.captureFirst
  repeat' first
    | with_reducible rfl
    | (simp [apply_ite State.kept, *]; done)
    | split
    | rw [forEach_kept]
    | rw [foldl_kept]
    | intro _ _
    | simp
    | dsimp only

@[simp ↓] theorem State.record_kept (s : State) (r : Raise) (parent : Option Nat) (cls react : Nat) : (State.record s r parent cls react).kept = s.kept := by
  simp [State.record, apply_ite State.kept]

@[simp ↓] theorem State.nmtAck_kept (s : State) : (State.nmtAck s).kept = s.kept := by simp [State.nmtAck]

@[simp ↓] theorem State.pinRelease_kept (s : State) : (State.pinRelease s).kept = s.kept := by simp [State.pinRelease, apply_ite State.kept]

@[simp ↓] theorem State.safeExit_kept (s : State) : (State.safeExit s).kept = s.kept := by simp [State.safeExit, apply_ite State.kept]

@[simp ↓] theorem State.recordSelect_kept (s : State) (w : Word) (bad : Bool) : (State.recordSelect s w bad).kept = s.kept := by
  unfold State.recordSelect
  repeat' first
    | with_reducible rfl
    | (simp [apply_ite State.kept, *]; done)
    | split
    | rw [forEach_kept]
    | rw [foldl_kept]
    | intro _ _
    | simp
    | dsimp only

@[simp ↓] theorem State.fltSetCfg_kept (s : State) (w : Word) : (State.fltSetCfg s w).kept = s.kept := by simp [State.fltSetCfg]

@[simp] theorem State.trap_outside (s : State) : (State.trap s).kept.1 = s.kept.1 := by simp [State.trap, apply_ite State.kept, apply_ite Prod.fst]

@[simp] theorem State.trap_wf (s : State) (hw : Memory.wf s.kept.2 = true) : Memory.wf (State.trap s).kept.2 = true := by
  simp [State.trap, apply_ite State.kept, hw]

@[simp] theorem State.orderReset_outside (s : State) (b inst seq : Nat) : (State.orderReset s b inst seq).kept.1 = s.kept.1 := by
  simp [State.orderReset, apply_ite State.kept, apply_ite Prod.fst]

@[simp] theorem State.orderReset_wf (s : State) (b inst seq : Nat) (hw : Memory.wf s.kept.2 = true) : Memory.wf (State.orderReset s b inst seq).kept.2 = true := by
  simp [State.orderReset, apply_ite State.kept, hw]

@[simp] theorem State.takeReaction_outside (s : State) (r : Raise) (t seq : Nat) : (State.takeReaction s r t seq).kept.1 = s.kept.1 := by
  simp [State.takeReaction, apply_ite State.kept, apply_ite Prod.fst]

@[simp] theorem State.takeReaction_wf (s : State) (r : Raise) (t seq : Nat) (hw : Memory.wf s.kept.2 = true) : Memory.wf (State.takeReaction s r t seq).kept.2 = true := by
  unfold State.takeReaction
  repeat' first
    | (simp [apply_ite State.kept, *]; done)
    | split
    | (apply forEach_wf)
    | intro _ _ _
    | simp
    | dsimp only

@[simp] theorem State.primary_outside (s : State) (r : Raise) (t : Nat) : (State.primary s r t).kept.1 = s.kept.1 := by
  simp [State.primary, apply_ite State.kept, apply_ite Prod.fst]

@[simp] theorem State.primary_wf (s : State) (r : Raise) (t : Nat) (hw : Memory.wf s.kept.2 = true) : Memory.wf (State.primary s r t).kept.2 = true := by
  simp [State.primary, apply_ite State.kept, hw]

@[simp] theorem State.repeated_outside (s : State) (r : Raise) (x : FltSrc) : (State.repeated s r x).kept.1 = s.kept.1 := by
  simp [State.repeated, apply_ite State.kept, apply_ite Prod.fst]

@[simp] theorem State.repeated_wf (s : State) (r : Raise) (x : FltSrc) (hw : Memory.wf s.kept.2 = true) : Memory.wf (State.repeated s r x).kept.2 = true := by
  unfold State.repeated; dsimp only; (repeat' split) <;> simp [*]

@[simp] theorem State.handleRaise_outside (s : State) (r : Raise) : (State.handleRaise s r).kept.1 = s.kept.1 := by
  unfold State.handleRaise; dsimp only; (repeat' split) <;> simp [*]

@[simp] theorem State.handleRaise_wf (s : State) (r : Raise) (hw : Memory.wf s.kept.2 = true) : Memory.wf (State.handleRaise s r).kept.2 = true := by
  unfold State.handleRaise; dsimp only; (repeat' split) <;> simp [*]

theorem execShadowClose_kept (s : State) : Goes (execShadowClose s) fun t => t.kept = s.kept := by
  unfold execShadowClose; dsimp only; (repeat' split) <;> simp [*]

theorem execFaultRaise_outside (same : Nat) (bad : Bool) (s : State) : Goes (execFaultRaise same bad s) fun t => t.kept.1 = s.kept.1 := by
  unfold execFaultRaise; (repeat' split) <;> simp [*]

theorem execFaultRaise_wf (same : Nat) (bad : Bool) (s : State) (hw : Memory.wf s.kept.2 = true) : Goes (execFaultRaise same bad s) fun t => Memory.wf t.kept.2 = true := by
  unfold execFaultRaise; (repeat' split) <;> simp [*]

end Sys2Proof.Machine
end

