-- ==== Sys2Proof/Laws/Island.lean ====
section
/-! SUPPORT. What the operations and commands of Machine/Island.lean keep. -/

namespace Sys2Proof.Machine

open Reg

set_option linter.unusedSimpArgs false
set_option linter.unusedVariables false

@[simp ↓] theorem State.sampleCh_kept (s : State) (c : Nat) : (State.sampleCh s c).kept = s.kept := by simp [State.sampleCh]

@[simp ↓] theorem State.seqQuarter_kept (s : State) (q n lead : Nat) (wakes : List Nat) : (State.seqQuarter s q n lead wakes).kept = s.kept := by
  unfold State.seqQuarter; dsimp only; (repeat' split) <;> simp [*]

@[simp ↓] theorem State.beginWake_kept (s : State) (n : Nat) : (State.beginWake s n).kept = s.kept := by simp [State.beginWake]

@[simp ↓] theorem State.driveU_kept (s : State) : (State.driveU s).2.kept = s.kept := by
  unfold State.driveU; dsimp only; (repeat' split) <;> simp [*]

@[simp ↓] theorem State.setDrive_kept (s : State) (u : Int) : (State.setDrive s u).kept = s.kept := by
  unfold State.setDrive
  repeat' first
    | with_reducible rfl
    | (simp [apply_ite State.kept, *]; done)
    | split
    | rw [forEach_kept]
    | rw [foldl_kept]
    | intro _ _
    | simp
    | dsimp only

@[simp ↓] theorem State.applyTargets_kept (s : State) (held : List Nat) : (State.applyTargets s held).kept = s.kept := by
  unfold State.applyTargets
  repeat' first
    | with_reducible rfl
    | (simp [apply_ite State.kept, *]; done)
    | split
    | rw [forEach_kept]
    | rw [foldl_kept]
    | intro _ _
    | simp
    | dsimp only

@[simp ↓] theorem State.deferWakes_kept (s : State) : (State.deferWakes s).kept = s.kept := by simp [State.deferWakes, apply_ite State.kept]

@[simp ↓] theorem State.takeInputs_kept (s : State) (ain : List (BitVec 12)) (power : BitVec 16) : (State.takeInputs s ain power).kept = s.kept := by
  simp [State.takeInputs]

@[simp ↓] theorem State.wakeCtrl_kept (s : State) : (State.wakeCtrl s).kept = s.kept := by simp [State.wakeCtrl]

@[simp ↓] theorem State.islandRestart_kept (s : State) : (State.islandRestart s).kept = s.kept := by simp [State.islandRestart, apply_ite State.kept]

@[simp] theorem State.applyRules_outside (s : State) (held : List Nat) : (State.applyRules s held).kept.1 = s.kept.1 := by
  unfold State.applyRules
  repeat' first
    | (simp [apply_ite State.kept, apply_ite Prod.fst, *]; done)
    | split
    | (rw [forEach_outside])
    | intro _ _
    | simp
    | dsimp only

@[simp] theorem State.applyRules_wf (s : State) (held : List Nat) (hw : Memory.wf s.kept.2 = true) : Memory.wf (State.applyRules s held).kept.2 = true := by
  unfold State.applyRules
  repeat' first
    | (simp [apply_ite State.kept, *]; done)
    | split
    | (apply forEach_wf)
    | intro _ _ _
    | simp
    | dsimp only

@[simp] theorem State.islandOnly_outside (s : State) : (State.islandOnly s).kept.1 = s.kept.1 := by
  unfold State.islandOnly
  split
  · simp
  · extract_lets s1 src s2 s3
    have h2 : s2.kept = s.kept := by simp [s2, src, s1]
    have h3 : s3.kept = s.kept := by simp only [s3]; rw [forEach_kept _ _ _ (by simp), h2]
    clear_value s3
    split <;> simp [h3]

@[simp] theorem State.islandOnly_wf (s : State) (hw : Memory.wf s.kept.2 = true) : Memory.wf (State.islandOnly s).kept.2 = true := by
  unfold State.islandOnly
  split
  · simpa using hw
  · extract_lets s1 src s2 s3
    have h2 : s2.kept = s.kept := by simp [s2, src, s1]
    have h3 : s3.kept = s.kept := by simp only [s3]; rw [forEach_kept _ _ _ (by simp), h2]
    clear_value s3
    split <;> simp [h3, hw]

theorem execWakeBegin_kept (s : State) : Goes (execWakeBegin s) fun t => t.kept = s.kept := by unfold execWakeBegin; (repeat' split) <;> simp [*]

theorem execWakeFail_kept (w : Fin 64) (s : State) : Goes (execWakeFail w s) fun t => t.kept = s.kept := by simp [execWakeFail]

theorem execCoolPeriod_kept (s : State) : Goes (execCoolPeriod s) fun t => t.kept = s.kept := by simp [execCoolPeriod, apply_ite State.kept]

theorem execTachGate_kept (k : Fin 4) (edges : Nat) (s : State) : Goes (execTachGate k edges s) fun t => t.kept = s.kept := by
  simp [execTachGate, apply_ite State.kept]

theorem execSensorTimeout_kept (k : Fin 26) (s : State) : Goes (execSensorTimeout k s) fun t => t.kept = s.kept := by
  simp [execSensorTimeout, apply_ite State.kept]

theorem execIslandRestart_kept (s : State) : Goes (execIslandRestart s) fun t => t.kept = s.kept := by simp [execIslandRestart]

theorem execIslandControllerHalt_kept (s : State) : Goes (execIslandControllerHalt s) fun t => t.kept = s.kept := by
  simp [execIslandControllerHalt, apply_ite State.kept]

theorem execIslandTick_outside (ain : List (BitVec 12)) (power : BitVec 16) (bad : Option (Fin 128)) (s : State) : Goes (execIslandTick ain power bad s) fun t => t.kept.1 = s.kept.1 := by
  unfold execIslandTick
  split
  · simp
  · extract_lets s1 aon s2 s3 held s4 s5 dr s6
    have h1 : s1.kept = s.kept := by simp [s1]
    have h2 : s2.kept = s.kept := by
      simp only [s2]; split
      · simp [h1]
      · exact h1
    have h3 : s3.kept = s.kept := by simp only [s3]; rw [forEach_kept _ _ _ (by simp), h2]
    clear_value s3
    have h4 : s4.kept.1 = s.kept.1 := by simp [s4, h3]
    clear_value s4
    have h5 : s5.kept.1 = s.kept.1 := by simp only [s5]; split <;> simp [h4]
    clear_value s5
    have h6 : s6.kept.1 = s.kept.1 := by simp only [s6]; split <;> simp [dr, h5]
    clear_value s6
    simp [h6]

theorem execIslandTick_wf (ain : List (BitVec 12)) (power : BitVec 16) (bad : Option (Fin 128)) (s : State) (hw : Memory.wf s.kept.2 = true) : Goes (execIslandTick ain power bad s) fun t => Memory.wf t.kept.2 = true := by
  unfold execIslandTick
  split
  · simpa using hw
  · extract_lets s1 aon s2 s3 held s4 s5 dr s6
    have h1 : s1.kept = s.kept := by simp [s1]
    have h2 : s2.kept = s.kept := by
      simp only [s2]; split
      · simp [h1]
      · exact h1
    have h3 : s3.kept = s.kept := by simp only [s3]; rw [forEach_kept _ _ _ (by simp), h2]
    clear_value s3
    have h4 : Memory.wf s4.kept.2 = true := by simp [s4, h3, hw]
    clear_value s4
    have h5 : Memory.wf s5.kept.2 = true := by simp only [s5]; split <;> simp [h4]
    clear_value s5
    have h6 : Memory.wf s6.kept.2 = true := by simp only [s6]; split <;> simp [dr, h5]
    clear_value s6
    simp [h6]

theorem execDieSensorReading_outside (k : Fin 26) (t : BitVec 16) (s : State) : Goes (execDieSensorReading k t s) fun t => t.kept.1 = s.kept.1 := by
  simp [execDieSensorReading, apply_ite State.kept, apply_ite Prod.fst]

theorem execDieSensorReading_wf (k : Fin 26) (t : BitVec 16) (s : State) (hw : Memory.wf s.kept.2 = true) : Goes (execDieSensorReading k t s) fun t => Memory.wf t.kept.2 = true := by
  unfold execDieSensorReading; dsimp only; (repeat' split) <;> simp [*]

end Sys2Proof.Machine
end

