-- ==== Sys2Proof/Laws/Registers.lean ====
section
/-! SUPPORT. What the operations and commands of Machine/Registers.lean keep. -/

namespace Sys2Proof.Machine

open Reg

set_option linter.unusedSimpArgs false
set_option linter.unusedVariables false

@[simp ↓] theorem State.wakeFor_kept (s : State) (i a : Nat) : (State.wakeFor s i a).kept = s.kept := by simp [State.wakeFor, apply_ite State.kept]

@[simp ↓] theorem State.atReg_kept (s : State) (i a : Nat) (f : State → State) (hf : ∀ s, (f s).kept = s.kept) : (State.atReg s i a f).kept = s.kept := by
  unfold State.atReg; dsimp only; (repeat' split) <;> simp [*]

@[simp ↓] theorem State.atRead_kept (s : State) (i a : Nat) (f : State → Word × State) (hf : ∀ s, (f s).2.kept = s.kept) : (State.atRead s i a f).2.kept = s.kept := by
  unfold State.atRead; dsimp only; (repeat' split) <;> simp [*]

@[simp ↓] theorem State.readLo_kept (s : State) (i a : Nat) : (State.readLo s i a).2.kept = s.kept := by simp [State.readLo]

@[simp ↓] theorem State.readHi_kept (s : State) (i a : Nat) : (State.readHi s i a).2.kept = s.kept := by
  unfold State.readHi; (repeat' split) <;> simp [*]

@[simp ↓] theorem State.regRead_kept (s : State) (i a : Nat) : (State.regRead s i a).2.kept = s.kept := by
  unfold State.regRead; (repeat' split) <;> simp [*]

@[simp ↓] theorem State.plainWrite_kept (s : State) (a : Nat) (w : Word) : (State.plainWrite s a w).kept = s.kept := by
  unfold State.plainWrite; split <;> simp [*]

@[simp ↓] theorem State.writeLdg_kept (s : State) (a : Nat) (w : Word) : (State.writeLdg s a w).kept = s.kept := by
  unfold State.writeLdg; (repeat' split) <;> simp [*]

@[simp ↓] theorem State.writeFlt_kept (s : State) (a : Nat) (w : Word) : (State.writeFlt s a w).kept = s.kept := by
  simp [State.writeFlt, apply_ite State.kept]

@[simp ↓] theorem State.writeIcu_kept (s : State) (a : Nat) (w : Word) : (State.writeIcu s a w).kept = s.kept := by
  unfold State.writeIcu; (repeat' split) <;> simp [*]

@[simp ↓] theorem State.writeHif_kept (s : State) (a : Nat) (w : Word) : (State.writeHif s a w).kept = s.kept := by
  unfold State.writeHif; (repeat' split) <;> simp [*]

@[simp ↓] theorem State.writeCly_kept (s : State) (a : Nat) (w : Word) : (State.writeCly s a w).kept = s.kept := by
  unfold State.writeCly; dsimp only; (repeat' split) <;> simp [*]

@[simp ↓] theorem State.writeSch_kept (s : State) (a : Nat) (w : Word) : (State.writeSch s a w).kept = s.kept := by
  unfold State.writeSch; (repeat' split) <;> simp [*]

@[simp ↓] theorem State.writeBuf_kept (s : State) (a : Nat) (w : Word) : (State.writeBuf s a w).kept = s.kept := by
  unfold State.writeBuf; (repeat' split) <;> simp [*]

@[simp ↓] theorem State.writeCst_kept (s : State) (a : Nat) (w : Word) : (State.writeCst s a w).kept = s.kept := by
  simp [State.writeCst, apply_ite State.kept]

@[simp ↓] theorem State.holdLo_kept (s : State) (a : Nat) (w : Word) : (State.holdLo s a w).kept = s.kept := by simp [State.holdLo]

@[simp ↓] theorem State.writeHi_kept (s : State) (a : Nat) (w : Word) : (State.writeHi s a w).kept = s.kept := by
  simp [State.writeHi, apply_ite State.kept]

@[simp] theorem State.headerWrite_outside (s : State) (i a : Nat) (w : Word) : (State.headerWrite s i a w).kept.1 = s.kept.1 := by
  unfold State.headerWrite; (repeat' split) <;> simp [*]

@[simp] theorem State.headerWrite_wf (s : State) (i a : Nat) (w : Word) (hw : Memory.wf s.kept.2 = true) : Memory.wf (State.headerWrite s i a w).kept.2 = true := by
  unfold State.headerWrite; (repeat' split) <;> simp [*]

@[simp] theorem State.writeAon_outside (s : State) (a : Nat) (w : Word) : (State.writeAon s a w).kept.1 = s.kept.1 := by
  unfold State.writeAon; (repeat' split) <;> simp [*]

@[simp] theorem State.writeAon_wf (s : State) (a : Nat) (w : Word) (hw : Memory.wf s.kept.2 = true) : Memory.wf (State.writeAon s a w).kept.2 = true := by
  unfold State.writeAon; (repeat' split) <;> simp [*]

@[simp] theorem State.writeHbc_outside (s : State) (a : Nat) (w : Word) : (State.writeHbc s a w).kept.1 = s.kept.1 := by
  unfold State.writeHbc; (repeat' split) <;> simp [*]

@[simp] theorem State.writeHbc_wf (s : State) (a : Nat) (w : Word) (hw : Memory.wf s.kept.2 = true) : Memory.wf (State.writeHbc s a w).kept.2 = true := by
  unfold State.writeHbc; (repeat' split) <;> simp [*]

@[simp] theorem State.writeLive_outside (s : State) (i a : Nat) (w : Word) : (State.writeLive s i a w).kept.1 = s.kept.1 := by
  unfold State.writeLive; (repeat' split) <;> simp [*]

@[simp] theorem State.writeLive_wf (s : State) (i a : Nat) (w : Word) (hw : Memory.wf s.kept.2 = true) : Memory.wf (State.writeLive s i a w).kept.2 = true := by
  unfold State.writeLive; (repeat' split) <;> simp [*]

@[simp] theorem State.regWrite_outside (s : State) (i a : Nat) (w : Word) : (State.regWrite s i a w).kept.1 = s.kept.1 := by
  simp [State.regWrite, apply_ite State.kept, apply_ite Prod.fst]

@[simp] theorem State.regWrite_wf (s : State) (i a : Nat) (w : Word) (hw : Memory.wf s.kept.2 = true) : Memory.wf (State.regWrite s i a w).kept.2 = true := by
  unfold State.regWrite; (repeat' split) <;> simp [*]

@[simp] theorem State.atReg_outside (s : State) (i a : Nat) (f : State → State) (hf : ∀ s, (f s).kept.1 = s.kept.1) :
    (s.atReg i a f).kept.1 = s.kept.1 := by
  unfold State.atReg
  repeat' first
    | (simp [hf]; done)
    | split
    | dsimp only

@[simp] theorem State.atReg_wf (s : State) (i a : Nat) (f : State → State)
    (hf : ∀ s, Memory.wf s.kept.2 = true → Memory.wf (f s).kept.2 = true) (hw : Memory.wf s.kept.2 = true) :
    Memory.wf (s.atReg i a f).kept.2 = true := by
  unfold State.atReg
  repeat' first
    | (simp [hw]; done)
    | split
    | (apply hf; simp [hw])
    | dsimp only

end Sys2Proof.Machine
end

