-- ==== Sys2Proof/Laws/Access.lean ====
section
/-! SUPPORT. What an access of an initiator does when it reaches its register, and when it does not. -/

namespace Sys2Proof.Machine

/-- An access that reaches its register has the register's effect and no other. -/
theorem State.atReg_of_reaches (s : State) (i a : Nat) (f : State → State) (h : s.reaches i a = true) : s.atReg i a f = f s := by
  simp only [State.reaches, Bool.and_eq_true, Bool.not_eq_true', Option.isNone_iff_eq_none] at h
  obtain ⟨⟨⟨h1, h2⟩, h3⟩, h4⟩ := h
  simp [State.atReg, State.wakeFor, h1, h2, h3, h4]

/-- A read that reaches its register answers with the register's word and effect. -/
theorem State.atRead_of_reaches (s : State) (i a : Nat) (f : State → Word × State) (h : s.reaches i a = true) : s.atRead i a f = f s := by
  simp only [State.reaches, Bool.and_eq_true, Bool.not_eq_true', Option.isNone_iff_eq_none] at h
  obtain ⟨⟨⟨h1, h2⟩, h3⟩, h4⟩ := h
  simp [State.atRead, State.wakeFor, h1, h2, h3, h4]

/-- An access to a device held in reset has no effect. -/
theorem State.atReg_of_held (s : State) (i a : Nat) (f : State → State) (h : s.held = true) : s.atReg i a f = s := by
  simp [State.atReg, h]

end Sys2Proof.Machine
end

