-- ==== Sys2Proof/Laws/Commands.lean ====
section
/-! SUPPORT. What the operations and commands of Machine/Commands.lean keep. -/

namespace Sys2Proof.Machine

open Reg

set_option linter.unusedSimpArgs false
set_option linter.unusedVariables false

@[simp ↓] theorem State.badAccess_kept (s : State) (i a : Nat) : (State.badAccess s i a).kept = s.kept := by
  simp [State.badAccess, apply_ite State.kept]

theorem execBar0InvalidAccess_kept (i : Fin 5) (addr : BitVec 27) (len : Nat) (write : Bool) (s : State) : Goes (execBar0InvalidAccess i addr len write s) fun t => t.kept = s.kept := by
  simp [execBar0InvalidAccess, apply_ite State.kept]

theorem execLoRegisterRead_kept (i : Fin 5) (addr : BitVec 27) (wide : Bool) (s : State) : Goes (execLoRegisterRead i addr wide s) fun t => t.kept = s.kept := by
  unfold execLoRegisterRead; dsimp only; (repeat' split) <;> simp [*]

theorem execHiRegisterRead_kept (i : Fin 5) (addr : BitVec 27) (s : State) : Goes (execHiRegisterRead i addr s) fun t => t.kept = s.kept := by
  simp [execHiRegisterRead]

theorem execRw64LoWrite_kept (i : Fin 5) (addr : BitVec 27) (w : Word) (s : State) : Goes (execRw64LoWrite i addr w s) fun t => t.kept = s.kept := by
  simp [execRw64LoWrite, apply_ite State.kept]

theorem execRw64HiWrite_kept (i : Fin 5) (addr : BitVec 27) (w : Word) (s : State) : Goes (execRw64HiWrite i addr w s) fun t => t.kept = s.kept := by
  simp [execRw64HiWrite, apply_ite State.kept]

theorem execStagedWrite_kept (i : Fin 5) (addr : BitVec 27) (w : Word) (s : State) : Goes (execStagedWrite i addr w s) fun t => t.kept = s.kept := by
  simp [execStagedWrite, apply_ite State.kept]

theorem execBar4Read_kept (off : Word) (n : Fin 257) (bad : Bool) (s : State) : Goes (execBar4Read off n bad s) fun t => t.kept = s.kept := by
  simp [execBar4Read]

theorem execBar4Write_kept (s : State) : Goes (execBar4Write s) fun t => t.kept = s.kept := by simp [execBar4Write, apply_ite State.kept]

theorem execBar2InvalidAccess_kept (off : BitVec 26) (n : Fin 9) (write : Bool) (s : State) : Goes (execBar2InvalidAccess off n write s) fun t => t.kept = s.kept := by
  simp [execBar2InvalidAccess, apply_ite State.kept]

theorem execClaim_kept (i : Fin 5) (t : Fin 257) (s : State) : Goes (execClaim i t s) fun t => t.kept = s.kept := by simp [execClaim]

theorem execTimeRead_kept (i : Fin 5) (s : State) : Goes (execTimeRead i s) fun t => t.kept = s.kept := by simp [execTimeRead]

theorem execPpsInRead_kept (i : Fin 5) (s : State) : Goes (execPpsInRead i s) fun t => t.kept = s.kept := by simp [execPpsInRead]

theorem execBegin_kept (i : Fin 5) (s : State) : Goes (execBegin i s) fun t => t.kept = s.kept := by simp [execBegin]

theorem execCommit_kept (i : Fin 5) (s : State) : Goes (execCommit i s) fun t => t.kept = s.kept := by simp [execCommit]

theorem execRollback_kept (i : Fin 5) (s : State) : Goes (execRollback i s) fun t => t.kept = s.kept := by simp [execRollback]

theorem execRetireOldest_kept (i : Fin 5) (s : State) : Goes (execRetireOldest i s) fun t => t.kept = s.kept := by simp [execRetireOldest]

theorem execCcPrepare_kept (i : Fin 5) (s : State) : Goes (execCcPrepare i s) fun t => t.kept = s.kept := by simp [execCcPrepare]

theorem execCcAbort_kept (i : Fin 5) (s : State) : Goes (execCcAbort i s) fun t => t.kept = s.kept := by simp [execCcAbort]

theorem execXmtJobStart_kept (i : Fin 5) (tid : Fin 256) (count : BitVec 16) (s : State) : Goes (execXmtJobStart i tid count s) fun t => t.kept = s.kept := by
  simp [execXmtJobStart]

theorem execXmtJobAbort_kept (i : Fin 5) (s : State) : Goes (execXmtJobAbort i s) fun t => t.kept = s.kept := by simp [execXmtJobAbort]

theorem execLpmJobStart_kept (i : Fin 5) (count : BitVec 16) (s : State) : Goes (execLpmJobStart i count s) fun t => t.kept = s.kept := by
  simp [execLpmJobStart]

theorem execLpmJobAbort_kept (i : Fin 5) (s : State) : Goes (execLpmJobAbort i s) fun t => t.kept = s.kept := by simp [execLpmJobAbort]

theorem execObjJobStart_kept (i : Fin 5) (count : BitVec 16) (s : State) : Goes (execObjJobStart i count s) fun t => t.kept = s.kept := by
  simp [execObjJobStart]

theorem execObjJobAbort_kept (i : Fin 5) (s : State) : Goes (execObjJobAbort i s) fun t => t.kept = s.kept := by simp [execObjJobAbort]

theorem execAcsJobStart_kept (i : Fin 5) (count : BitVec 16) (s : State) : Goes (execAcsJobStart i count s) fun t => t.kept = s.kept := by
  simp [execAcsJobStart]

theorem execAcsJobAbort_kept (i : Fin 5) (s : State) : Goes (execAcsJobAbort i s) fun t => t.kept = s.kept := by simp [execAcsJobAbort]

theorem execVoqMapWrite_kept (i : Fin 5) (s : State) : Goes (execVoqMapWrite i s) fun t => t.kept = s.kept := by simp [execVoqMapWrite]

theorem execVoqMapRead_kept (i : Fin 5) (s : State) : Goes (execVoqMapRead i s) fun t => t.kept = s.kept := by simp [execVoqMapRead]

theorem execPolicerWrite_kept (i : Fin 5) (s : State) : Goes (execPolicerWrite i s) fun t => t.kept = s.kept := by simp [execPolicerWrite]

theorem execPolicerRead_kept (i : Fin 5) (s : State) : Goes (execPolicerRead i s) fun t => t.kept = s.kept := by simp [execPolicerRead]

theorem execGateWrite_kept (i : Fin 5) (s : State) : Goes (execGateWrite i s) fun t => t.kept = s.kept := by simp [execGateWrite]

theorem execGateRead_kept (i : Fin 5) (s : State) : Goes (execGateRead i s) fun t => t.kept = s.kept := by simp [execGateRead]

theorem execSampleSelect_kept (i : Fin 5) (queue : Fin 4096) (s : State) : Goes (execSampleSelect i queue s) fun t => t.kept = s.kept := by
  simp [execSampleSelect]

theorem execGmemWrite_kept (i : Fin 5) (slice : Fin 16) (s : State) : Goes (execGmemWrite i slice s) fun t => t.kept = s.kept := by
  simp [execGmemWrite]

theorem execGmemRead_kept (i : Fin 5) (slice : Fin 16) (s : State) : Goes (execGmemRead i slice s) fun t => t.kept = s.kept := by simp [execGmemRead]

theorem execHostNotice_kept (i : Fin 5) (w : Word) (s : State) : Goes (execHostNotice i w s) fun t => t.kept = s.kept := by simp [execHostNotice]

theorem execRemoteWrite_kept (i : Fin 5) (s : State) : Goes (execRemoteWrite i s) fun t => t.kept = s.kept := by simp [execRemoteWrite]

theorem execRemoteRead_kept (i : Fin 5) (s : State) : Goes (execRemoteRead i s) fun t => t.kept = s.kept := by simp [execRemoteRead]

theorem execHandover_kept (i : Fin 5) (s : State) : Goes (execHandover i s) fun t => t.kept = s.kept := by simp [execHandover]

theorem execRehearse_kept (i : Fin 5) (s : State) : Goes (execRehearse i s) fun t => t.kept = s.kept := by simp [execRehearse]

theorem execReachWrite_kept (i : Fin 5) (s : State) : Goes (execReachWrite i s) fun t => t.kept = s.kept := by simp [execReachWrite]

theorem execReachRead_kept (i : Fin 5) (s : State) : Goes (execReachRead i s) fun t => t.kept = s.kept := by simp [execReachRead]

theorem execPuntWrite_kept (i : Fin 5) (t : Fin 8) (w : Word) (s : State) : Goes (execPuntWrite i t w s) fun t => t.kept = s.kept := by
  simp [execPuntWrite]

theorem execCstLoad_kept (i : Fin 5) (s : State) : Goes (execCstLoad i s) fun t => t.kept = s.kept := by simp [execCstLoad]

theorem execCstPatch_kept (i : Fin 5) (s : State) : Goes (execCstPatch i s) fun t => t.kept = s.kept := by simp [execCstPatch]

theorem execCstAbort_kept (i : Fin 5) (s : State) : Goes (execCstAbort i s) fun t => t.kept = s.kept := by simp [execCstAbort]

theorem execCstDebugRead_kept (i : Fin 5) (w : Word) (s : State) : Goes (execCstDebugRead i w s) fun t => t.kept = s.kept := by
  simp [execCstDebugRead]

theorem execSecLoad_kept (i : Fin 5) (s : State) : Goes (execSecLoad i s) fun t => t.kept = s.kept := by simp [execSecLoad]

theorem execAttest_kept (i : Fin 5) (s : State) : Goes (execAttest i s) fun t => t.kept = s.kept := by simp [execAttest]

theorem execSvnAdvance_kept (i : Fin 5) (s : State) : Goes (execSvnAdvance i s) fun t => t.kept = s.kept := by simp [execSvnAdvance]

theorem execRevoke_kept (i : Fin 5) (s : State) : Goes (execRevoke i s) fun t => t.kept = s.kept := by simp [execRevoke]

theorem execRecover_kept (i : Fin 5) (s : State) : Goes (execRecover i s) fun t => t.kept = s.kept := by simp [execRecover]

theorem execSrefExit_kept (i : Fin 5) (h : Fin 6) (s : State) : Goes (execSrefExit i h s) fun t => t.kept = s.kept := by simp [execSrefExit]

theorem execPendSet_kept (i : Fin 5) (n : Fin 4096) (clr : Bool) (s : State) : Goes (execPendSet i n clr s) fun t => t.kept = s.kept := by
  simp [execPendSet]

theorem execSourceConfigWrite_kept (i : Fin 5) (w : Word) (s : State) : Goes (execSourceConfigWrite i w s) fun t => t.kept = s.kept := by
  simp [execSourceConfigWrite]

theorem execEoi_kept (i : Fin 5) (t : Fin 257) (n : Fin 4096) (s : State) : Goes (execEoi i t n s) fun t => t.kept = s.kept := by simp [execEoi]

theorem execRingWrite_kept (i : Fin 5) (s : State) : Goes (execRingWrite i s) fun t => t.kept = s.kept := by simp [execRingWrite]

theorem execRingRead_kept (i : Fin 5) (s : State) : Goes (execRingRead i s) fun t => t.kept = s.kept := by simp [execRingRead]

theorem execCounterWrite_kept (i : Fin 5) (clear : Bool) (s : State) : Goes (execCounterWrite i clear s) fun t => t.kept = s.kept := by
  simp [execCounterWrite]

theorem execCounterRead_kept (i : Fin 5) (s : State) : Goes (execCounterRead i s) fun t => t.kept = s.kept := by simp [execCounterRead]

theorem execTimeSet_kept (i : Fin 5) (s : State) : Goes (execTimeSet i s) fun t => t.kept = s.kept := by simp [execTimeSet]

theorem execTimeStep_kept (i : Fin 5) (s : State) : Goes (execTimeStep i s) fun t => t.kept = s.kept := by simp [execTimeStep]

theorem execNmtAck_kept (i : Fin 5) (s : State) : Goes (execNmtAck i s) fun t => t.kept = s.kept := by simp [execNmtAck]

theorem execErrorPinRelease_kept (i : Fin 5) (s : State) : Goes (execErrorPinRelease i s) fun t => t.kept = s.kept := by simp [execErrorPinRelease]

theorem execSafeStateExit_kept (i : Fin 5) (s : State) : Goes (execSafeStateExit i s) fun t => t.kept = s.kept := by simp [execSafeStateExit]

theorem execFirstRearm_kept (i : Fin 5) (s : State) : Goes (execFirstRearm i s) fun t => t.kept = s.kept := by simp [execFirstRearm]

theorem execRecordSelect_kept (i : Fin 5) (w : Word) (bad : Bool) (s : State) : Goes (execRecordSelect i w bad s) fun t => t.kept = s.kept := by
  simp [execRecordSelect]

theorem execWakeCtrl_kept (i : Fin 5) (s : State) : Goes (execWakeCtrl i s) fun t => t.kept = s.kept := by simp [execWakeCtrl]

theorem execRegisterWrite_outside (i : Fin 5) (addr : BitVec 27) (w : Word) (hi : Option Word) (s : State) : Goes (execRegisterWrite i addr w hi s) fun t => t.kept.1 = s.kept.1 := by
  unfold execRegisterWrite; dsimp only; (repeat' split) <;> simp [*]

theorem execRegisterWrite_wf (i : Fin 5) (addr : BitVec 27) (w : Word) (hi : Option Word) (s : State) (hw : Memory.wf s.kept.2 = true) : Goes (execRegisterWrite i addr w hi s) fun t => Memory.wf t.kept.2 = true := by
  unfold execRegisterWrite
  repeat' first
    | (simp [apply_ite State.kept, *]; done)
    | split
    | (apply forEach_wf)
    | (refine State.atReg_wf _ _ _ _ (fun _ _ => ?_) ?_)
    | intro _ _ _
    | simp
    | dsimp only

theorem execSoftReset_outside (i : Fin 5) (b : Fin 24) (page : Fin 256) (en : Bool) (s : State) : Goes (execSoftReset i b page en s) fun t => t.kept.1 = s.kept.1 := by
  simp [execSoftReset, apply_ite State.kept, apply_ite Prod.fst]

theorem execSoftReset_wf (i : Fin 5) (b : Fin 24) (page : Fin 256) (en : Bool) (s : State) (hw : Memory.wf s.kept.2 = true) : Goes (execSoftReset i b page en s) fun t => Memory.wf t.kept.2 = true := by
  unfold execSoftReset
  repeat' first
    | (simp [apply_ite State.kept, *]; done)
    | split
    | (apply forEach_wf)
    | (refine State.atReg_wf _ _ _ _ (fun _ _ => ?_) ?_)
    | intro _ _ _
    | simp
    | dsimp only

theorem execHbcTrain_outside (i : Fin 5) (h : Fin 6) (s : State) : Goes (execHbcTrain i h s) fun t => t.kept.1 = s.kept.1 := by simp [execHbcTrain]

theorem execHbcTrain_wf (i : Fin 5) (h : Fin 6) (s : State) (hw : Memory.wf s.kept.2 = true) : Goes (execHbcTrain i h s) fun t => Memory.wf t.kept.2 = true := by
  unfold execHbcTrain
  repeat' first
    | (simp [apply_ite State.kept, *]; done)
    | split
    | (apply forEach_wf)
    | (refine State.atReg_wf _ _ _ _ (fun _ _ => ?_) ?_)
    | intro _ _ _
    | simp
    | dsimp only

theorem execHbcTest_outside (i : Fin 5) (h : Fin 6) (s : State) : Goes (execHbcTest i h s) fun t => t.kept.1 = s.kept.1 := by simp [execHbcTest]

theorem execHbcTest_wf (i : Fin 5) (h : Fin 6) (s : State) (hw : Memory.wf s.kept.2 = true) : Goes (execHbcTest i h s) fun t => Memory.wf t.kept.2 = true := by
  unfold execHbcTest
  repeat' first
    | (simp [apply_ite State.kept, *]; done)
    | split
    | (apply forEach_wf)
    | (refine State.atReg_wf _ _ _ _ (fun _ _ => ?_) ?_)
    | intro _ _ _
    | simp
    | dsimp only

theorem execSrefEnter_outside (i : Fin 5) (h : Fin 6) (s : State) : Goes (execSrefEnter i h s) fun t => t.kept.1 = s.kept.1 := by
  simp [execSrefEnter]

theorem execSrefEnter_wf (i : Fin 5) (h : Fin 6) (s : State) (hw : Memory.wf s.kept.2 = true) : Goes (execSrefEnter i h s) fun t => Memory.wf t.kept.2 = true := by
  unfold execSrefEnter
  repeat' first
    | (simp [apply_ite State.kept, *]; done)
    | split
    | (apply forEach_wf)
    | (refine State.atReg_wf _ _ _ _ (fun _ _ => ?_) ?_)
    | intro _ _ _
    | simp
    | dsimp only

theorem execIslandOnly_outside (i : Fin 5) (s : State) : Goes (execIslandOnly i s) fun t => t.kept.1 = s.kept.1 := by simp [execIslandOnly]

theorem execIslandOnly_wf (i : Fin 5) (s : State) (hw : Memory.wf s.kept.2 = true) : Goes (execIslandOnly i s) fun t => Memory.wf t.kept.2 = true := by
  unfold execIslandOnly
  repeat' first
    | (simp [apply_ite State.kept, *]; done)
    | split
    | (apply forEach_wf)
    | (refine State.atReg_wf _ _ _ _ (fun _ _ => ?_) ?_)
    | intro _ _ _
    | simp
    | dsimp only

end Sys2Proof.Machine
end

