-- ==== Sys2Proof/Laws/Remote.lean ====
section
/-! SUPPORT. What the operations and commands of Machine/Remote.lean keep. -/

namespace Sys2Proof.Machine

open Reg

set_option linter.unusedSimpArgs false
set_option linter.unusedVariables false

@[simp ↓] theorem State.ackAccess_kept (s : State) (src tag : Nat) (refused : Bool) (w : Word) : (State.ackAccess s src tag refused w).kept = s.kept := by
  simp [State.ackAccess]

@[simp ↓] theorem State.remoteBad_kept (s : State) (a : Nat) : (State.remoteBad s a).kept = s.kept := by simp [State.remoteBad, apply_ite State.kept]

@[simp ↓] theorem State.remoteRead_kept (s : State) (src tag a : Nat) : (State.remoteRead s src tag a).kept = s.kept := by
  simp [State.remoteRead, apply_ite State.kept]

@[simp] theorem State.remoteWrite_outside (s : State) (src tag a : Nat) (w : Word) : (State.remoteWrite s src tag a w).kept.1 = s.kept.1 := by
  simp [State.remoteWrite, apply_ite State.kept, apply_ite Prod.fst]

@[simp] theorem State.remoteWrite_wf (s : State) (src tag a : Nat) (w : Word) (hw : Memory.wf s.kept.2 = true) : Memory.wf (State.remoteWrite s src tag a w).kept.2 = true := by
  unfold State.remoteWrite
  repeat' first
    | (simp [apply_ite State.kept, *]; done)
    | split
    | (apply forEach_wf)
    | (refine State.atReg_wf _ _ _ _ (fun _ _ => ?_) ?_)
    | intro _ _ _
    | simp
    | dsimp only

theorem execRegrdMessage_kept (s : State) : Goes (execRegrdMessage s) fun t => t.kept = s.kept := by
  unfold execRegrdMessage
  repeat' first
    | (simp [apply_ite State.kept, *]; done)
    | split
    | (have := State.popMsg_kept ‹_›; simp [*]; done)
    | (have := State.popLink_kept ‹_›; simp [*]; done)
    | (simp; rw [forEach_kept])
    | (simp; rw [foldl_kept])
    | rw [forEach_kept]
    | rw [foldl_kept]
    | intro _ _
    | simp
    | dsimp only

theorem execRegwrMessage_outside (s : State) : Goes (execRegwrMessage s) fun t => t.kept.1 = s.kept.1 := by
  unfold execRegwrMessage
  split
  · simp
  · have h := State.popMsg_kept ‹_›
    split
    · simp [h]
    · split <;> simp [h]

theorem execRegwrMessage_wf (s : State) (hw : Memory.wf s.kept.2 = true) : Goes (execRegwrMessage s) fun t => Memory.wf t.kept.2 = true := by
  unfold execRegwrMessage
  split
  · simpa using hw
  · have h := State.popMsg_kept ‹_›
    split
    · simp [h, hw]
    · split
      · simp [h, hw]
      · simp only [Goes_next]
        refine State.remoteWrite_wf _ _ _ _ _ ?_
        simp [h, hw]

end Sys2Proof.Machine
end

