-- ==== Sys2Proof/Laws/Switch.lean ====
section
/-! SUPPORT. What the operations and commands of Machine/Switch.lean keep. -/

namespace Sys2Proof.Machine

open Reg

set_option linter.unusedSimpArgs false
set_option linter.unusedVariables false

@[simp ↓] theorem State.bufErr_kept (s : State) : (State.bufErr s).kept = s.kept := by simp [State.bufErr]

@[simp ↓] theorem State.switchBuf_kept (s : State) (old : Nat → Word) : (State.switchBuf s old).kept = s.kept := by
  unfold State.switchBuf
  repeat' first
    | with_reducible rfl
    | (simp [apply_ite State.kept, *]; done)
    | split
    | rw [forEach_kept]
    | rw [foldl_kept]
    | intro _ _
    | simp
    | dsimp only

@[simp ↓] theorem State.switchVoq_kept (s : State) (old : Nat → Word) : (State.switchVoq s old).kept = s.kept := by
  simp [State.switchVoq, apply_ite State.kept]

@[simp ↓] theorem State.hbcErr_kept (s : State) : (State.hbcErr s).kept = s.kept := by simp [State.hbcErr]

@[simp ↓] theorem State.switchHbc_kept (s : State) (old : Nat → Word) : (State.switchHbc s old).kept = s.kept := by
  simp [State.switchHbc, apply_ite State.kept]

@[simp ↓] theorem State.switchPort_kept (s : State) (old : Nat → Word) (p : Nat) : (State.switchPort s old p).kept = s.kept := by
  simp [State.switchPort, apply_ite State.kept]

@[simp ↓] theorem State.switchSch_kept (s : State) (old : Nat → Word) : (State.switchSch s old).kept = s.kept := by
  unfold State.switchSch
  repeat' first
    | with_reducible rfl
    | (simp [apply_ite State.kept, *]; done)
    | split
    | rw [forEach_kept]
    | rw [foldl_kept]
    | intro _ _
    | simp
    | dsimp only

@[simp ↓] theorem State.switchCly_kept (s : State) (old : Nat → Word) : (State.switchCly s old).kept = s.kept := by
  simp [State.switchCly, apply_ite State.kept]

@[simp ↓] theorem State.switchAon_kept (s : State) (ws : List Nat) : (State.switchAon s ws).kept = s.kept := by simp [State.switchAon]

@[simp ↓] theorem State.switchEffects_kept (s : State) (b : Nat) (old : Nat → Word) (ws : List Nat) : (State.switchEffects s b old ws).kept = s.kept := by
  unfold State.switchEffects; split <;> simp [*]

@[simp ↓] theorem State.switchBlock_kept (s : State) (b : Nat) : (State.switchBlock s b).kept = s.kept := by simp [State.switchBlock]

@[simp ↓] theorem State.switched_kept (s : State) (b : Nat) : (State.switched s b).kept = s.kept := by
  unfold State.switched; dsimp only; (repeat' split) <;> simp [*]

theorem execBlockSwitch_kept (b : Fin 24) (s : State) : Goes (execBlockSwitch b s) fun t => t.kept = s.kept := by
  simp [execBlockSwitch, apply_ite State.kept]

end Sys2Proof.Machine
end

