-- ==== Sys2Proof/Laws/Resets.lean ====
section
/-! SUPPORT. What the operations and commands of Machine/Resets.lean keep. -/

namespace Sys2Proof.Machine

open Reg

set_option linter.unusedSimpArgs false
set_option linter.unusedVariables false

@[simp ↓] theorem State.loadCause_kept (s : State) (w : Word) : (State.loadCause s w).kept = s.kept := by
  unfold State.loadCause
  repeat' first
    | with_reducible rfl
    | (simp [apply_ite State.kept, *]; done)
    | split
    | rw [forEach_kept]
    | rw [foldl_kept]
    | intro _ _
    | simp
    | dsimp only

@[simp ↓] theorem State.keepIsland_kept (t s : State) : (State.keepIsland t s).kept = t.kept := by simp [State.keepIsland]

@[simp ↓] theorem State.keepFaults_kept (t s : State) : (State.keepFaults t s).kept = t.kept := by
  unfold State.keepFaults
  repeat' first
    | with_reducible rfl
    | (simp [apply_ite State.kept, *]; done)
    | split
    | rw [forEach_kept]
    | rw [foldl_kept]
    | intro _ _
    | simp
    | dsimp only

@[simp] theorem State.cleared_hbm (s : State) : s.cleared.kept.2 = [] := by
  unfold State.cleared State.kept; exact Eq.refl _

@[simp] theorem Memory.wf_nil : Memory.wf [] = true := rfl

@[simp] theorem State.cleared_hbm_field (s : State) : s.cleared.hbm = [] := rfl

theorem execPcieReset_kept (linkDown : Bool) (s : State) : Goes (execPcieReset linkDown s) fun t => t.kept = s.kept := by
  simp [execPcieReset, apply_ite State.kept]

theorem execPowerOnReset_wf (blown : Nat) (s : State) (hw : Memory.wf s.kept.2 = true) : Goes (execPowerOnReset blown s) fun t => Memory.wf t.kept.2 = true := by
  simp [execPowerOnReset, hw]

theorem execPinReset_wf (blown : Nat) (s : State) (hw : Memory.wf s.kept.2 = true) : Goes (execPinReset blown s) fun t => Memory.wf t.kept.2 = true := by
  simp [execPinReset, hw]

theorem execChipReset_wf (blown : Nat) (s : State) (hw : Memory.wf s.kept.2 = true) : Goes (execChipReset blown s) fun t => Memory.wf t.kept.2 = true := by
  unfold execChipReset; split <;> simp [*]

end Sys2Proof.Machine
end

