-- ==== Sys2Proof/Machine/Package.lean ====
section
/-! DEFINITION. The package (23): which ball stands at a position of the array and what it carries, the lanes' balls, and the code of an
analogue input. Nothing here changes with a command; the other chapters name pins by these names. -/

namespace Sys2Proof.Machine

/-- The letters of rows, by index (R495). -/
def rowLetters : List String := ["A", "B", "C", "D", "E", "F", "G", "H", "J", "K", "L", "M", "N", "P", "T", "U", "V", "W", "Y"]

/-- The name of row `i`, 1 to 110 from the north edge (R495). -/
def rowName (i : Nat) : String :=
  if i ≤ 19 then rowLetters.getD (i - 1) "" else rowLetters.getD ((i - 20) / 19) "" ++ rowLetters.getD ((i - 20) % 19) ""

/-- The name of a ball's place (R495). -/
def ballPlace (i j : Nat) : String := rowName i ++ toString j

/-- No ball stands at the place (R496): the four corners and the twenty places of rows BU–BY. -/
def depopulated (i j : Nat) : Bool :=
  decide (min (i - 1) (110 - i) + min (j - 1) (110 - j) ≤ 7) || (decide (54 ≤ i) && decide (i ≤ 57) && decide (54 ≤ j) && decide (j ≤ 58)) 

/-- The place on quarter `q`'s edge at depth `v` and coordinate `u` (R498). -/
def edgePlace (q u v : Nat) : Nat × Nat :=
  match q with
  | 0 => (v, u)
  | 1 => (u, 111 - v)
  | 2 => (111 - v, u)
  | _ => (u, v)

/-- The place of a ball of lane `l`: transmit or receive, P or N (R498). -/
def lanePlace (l : Nat) (tx pos : Bool) : Nat × Nat :=
  edgePlace (l / 64) (24 + 2 * (l % 64 % 32) + (if pos then 0 else 1)) ((if tx then 2 else 4) + 4 * (l % 64 / 32))

/-- A number in a fixed count of decimal digits. -/
def digits : Nat → Nat → String
  | 0, _ => ""
  | n + 1, x => digits n (x / 10) ++ toString (x % 10)

/-- The name of a ball of lane `l` (R498). -/
def laneName (l : Nat) (tx pos : Bool) : String := "LN_" ++ (if tx then "TX" else "RX") ++ (if pos then "P_" else "N_") ++ digits 3 l

/-- Coordinates of a place seen from quarter `q`'s edge: along it and from it (R498). -/
def edgeCoord (q i j : Nat) : Nat × Nat :=
  match q with
  | 0 => (j, i)
  | 1 => (i, 111 - j)
  | 2 => (j, 111 - i)
  | _ => (i, j)

/-- The place lies in the lane field of quarter `q` (R498). -/
def inLaneField (q i j : Nat) : Bool :=
  let c := edgeCoord q i j
  decide (24 ≤ c.1) && decide (c.1 ≤ 87) && decide (1 ≤ c.2) && decide (c.2 ≤ 8)

/-- The lane ball at a place, if it is one (R498). -/
def laneAt (i j : Nat) : Option String :=
  (List.range 4).findSome? fun q =>
    let c := edgeCoord q i j
    if inLaneField q i j && c.2 % 2 == 0 then
      some (laneName (64 * q + (if 6 ≤ c.2 then 32 else 0) + (c.1 - 24) / 2) (c.2 % 4 == 2) (c.1 % 2 == 0))
    else none

/-- The place lies in the PCIe field (R499). -/
def inPcieField (i j : Nat) : Bool := decide (24 ≤ i) && decide (i ≤ 55) && decide (9 ≤ j) && decide (j ≤ 13)

/-- The PCIe ball at a place, if it is one (R499). -/
def pcieAt (i j : Nat) : Option String :=
  if inPcieField i j && (j == 10 || j == 12) then
    some ("PCIE_" ++ (if j = 10 then "TX" else "RX") ++ (if i % 2 = 0 then "P_" else "N_") ++ digits 2 ((i - 24) / 2))
  else none

/-- Balls of consecutive columns of one row, numbered from 0. -/
def rowOf (name row : String) (col n first step : Nat) : List (String × String) :=
  (List.range n).map fun k => (row ++ toString (col + step * k), name ++ toString (first + k))

/-- The signal groups of Table 23.1. -/
def groupBalls : List (String × String) :=
  [("J54", "REFCLK_SER_P0"), ("J55", "REFCLK_SER_N0"), ("BU102", "REFCLK_SER_P1"), ("BV102", "REFCLK_SER_N1"),
   ("EG54", "REFCLK_SER_P2"), ("EG55", "REFCLK_SER_N2"), ("CC9", "REFCLK_SER_P3"), ("CD9", "REFCLK_SER_N3")] ++
  rowOf "GPIO" "M" 12 8 0 1 ++ rowOf "GPIO" "N" 12 8 8 1 ++ rowOf "I2C_SCL" "P" 12 4 0 2 ++ rowOf "I2C_SDA" "P" 13 4 0 2 ++
  rowOf "AIN" "T" 12 8 0 1 ++ rowOf "PWM_FAN" "U" 12 3 0 1 ++ [("U15", "PWM_PUMP")] ++ rowOf "TACH" "U" 16 4 0 1 ++
  rowOf "VALVE" "V" 12 2 0 1 ++ rowOf "SYNCE_OUT" "V" 14 2 0 1 ++ rowOf "STRAP" "V" 16 4 0 1 ++
  rowOf "LRN_CLK" "W" 12 8 0 1 ++ rowOf "LRN_DAT" "Y" 12 8 0 1 ++ rowOf "LRN_ACK" "AA" 12 8 0 1

/-- The single balls of Table 23.2. -/
def singleBalls : List (String × String) :=
  [("AB12", "REFCLK25"), ("AB13", "RESET_N"), ("AB14", "PERST_N"), ("AB15", "ERROR_N"), ("AB16", "PPS_IN"), ("AB17", "PPS_OUT"),
   ("AB18", "AIN_REF"), ("AB19", "THERM_D_P"), ("AC12", "THERM_D_N"), ("AC13", "QSPI_CLK"), ("AC14", "QSPI_CS_N")] ++
  rowOf "QSPI_D" "AC" 15 4 0 1 ++
  [("AC19", "TCK"), ("AD12", "TMS"), ("AD13", "TDI"), ("AD14", "TDO"), ("AD15", "TRST_N")]

/-- The rail of a row of the management supply block (R500). -/
def mgmtRail (row : String) : Option String :=
  if ["M", "N"].contains row then some "VDD_AON"
  else if ["P", "T"].contains row then some "VDDIO_AON"
  else if ["U", "V", "W", "Y"].contains row then some "VDDIO"
  else if ["AA", "AB", "AC", "AD"].contains row then some "VDD_PLL"
  else none

/-- The rail of a ball that reaches the supply rule (R501). -/
def supplyRail (i j : Nat) : String :=
  let d := min (min (i - 1) (j - 1)) (min (110 - i) (110 - j))
  let hbmZone := decide (20 ≤ i) && decide (i ≤ 91) && ((decide (17 ≤ j) && decide (j ≤ 32)) || (decide (79 ≤ j) && decide (j ≤ 94)))
  if d ≤ 7 then "VDDH_SER"
  else if d ≤ 15 then "VDD_SER"
  else if hbmZone then (if i % 4 = 0 then "HBM_VDDQ" else if i % 16 = 2 then "HBM_VPP" else "HBM_VDD")
  else if j % 4 = 0 then "VDD_SRAM"
  else "VDD_CORE"

/-- What the ball of row `i` and column `j` carries: the first rule of R497 that applies; none where no ball stands. -/
def ballName (i j : Nat) : Option String :=
  if depopulated i j then none
  else match laneAt i j with
    | some n => some n
    | none => match pcieAt i j with
      | some n => some n
      | none => match (groupBalls ++ singleBalls).find? fun p => p.1 == ballPlace i j with
        | some p => some p.2
        | none =>
          if (List.range 4).any (fun q => inLaneField q i j) || inPcieField i j then some "VSS"
          else match (if 20 ≤ j ∧ j ≤ 23 then mgmtRail (rowName i) else none) with
            | some r => if (i + j) % 2 = 0 then some "VSS" else some r
            | none => if (i + j) % 2 = 0 then some "VSS" else some (supplyRail i j)

/-- The code of an analogue input at `v` over the reference `ref`, both in one unit of voltage (R507). -/
def ainCode (v ref : Nat) : Nat := min 4095 (4096 * v / ref)

end Sys2Proof.Machine
end

