-- ==== Sys2Proof/Tests/Slice0.lean ====
section
/-! SUPPORT. The model's own tests: ill-formed commands that WellFormed refuses, worked examples of the spec, and for every statement with
hypotheses a concrete state and operands that meet them. A witness theorem's conjuncts go through the clauses of its statement in order; each
builds a state from `base` and shows that all hypotheses of that clause hold of it. -/

set_option maxRecDepth 20000
set_option Elab.async false
set_option linter.unusedVariables false

namespace Sys2Proof.Tests

open Sys2Proof.Machine Sys2Proof.Machine.Reg

/-- The state after reset at a later time. -/
def base : State := { State.reset with now := 10 ^ 12 }

/-- The state with another `acs`. -/
def w_acs (s : State) (v : Acs) : State := { s with acs := v }
/-- The state with another `aon`. -/
def w_aon (s : State) (v : Aon) : State := { s with aon := v }
/-- The state with another `buf`. -/
def w_buf (s : State) (v : Buf) : State := { s with buf := v }
/-- The state with another `cap`. -/
def w_cap (s : State) (v : Cap) : State := { s with cap := v }
/-- The state with another `capEv`. -/
def w_capEv (s : State) (v : List CapEvent) : State := { s with capEv := v }
/-- The state with another `cly`. -/
def w_cly (s : State) (v : Cly) : State := { s with cly := v }
/-- The state with another `cnt`. -/
def w_cnt (s : State) (v : Cnt) : State := { s with cnt := v }
/-- The state with another `cst`. -/
def w_cst (s : State) (v : Cst) : State := { s with cst := v }
/-- The state with another `flt`. -/
def w_flt (s : State) (v : Flt) : State := { s with flt := v }
/-- The state with another `frames`. -/
def w_frames (s : State) (v : Tbl Frame) : State := { s with frames := v }
/-- The state with another `hbc`. -/
def w_hbc (s : State) (v : Hbc) : State := { s with hbc := v }
/-- The state with another `held`. -/
def w_held (s : State) (v : Bool) : State := { s with held := v }
/-- The state with another `hiCap`. -/
def w_hiCap (s : State) (v : Tbl (Option (Nat × Word))) : State := { s with hiCap := v }
/-- The state with another `hif`. -/
def w_hif (s : State) (v : Hif) : State := { s with hif := v }
/-- The state with another `icu`. -/
def w_icu (s : State) (v : Icu) : State := { s with icu := v }
/-- The state with another `icuMsgs`. -/
def w_icuMsgs (s : State) (v : List (Nat × Bool)) : State := { s with icuMsgs := v }
/-- The state with another `ldg`. -/
def w_ldg (s : State) (v : Ledger) : State := { s with ldg := v }
/-- The state with another `lkp`. -/
def w_lkp (s : State) (v : List Lookup) : State := { s with lkp := v }
/-- The state with another `loHold`. -/
def w_loHold (s : State) (v : Tbl (Option Word)) : State := { s with loHold := v }
/-- The state with another `loom`. -/
def w_loom (s : State) (v : Loom) : State := { s with loom := v }
/-- The state with another `lpm`. -/
def w_lpm (s : State) (v : Lpm) : State := { s with lpm := v }
/-- The state with another `obj`. -/
def w_obj (s : State) (v : Obj) : State := { s with obj := v }
/-- The state with another `ord`. -/
def w_ord (s : State) (v : Order) : State := { s with ord := v }
/-- The state with another `pending`. -/
def w_pending (s : State) (v : List Instr) : State := { s with pending := v }
/-- The state with another `prs`. -/
def w_prs (s : State) (v : Prs) : State := { s with prs := v }
/-- The state with another `prt`. -/
def w_prt (s : State) (v : Prt) : State := { s with prt := v }
/-- The state with another `raises`. -/
def w_raises (s : State) (v : List Raise) : State := { s with raises := v }
/-- The state with another `refLost`. -/
def w_refLost (s : State) (v : Bool) : State := { s with refLost := v }
/-- The state with another `reports`. -/
def w_reports (s : State) (v : List CEvent) : State := { s with reports := v }
/-- The state with another `safe`. -/
def w_safe (s : State) (v : Bool) : State := { s with safe := v }
/-- The state with another `sch`. -/
def w_sch (s : State) (v : Sch) : State := { s with sch := v }
/-- The state with another `sec`. -/
def w_sec (s : State) (v : Sec) : State := { s with sec := v }
/-- The state with another `tb`. -/
def w_tb (s : State) (v : TimeBase) : State := { s with tb := v }
/-- The state with another `tim`. -/
def w_tim (s : State) (v : Tim) : State := { s with tim := v }
/-- The state with another `voq`. -/
def w_voq (s : State) (v : Voq) : State := { s with voq := v }
/-- The state with another `wks`. -/
def w_wks (s : State) (v : Wks) : State := { s with wks := v }
/-- The state with another `xmt`. -/
def w_xmt (s : State) (v : Xmt) : State := { s with xmt := v }
/-- The state with one frame changed. -/
def updFrame (s : State) (i : Nat) (f : Frame → Frame) : State :=
  { s with frames := Tbl.set (fun _ => {}) s.frames i (f (s.frame i)) }
/-- Bytes with byte `n` set. -/
def setB (b : List Byte) (n v : Nat) : List Byte := (b ++ List.replicate (n + 1 - b.length) 0).set n (BitVec.ofNat 8 v)
/-- A container of a kind with a payload, key and signature zero (Table 21.1). -/
def contFor (kind : Nat) (p : List Byte) : List Byte :=
  [0x41, 0x4B, 0x4B, 0x4E, 1, 0, BitVec.ofNat 8 kind, 0, 64, 0, 0, 0, BitVec.ofNat 8 p.length, 0, 0, 0] ++ List.replicate 240 0 ++ p
/-- A container directory with the two lengths (R476). -/
def dirFor (n m : Nat) : Fetched :=
  let b : List Byte := [0x4A, 0x44, 0x49, 0x52, 0, 0, 0, 0] ++ leBytes 4 n ++ List.replicate 8 0 ++ leBytes 4 m ++ List.replicate 28 0
  .bytes (b ++ leBytes 4 (crc Config.dirPoly Config.dirSeed b).toNat)

/-- The state after reset, released, with the fast initiators allowed: every page of domain 16 and up can be reached. -/
def awake : State := ((({ base with held := false } : State).set HIF_LINK_STAT_SPEED 5).set SEC_STAT_STATE 2)
/-- Run meanings in turn. -/
def go (l : List (State → Host.Outcome State Fault Refusal)) (s : State) : State :=
  l.foldl (fun s f => match f s with | .next t => t | _ => s) s
/-- A command's next state, if it has one, meets a test. -/
def after (c : Instr) (s : State) (p : State → Bool) : Bool := match exec c s with | .next t => p t | _ => false

/-! ### Ill-formed commands are refused by WellFormed -/

theorem test_wf_register_write : (Instr.registerWrite 0 2 0 none).wf = false := by decide
theorem test_wf_rw64_lo : (Instr.rw64LoWrite 0 6 0).wf = false := by decide
theorem test_wf_rw64_hi : (Instr.rw64HiWrite 0 1 0).wf = false := by decide
theorem test_wf_staged_write : (Instr.stagedWrite 0 3 0).wf = false := by decide
theorem test_wf_bar0_valid_access : (Instr.bar0InvalidAccess 0 0 4 true).wf = false := by decide
theorem test_wf_soft_reset : (Instr.softReset 0 1 1 true).wf = false := by decide
theorem test_wf_block_reset_done : (Instr.blockResetDone 1 1).wf = false := by decide
theorem test_wf_frame_empty : (Instr.frameReceive 0 [] true).wf = false := by decide
theorem test_wf_pfc_times : (Instr.pfcReceive 0 0 [1]).wf = false := by decide
theorem test_wf_far_c_bit : (Instr.farCBitChange 0 [32]).wf = false := by decide
theorem test_wf_overhead : (Instr.overheadMultiframe 0 [32]).wf = false := by decide
theorem test_wf_xmt_record : (Instr.xmtJobRecord (.bytes [1])).wf = false := by decide
theorem test_wf_lpm_record : (Instr.lpmJobRecord (.bytes [1])).wf = false := by decide
theorem test_wf_assayer_record : (Instr.assayerRecord (.bytes [1])).wf = false := by decide
theorem test_wf_obj_record : (Instr.objJobRecord (.bytes [1]) .failed).wf = false := by decide
theorem test_wf_acs_record : (Instr.acsJobRecord (.bytes [1])).wf = false := by decide
theorem test_wf_hbm_line : (Instr.hbmAccess 0 [⟨.p, 255, some [1, 2], .good, 0⟩]).wf = false := by decide
theorem test_wf_cell : (Instr.cellReceive 0 [1] .good).wf = false := by decide
theorem test_wf_island_inputs : (Instr.islandTick [] 0 none).wf = false := by decide
theorem test_wf_power_on_fuses : (Instr.powerOnReset 65).wf = false := by decide
theorem test_wf_pin_fuses : (Instr.pinReset 65).wf = false := by decide
theorem test_wf_chip_fuses : (Instr.chipReset 65).wf = false := by decide

/-! ### No word spells a command; the step -/

theorem test_no_word_spells : decodeTableWord 32 5 = none := by decide
theorem test_fetch_word_leaves : State.reset.withFetchWord 32 5 = State.reset := by rfl

/-! ### Worked examples of the spec -/

/-- 02, the example after R51: two initiators stage words. -/
def ledger5 : State :=
  go [execBegin 1, execBegin 0, execStagedWrite 0 0x7020A0 7, execStagedWrite 0 0x105100 9, execStagedWrite 1 0x105100 3] awake
theorem test_ledger_counts_staged : ((ledger5.txn 0).staged.length, (ledger5.txn 1).staged.length) = (2, 0) := by decide +kernel
theorem test_ledger_conflict : (ledger5.get (LDG_TXN_STAT_STATE 1), ledger5.get (LDG_TXN_STAT_RESULT 1), ledger5.rd (LDG_TXN_CONFLICT_ADDR 1)) =
    (3, 4, 0x105100) := by decide +kernel

/-- 04, the two notices of its example. -/
theorem test_notice_crc_change : crc8 (0x1483E8 * 256) = 0x16 := by decide +kernel
theorem test_notice_crc_end : crc8 (0x140000 * 256) = 9 := by decide +kernel

/-- 07, the micro-word of its example. -/
def ttlWord : UWord :=
  decodeUWord (BitVec.ofNat 256 ((([0x00022002, 0x80214300, 1, 0, 0x20020000, 0x0CA0, 0x01000000, 0] : List Nat).zipIdx.map
    fun x => x.1 * 2 ^ (32 * x.2)).sum))
theorem test_microword_sequencer : (ttlWord.seq, ttlWord.target, ttlWord.cond) = (2, 0x200, 1) := by decide +kernel
theorem test_microword_alu : (ttlWord.alu0.op, ttlWord.alu0.dst, ttlWord.alu0.sa, ttlWord.alu0.bimm, ttlWord.alu0.sf, ttlWord.imm) =
    (3, 5, 4, true, true, 1) := by decide +kernel
theorem test_microword_lookup : (ttlWord.lop, ttlWord.ldst, ttlWord.koff, ttlWord.klen) = (2, 2, 0x140, 6) := by decide +kernel

/-- 08, the size of the example's table of R168. -/
theorem test_buckets_per_way : bucketsPerWay 4096 4 true = 550912 := by decide +kernel

/-- 08, table 12 of the example after R182, which learns host K. -/
def learner : State :=
  (((((((awake.set (XMT_TBL_CFG_EN (tp 12) (ti 12)) 1).set (XMT_TBL_CFG_CAPK (tp 12) (ti 12)) 4).set (XMT_TBL_CFG_LRN_EN (tp 12) (ti 12)) 1).set
    (XMT_TBL_CFG_KLEN (tp 12) (ti 12)) 8).set (XMT_TBL_LRN_MOVE_HOLD (tp 12) (ti 12)) 1).set XMT_LRN_CFG_WIN_US 2).set (ctlEn xmtPage) 1)
/-- The state at a later time, nanoseconds. -/
def at' (t : Nat) (s : State) : State := { s with now := 10 ^ 12 + t }
/-- A sighting of K at time `t` on a port reaches the arbiter. -/
def sight (t port : Nat) (s : State) : State :=
  w_xmt s { s.xmt with learnQ := s.xmt.learnQ ++ [⟨12, [1, 2, 3, 4, 5, 6, 7, 8], [0, 0, 0, 0, 0, BitVec.ofNat 8 port], 10 ^ 12 + t, port, s.now⟩] }
/-- K after step 4 of the example. -/
def learnt4 : State :=
  go [execLearnDecision, execLearnDecision] (at' 402500 (sight 399500 5 (sight 400000 9 (at' 400500
    (go [execLearnDecision] (at' 2600 (sight 0 5 (at' 600 learner))))))))
theorem test_learn_and_flap : (learnt4.get (XMT_TBL_LEARNS_LEARNS (tp 12) (ti 12)), learnt4.get (XMT_TBL_FLAPS_FLAPS (tp 12) (ti 12)),
    learnt4.xmt.entries.map fun e => byteAt e.data 5) = (1, 1, [5]) := by decide +kernel
theorem test_learn_move_at_hold :
    (go [execLearnDecision] (at' 1002400 (sight 1000000 9 (at' 1000400 learnt4)))).get (XMT_TBL_MOVES_MOVES (tp 12) (ti 12)) = 1 := by decide +kernel

/-- 09, group 40 of the example after R209: A, B, C, D are 1 to 4 and E is 5. -/
def withoutC : List (Option Word) := ecmpAssign 64 [1, 2, 4] (ecmpAssign 64 [1, 2, 3, 4] (List.replicate 64 none))
theorem test_ecmp_remove : ((withoutC.drop 31).take 18).map (fun b => (b.map BitVec.toNat).getD 0) =
    [2, 1, 1, 1, 1, 1, 1, 2, 2, 2, 2, 2, 4, 4, 4, 4, 4, 4] := by decide +kernel
theorem test_ecmp_add : [33, 40, 50, 59].map (fun b => (((ecmpAssign 64 [1, 2, 4, 5] withoutC).getD b none).map BitVec.toNat).getD 0) = [5, 5, 4, 5] := by
  decide +kernel

/-- 12, the drain rate of the example after R273. -/
theorem test_drain_rate : (go [execDrainRateUpdate, execDrainRateUpdate] (w_voq base { base.voq with rate := [(19219, 125000)] })).voq.rate =
    [(19219, 95704)] := by decide +kernel

/-- 13, byte 0x300 of spill block 1,000,000. -/
theorem test_hbm_address : (hbmStack 4096000768, hbmPc 4096000768, hbmBank 4096000768, hbmRow 4096000768, hbmCol 4096000768) = (1, 43, 2, 217, 0) := by
  decide +kernel

/-- 14, the costs of the example after R314, and the shaper of the example after R317. -/
theorem test_wfq_cost : (wfqCost 1000 2, wfqCost 1000 1) = (32768000, 65536000) := by decide
theorem test_shaper_spends :
    ((((base.set (SCH_Q_SHP_EN 1 4 5) 1).set (SCH_Q_SHP_RATE 1 4 5) 10000).setTokens (eqKey 20 5) 26000).spend (eqKey 20 5) 1250).tokens (eqKey 20 5) =
      -99000 := by decide +kernel

/-- 15, the caps of the example after R336. -/
theorem test_spill_caps : (State.reset.spillCap 1, State.reset.spillCap 7, spillUnits 8192) = (46875, 75000, 128) := by decide +kernel

/-- 17, completion ring 12 of the example after R385. -/
theorem test_ring_full : (({ en := true, logsz := 6, head := 0xFFE0, tail := 0x20 } : CRing).free,
    ({ en := true, logsz := 6, head := 0, tail := 0x20 } : CRing).free) = (0, 32) := by decide +kernel

/-- 17, target 3 of the example after R396 with A pending and bound to it and B pending. -/
def target3 : State :=
  w_icu base { base.icu with src := [(0x605, { en := true, prio := 8, tgt := 7, p := true, bound := some 3 }), (0x609, { en := true, prio := 12, tgt := 3, p := true })] }
theorem test_claim_takes_highest : ((target3.claim 3).1, ((target3.claim 3).2.isrc 0x605).bound) = (0x609, some 3) := by decide +kernel

/-- 19, the example after R445: a repeat of the source whose reset opened the shadow, 40 µs after it. -/
def reset1 : State :=
  go [execFaultRaise 0 false] (((((base.set FLT_SEQ_SEQ 0x100).set (ctlEn fltPage) 1).setFsrc 0x2C0 { react := 3 }).setFsrc 0x440 { react := 1 }).raise
    (blockBase 11 + 0x1000) 0)
/-- SEQ, PARENT, CLASS and REACT of record `i`. -/
def rec4 (s : State) (i : Nat) : List Nat :=
  let r := (Tbl.get (fun _ => []) s.flt.recs i).map BitVec.toNat
  [r.getD 0 0, r.getD 1 0, r.getD 2 0 / 2 ^ 18 % 4, r.getD 2 0 / 2 ^ 20 % 8]
theorem test_raise_primary : rec4 reset1 0 = [0x100, 0x100, 0, 3] := by decide +kernel
theorem test_raise_consequential : rec4 (go [execFaultRaise 0 false] ((at' 5000 reset1).raise (blockBase 17) 0)) 1 = [0x101, 0x100, 1, 0] := by
  decide +kernel
theorem test_raise_repeat : rec4 (go [execFaultRaise 0 false] ((at' 40000 reset1).raise (blockBase 11 + 0x1000) 0)) 1 = [0x101, 0x100, 2, 0] := by
  decide +kernel

/-- 20, quarter Q0 of the example after R460 and R465 with W0 and W4 awake at level 5. -/
def night : State :=
  let s := [0, 4, 16, 20, 32, 36, 48, 52].foldl (fun s n => s.set (WKS_STAT_STATE n) 2) (base.set AON_FF_KFF 400)
  w_aon s { s.aon with ltgt := (List.range 16).map fun i => (i, 5) }
theorem test_feed_forward : night.powerSum * night.get AON_FF_KFF / 2 ^ 14 = 50 := by decide +kernel
theorem test_wakes_order : ((night.wakesFor 0 16).take 4, (night.wakesFor 0 16).length) = ([8, 12, 1, 5], 14) := by decide +kernel

/-- 23, the balls of its examples: lane 165, and places (41, 20) and (41, 21). -/
theorem test_lane_balls : (ballPlace 105 34, ballName 105 34, ballPlace 103 35, ballName 103 35) =
    ("EK34", some "LN_TXP_165", "EH35", some "LN_RXN_165") := by decide +kernel
theorem test_supply_balls : (ballPlace 41 20, ballName 41 20, ballName 41 21) = ("BC20", some "HBM_VDD", some "VSS") := by decide +kernel
/-- 23 R496: 164 places without a ball. -/
theorem test_depopulated : ((List.range 110).map fun i => ((List.range 110).filter fun j => depopulated (i + 1) (j + 1)).length).sum = 164 := by
  decide +kernel

/-! ### Statements about every step -/

theorem witness_StepRunsFrontCommand : ({ base with pending := [.commitGrant] } : State).pending = .commitGrant :: [] := rfl
theorem witness_EveryStepKeepsTheInvariant : StateInv State.reset ∧ step State.reset = .next State.reset.tick := by
  refine ⟨⟨by decide +kernel, ?_⟩, rfl⟩
  intro c h
  cases h
theorem witness_FusesOnlyAdvance : ∃ t, step State.reset = .next t := ⟨_, rfl⟩
theorem witness_OnlyResetsHoldTheDevice : ∃ t, exec .hbmArbWindow base = .next t := ⟨_, rfl⟩
theorem witness_OtherCommandsLeaveTheStacks : Sys2Proof.changesStacks .hbmArbWindow = false ∧ ∃ t, exec .hbmArbWindow base = .next t := ⟨rfl, _, rfl⟩

/-! ### Containers that pass: their witnesses rest on what the fuses and the two standard functions of Config are -/

theorem verify_passes (s : State) (k : Nat) (b : List Byte) (hr : Config.revokedAtStart = 0) (hk : ∀ x n, Config.sm3 x = Config.keyDigest n)
    (hv : ∀ x m g, Config.sm2Verify x m g = true) (h : s.sec.katFail = false ∧ s.sec.badFuses = false ∧ s.sec.revoked = 0 ∧ s.sec.svn = some 64)
    (hb : formatOk b = true ∧ contKind b = k ∧ leAt b 8 4 = 64) : s.verify k b = 0 := by
  obtain ⟨h1, h2, h3, h4⟩ := h
  obtain ⟨b1, b2, b3⟩ := hb
  simp [State.verify, State.revokedSlots, State.fuseRevoked, State.svn, State.fuseSvn, h1, h2, h3, h4, b1, b2, b3, hr, hk _ (byteAt b 7), hv, bit]

/-- A state in which SEC_CMD `cmd` waits for the check of a container. -/
def checking (cmd : Nat) (l : List Byte) : State := w_sec base { base.sec with
  len := l.length
  cmd := cmd
  svn := some 64 }
/-- A graph payload with no record. -/
def emptyGraph : List Byte := [0x4A, 0x50, 0x47, 0x52, 0, 0, 0, 0, 0, 0, 0, 0, 0, 0, 0, 0]

theorem checking_passes (cmd k : Nat) (l : List Byte) (hr : Config.revokedAtStart = 0) (hk : ∀ x n, Config.sm3 x = Config.keyDigest n)
    (hv : ∀ x m g, Config.sm2Verify x m g = true)
    (hb : formatOk (bytesAt l 0 l.length) = true ∧ contKind (bytesAt l 0 l.length) = k ∧ leAt (bytesAt l 0 l.length) 8 4 = 64) :
    (checking cmd l).verify k (bytesAt l 0 (checking cmd l).sec.len) = 0 :=
  verify_passes _ k _ hr hk hv ⟨rfl, rfl, rfl, rfl⟩ hb

theorem witness_OnlyCheckedImagesRun_island (hr : Config.revokedAtStart = 0) (hk : ∀ x n, Config.sm3 x = Config.keyDigest n)
    (hv : ∀ x m g, Config.sm2Verify x m g = true) :
    let l := contFor 2 [1, 2]
    (checking 1 l).sec.cmd = 1 ∧ (checking 1 l).sec.graphPend = none ∧ contKind (bytesAt l 0 (checking 1 l).sec.len) = 2 ∧
      (checking 1 l).verify 2 (bytesAt l 0 (checking 1 l).sec.len) = 0 :=
  ⟨rfl, rfl, by decide +kernel, checking_passes 1 2 _ hr hk hv (by decide +kernel)⟩

theorem witness_OnlyCheckedImagesRun_badGraph (hr : Config.revokedAtStart = 0) (hk : ∀ x n, Config.sm3 x = Config.keyDigest n)
    (hv : ∀ x m g, Config.sm2Verify x m g = true) :
    let l := contFor 4 [1, 2]
    (checking 1 l).sec.cmd = 1 ∧ (checking 1 l).sec.graphPend = none ∧ contKind (bytesAt l 0 (checking 1 l).sec.len) = 4 ∧
      (checking 1 l).verify 4 (bytesAt l 0 (checking 1 l).sec.len) = 0 ∧ graphItems ((bytesAt l 0 (checking 1 l).sec.len).drop 256) = none :=
  ⟨rfl, rfl, by decide +kernel, checking_passes 1 4 _ hr hk hv (by decide +kernel), by decide +kernel⟩

theorem witness_OnlyCheckedImagesRun_graph (hr : Config.revokedAtStart = 0) (hk : ∀ x n, Config.sm3 x = Config.keyDigest n)
    (hv : ∀ x m g, Config.sm2Verify x m g = true) :
    let l := contFor 4 emptyGraph
    (checking 1 l).sec.cmd = 1 ∧ (checking 1 l).sec.graphPend = none ∧ contKind (bytesAt l 0 (checking 1 l).sec.len) = 4 ∧
      (checking 1 l).verify 4 (bytesAt l 0 (checking 1 l).sec.len) = 0 ∧
      (graphItems ((bytesAt l 0 (checking 1 l).sec.len).drop 256)).isSome = true ∧ (checking 1 l).txnState 4 = .idle :=
  ⟨rfl, rfl, by decide +kernel, checking_passes 1 4 _ hr hk hv (by decide +kernel), by decide +kernel, by decide +kernel⟩

theorem witness_OnlyCheckedImagesRun_graphBusy (hr : Config.revokedAtStart = 0) (hk : ∀ x n, Config.sm3 x = Config.keyDigest n)
    (hv : ∀ x m g, Config.sm2Verify x m g = true) :
    let l := contFor 4 emptyGraph
    let s := (checking 1 l).set (LDG_TXN_STAT_STATE 4) 1
    s.sec.cmd = 1 ∧ s.sec.graphPend = none ∧ contKind (bytesAt l 0 s.sec.len) = 4 ∧ s.verify 4 (bytesAt l 0 s.sec.len) = 0 ∧
      (graphItems ((bytesAt l 0 s.sec.len).drop 256)).isSome = true ∧ s.txnState 4 ≠ .idle :=
  ⟨rfl, rfl, by decide +kernel, verify_passes _ 4 _ hr hk hv ⟨rfl, rfl, rfl, rfl⟩ (by decide +kernel), by decide +kernel, by decide +kernel⟩

theorem witness_OnlyCheckedImagesRun_boot (hr : Config.revokedAtStart = 0) (hk : ∀ x n, Config.sm3 x = Config.keyDigest n)
    (hv : ∀ x m g, Config.sm2Verify x m g = true) :
    let l := contFor 1 [1, 2]
    (checking 5 l).sec.cmd = 5 ∧ (checking 5 l).verify 1 (bytesAt l 0 (checking 5 l).sec.len) = 0 :=
  ⟨rfl, checking_passes 5 1 _ hr hk hv (by decide +kernel)⟩

theorem witness_OnlyCheckedImagesRun_revoke (hr : Config.revokedAtStart = 0) :
    let s := (((awake.set SEC_STAT_BUSY 0).set (ctlEn secPage) 1).set SEC_STAT_STATE 2).set SEC_SVN_ARG_ARG 3
    (s.reaches 1 SEC_CMD = true ∧ s.get SEC_STAT_BUSY = 0 ∧ s.get (ctlEn secPage) = 1 ∧ s.get SEC_STAT_STATE = 2 ∧
      s.get SEC_SVN_ARG_ARG % 4 = 3 ∧ s.sec.boot.map SecImg.slot ≠ some 3) ∧ ∃ j, j < 4 ∧ j ≠ 3 ∧ bit s.revokedSlots j = false := by
  refine ⟨by decide +kernel, 0, by decide, by decide, ?_⟩
  have h : ((((awake.set SEC_STAT_BUSY 0).set (ctlEn secPage) 1).set SEC_STAT_STATE 2).set SEC_SVN_ARG_ARG 3).revokedSlots =
      Config.revokedAtStart.toNat := by
    show 0 ||| Config.revokedAtStart.toNat = _
    simp
  rw [h, hr]
  decide

/-- What the boot ROM finds: one directory whose BOOT entry names a container that passes. -/
theorem witness_OnlyCheckedImagesRun_rom (hr : Config.revokedAtStart = 0) (hk : ∀ x n, Config.sm3 x = Config.keyDigest n)
    (hv : ∀ x m g, Config.sm2Verify x m g = true) (hd : dirOk (dirFor 258 257) = true) :
    let l := contFor 1 [1, 2]
    let s := checking 0 l
    (w_held s false).held = false ∧ s.get SEC_STAT_STATE = 0 ∧ dirLen (dirFor 258 257) 1 = 258 ∧ s.verify 1 (bytesAt l 0 258) = 0 := by
  refine ⟨rfl, by decide +kernel, ?_, verify_passes _ 1 _ hr hk hv ⟨rfl, rfl, rfl, rfl⟩ (by decide +kernel)⟩
  have h : leAt ((match dirFor 258 257 with | .bytes b => b | .failed => [])) 8 4 = 258 := by decide +kernel
  simp only [dirLen, dirFor] at hd ⊢
  simp only [dirFor] at h
  simp only [hd, if_true]
  exact h


/-! ### Witnesses of the statements' hypotheses -/

theorem witness_ResetsLeaveTheSpecifiedState :
(
    (let k : Fin 16 := 15
     decide (k ≠ 0)) &&
    (let s : State := base
     let s : State := w_held s (true)
     decide (s.held = true)) &&
    (let s : State := base
     let s : State := w_held s (false)
     decide (s.held = false)) &&
    (let s : State := base
     let s : State := w_flt s ({ s.flt with chipPend := none })
     decide (s.flt.chipPend = none)) &&
    (let s : State := base
     let q := (3 : Nat)
     let s : State := w_flt s ({ s.flt with chipPend := some q })
     match (s.flt.chipPend) with
     | none => false
     | some q =>
       decide (s.flt.chipPend = some q)) &&
    (let s : State := base
     let s : State := w_refLost s (true)
     decide ((s.refLost = true ∨ s.held = false))) &&
    (let s : State := base
     let s : State := w_refLost s (false)
     let s : State := w_held s (true)
     decide (s.refLost = false ∧ s.held = true))) = true := by
  decide +kernel

theorem witness_RegisterWritesFollowTheirCodes :
(
    (let i : Fin 5 := 1
     let addr : BitVec 27 := 655496
     match (findRow 655496) with
     | none => false
     | some r =>
       let s : State := base
       decide (addr.toNat % 4 = 0 ∧ s.reaches i addr.toNat = true ∧ ((blockOf addr.toNat = 9 ∨ blockOf addr.toNat = 20)) ∧
         0x80 ≤ addr.toNat % 0x1000 ∧ rwsMask addr.toNat = 0 ∧ pairOf addr.toNat = .plain ∧ findRow addr.toNat = some r)) &&
    (let i : Fin 5 := 1
     let addr : BitVec 27 := 0xa0020
     let s : State := base
     decide (s.reaches i addr.toNat = true ∧ addr.toNat % 0x1000 = 0x20)) &&
    (let i : Fin 5 := 1
     let addr : BitVec 27 := 0xa0024
     let s : State := base
     decide (s.reaches i addr.toNat = true ∧ addr.toNat % 0x1000 = 0x24)) &&
    (let i : Fin 5 := 1
     let addr : BitVec 27 := 0xa0010
     let s : State := base
     decide (s.reaches i addr.toNat = true ∧ addr.toNat % 0x1000 = 0x10)) &&
    (let i : Fin 5 := 1
     let addr : BitVec 27 := 0xa0014
     let s : State := base
     decide (s.reaches i addr.toNat = true ∧ addr.toNat % 0x1000 = 0x14)) &&
    (let i : Fin 5 := 1
     let addr : BitVec 27 := 0xa0018
     let s : State := base
     decide (s.reaches i addr.toNat = true ∧ addr.toNat % 0x1000 = 0x18)) &&
    (let i : Fin 5 := 1
     let addr : BitVec 27 := 0x20008
     let w : Word := 1
     let s : State := base
     decide (s.reaches i addr.toNat = true ∧ addr.toNat % 0x1000 = 0x08 ∧ ctlActsAtOnce (blockOf addr.toNat) = true ∧ bit w.toNat 1 = false)) &&
    (let i : Fin 5 := 1
     let addr : BitVec 27 := 0
     let s : State := base
     decide (s.reaches i addr.toNat = true ∧
       (addr.toNat % 0x1000 = 0x00 ∨ addr.toNat % 0x1000 = 0x04 ∨ addr.toNat % 0x1000 = 0x0C ∨ addr.toNat % 0x1000 = 0x1C ∨ addr.toNat % 0x1000 = 0x28)))) = true := by
  decide +kernel

theorem witness_PairRegistersActAsOne :
(
    (let i : Fin 5 := 1
     let addr : BitVec 27 := 4448
     let s : State := base
     decide (addr.toNat % 4 = 0 ∧ s.reaches i addr.toNat = true ∧ blockOf addr.toNat ≠ 5 ∧ blockOf addr.toNat ≠ 7 ∧ isLo addr.toNat = true)) &&
    (let i : Fin 5 := 1
     let addr : BitVec 27 := 4448
     let s : State := base
     decide (addr.toNat % 4 = 0 ∧ s.reaches i addr.toNat = true ∧ blockOf addr.toNat ≠ 5 ∧ blockOf addr.toNat ≠ 7 ∧ isLo addr.toNat = true ∧
       addr.toNat % 8 = 0 ∧ isHi (addr.toNat + 4) = true ∧ s.reaches i (addr.toNat + 4) = true ∧
       blockOf (addr.toNat + 4) = blockOf addr.toNat)) &&
    (let i : Fin 5 := 1
     let addr : BitVec 27 := 4452
     let s : State := base
     let w := 9
     let s : State := w_hiCap s ([(1, some (4452, 9))])
     decide (addr.toNat % 4 = 0 ∧ s.reaches i addr.toNat = true ∧ blockOf addr.toNat ≠ 5 ∧ blockOf addr.toNat ≠ 7 ∧ isHi addr.toNat = true ∧
       Tbl.get (fun _ => none) s.hiCap i = some (addr.toNat, w))) &&
    (let i : Fin 5 := 1
     let addr : BitVec 27 := 4452
     let s : State := base
     decide (addr.toNat % 4 = 0 ∧ s.reaches i addr.toNat = true ∧ blockOf addr.toNat ≠ 5 ∧ blockOf addr.toNat ≠ 7 ∧ isHi addr.toNat = true ∧
       Tbl.get (fun _ => none) s.hiCap i = none)) &&
    (let i : Fin 5 := 1
     let addr : BitVec 27 := 0
     let s : State := base
     decide (addr.toNat % 4 = 0 ∧ s.reaches i addr.toNat = true ∧ blockOf addr.toNat ≠ 5 ∧ blockOf addr.toNat ≠ 7 ∧ isLo addr.toNat = false ∧
       isHi addr.toNat = false)) &&
    (let i : Fin 5 := 1
     let addr : BitVec 27 := 131212
     let s : State := base
     decide (addr.toNat % 4 = 0 ∧ s.reaches i addr.toNat = true ∧ pairOf addr.toNat = .rwLo)) &&
    (let i : Fin 5 := 1
     let addr : BitVec 27 := 131216
     let s : State := base
     let lo := 7
     let s : State := w_loHold s ([(131212, some 7)])
     decide (addr.toNat % 4 = 0 ∧ s.reaches i addr.toNat = true ∧ pairOf addr.toNat = .rwHi ∧ addr.toNat ≠ ICU_TGT_ADDR_HI ∧
       Tbl.get (fun _ => none) s.loHold (addr.toNat - 4) = some lo ∧ 4 ≤ addr.toNat)) &&
    (let i : Fin 5 := 1
     let addr : BitVec 27 := 327832
     let s : State := base
     let lo := 7
     let s : State := w_loHold s ([(ICU_TGT_ADDR_LO, some 7)])
     let s : State := s.set ICU_TGT_SEL_TGT 4
     let k := s.get ICU_TGT_SEL_TGT
     decide (addr.toNat % 4 = 0 ∧ s.reaches i addr.toNat = true ∧ addr.toNat = ICU_TGT_ADDR_HI ∧
       Tbl.get (fun _ => none) s.loHold ICU_TGT_ADDR_LO = some lo ∧ k = s.get ICU_TGT_SEL_TGT))) = true := by
  decide +kernel

theorem witness_InvalidAccessesRaiseTheirSource :
(
    (let addr : BitVec 27 := 0
     let len : Nat := 1
     let s : State := base
     let s : State := w_held s (false)
     let s : State := w_aon s ({ s.aon with only := false })
     decide (s.held = false ∧ s.aon.only = false ∧ (¬((len = 4 ∧ addr.toNat % 4 = 0) ∨ (len = 8 ∧ addr.toNat % 8 = 0))))) &&
    (let addr : BitVec 27 := 0xF000
     let s : State := base
     let s : State := w_held s (false)
     let s : State := w_aon s ({ s.aon with only := false })
     decide (s.held = false ∧ s.aon.only = false ∧ addr.toNat % 4 = 0 ∧ assigned addr.toNat = false)) &&
    (let off : BitVec 26 := 0x3FFFFF8
     let s : State := base
     let s : State := w_held s (false)
     decide (s.held = false ∧ bar2Assigned off.toNat = false)) &&
    (let s : State := base
     let s : State := w_held s (false)
     decide (s.held = false))) = true := by
  decide +kernel

theorem witness_StagedWriteFollowsTheTransaction :
(
    (let i : Fin 5 := 1
     let addr : BitVec 27 := BitVec.ofNat 27 (XMT_TBL_CFG 0 1)
     let s : State := base
     let s : State := s.set (LDG_TXN_STAT_STATE i) 0
     let s : State := s.set LDG_ORPHAN_STAT_ORPHAN (0)
     decide (addr.toNat % 4 = 0 ∧ rwsMask addr.toNat ≠ 0 ∧ s.reaches i addr.toNat = true ∧ s.txnState i = .idle ∧
       s.get LDG_ORPHAN_STAT_ORPHAN = 0)) &&
    (let i : Fin 5 := 1
     let addr : BitVec 27 := BitVec.ofNat 27 (XMT_TBL_CFG 0 1)
     let s : State := base
     let s : State := s.set (LDG_TXN_STAT_STATE i) 3
     decide (addr.toNat % 4 = 0 ∧ rwsMask addr.toNat ≠ 0 ∧ s.reaches i addr.toNat = true ∧
       (s.txnState i = .doomed ∨ s.txnState i = .committing))) &&
    (let i : Fin 5 := 1
     let addr : BitVec 27 := BitVec.ofNat 27 (XMT_TBL_CFG 0 1)
     let s : State := base
     let s : State := s.set (LDG_TXN_STAT_STATE i) 1
     decide (addr.toNat % 4 = 0 ∧ rwsMask addr.toNat ≠ 0 ∧ s.reaches i addr.toNat = true ∧ s.txnState i = .opened ∧
       ((frameBound (blockOf addr.toNat) = true → s.cascadeRefuses i = false)) ∧
       ((s.stagedBy addr.toNat = some i.val ∨ s.stagedBy addr.toNat = none ∧ s.stagedUsed < 16384)))) &&
    (let i : Fin 5 := 1
     let addr : BitVec 27 := BitVec.ofNat 27 (XMT_TBL_CFG 0 1)
     let s : State := base
     let s : State := s.set (LDG_TXN_STAT_STATE i) 1
     let s : State := w_ldg s ({ s.ldg with txns := [(0, { staged := [(XMT_TBL_CFG 0 1, some 1)] })] })
     decide (addr.toNat % 4 = 0 ∧ rwsMask addr.toNat ≠ 0 ∧ s.reaches i addr.toNat = true ∧ s.txnState i = .opened ∧
       ((frameBound (blockOf addr.toNat) = true → s.cascadeRefuses i = false)) ∧ s.stagedBy addr.toNat = some 0 ∧ 0 ≠ i.val))) = true := by
  decide +kernel

theorem witness_BlockResetTakesAndReleasesItsPages :
(
    (let i : Fin 5 := 1
     let b : Fin 24 := 23
     let page : Fin 256 := 15
     let s : State := base
     let s : State := s.set (statResetting (blockBase 23 + 0x1000 * 15)) 0
     decide (page.val < blockPages b ∧ s.reaches i (blockBase b + 0x1000 * page + 8) = true)) &&
    (let i : Fin 5 := 1
     let s : State := base
     let b : Fin 24 := 9
     decide (((b = 9 ∨ b = 14)) ∧ s.reaches i (blockBase b + 8) = true ∧ (resetPages b 0).any s.resetting = false)) &&
    (let b : Fin 24 := 23
     let inst : Fin 64 := 15
     let s : State := base
     let s : State := w_cst s ({ s.cst with rstPend := none })
     let s : State := s.set (statResetting (blockBase 23 + 0x1000 * 15)) 1
     decide (inst.val < blockPages b ∧ (resetPages b inst).any s.resetting = true ∧ s.cst.rstPend = none ∧
       Tbl.get (fun _ => false) s.hbc.retrain inst.val = false))) = true := by
  decide +kernel

theorem witness_TransactionCommandsFollowTheStates :
(
    (let i : Fin 5 := 1
     let s : State := base
     let s : State := s.set (LDG_TXN_STAT_STATE i) 0
     decide (s.reaches i (LDG_TXN_CMD i) = true ∧ s.txnState i = .idle)) &&
    (let i : Fin 5 := 1
     let s : State := base
     let s : State := s.set (LDG_TXN_STAT_STATE i) 1
     let s : State := s.set LDG_CC_CFG_ROLE 0
     decide (s.reaches i (LDG_TXN_CMD i) = true ∧ s.txnState i = .opened ∧ (s.role = 0 ∨ s.opensSlot i = false))) &&
    (let i : Fin 5 := 1
     let s : State := base
     let s : State := s.set (LDG_TXN_STAT_STATE i) 3
     decide (s.reaches i (LDG_TXN_CMD i) = true ∧ s.txnState i = .doomed)) &&
    (let i : Fin 5 := 1
     let s : State := base
     let s : State := s.set (LDG_TXN_STAT_STATE i) 1
     decide (s.reaches i (LDG_TXN_CMD i) = true ∧ (s.txnState i = .opened ∨ s.txnState i = .doomed))) &&
    (let i : Fin 5 := 1
     let s : State := base
     let s : State := s.set (LDG_TXN_STAT_STATE i) 3
     decide (s.reaches i (LDG_TXN_CMD i) = true ∧ s.txnState i ≠ .idle)) &&
    (let i : Fin 5 := 1
     let s : State := base
     let s : State := s.set (LDG_TXN_STAT_STATE i) 0
     decide (s.reaches i (LDG_TXN_CMD i) = true ∧ (s.txnState i = .idle ∨ s.txnState i = .committing))) &&
    (let i : Fin 5 := 1
     let s : State := base
     let s : State := s.set (LDG_TXN_STAT_STATE i) 0
     decide (s.reaches i (LDG_TXN_CMD i) = true ∧ (s.txnState i = .idle ∨ s.txnState i = .committing)))) = true := by
  decide +kernel

theorem witness_OpenTransactionTimesOut :
(
    (let i : Fin 5 := 1
     let s : State := base
     let s : State := s.set (LDG_TXN_STAT_STATE i) 1
     let s : State := s.set (LDG_TXN_TIMEOUT_TIMEOUT_US i) (if (0) = 0 then 1 else 0)
     decide (s.txnState i = .opened ∧ s.get (LDG_TXN_TIMEOUT_TIMEOUT_US i) ≠ 0 ∧
       s.get (LDG_TXN_TIMEOUT_TIMEOUT_US i) * 1000 < s.now - (s.txn i).opened)) &&
    (let i : Fin 5 := 1
     let s : State := base
     decide ((s.txnState i ≠ .opened ∨ s.get (LDG_TXN_TIMEOUT_TIMEOUT_US i) = 0 ∨ s.now - (s.txn i).opened ≤ s.get (LDG_TXN_TIMEOUT_TIMEOUT_US i) * 1000)))) = true := by
  decide +kernel

theorem witness_CommitsAreGrantedInOrder :
(
    (let s : State := base
     let s : State := w_ldg s ({ s.ldg with order := [] })
     decide ((s.ldg.order = [] ∨ s.committing.isSome = true))) &&
    (let i : Fin 5 := 1
     let r : List Nat := []
     let s : State := base
     let s : State := w_ldg s ({ s.ldg with order := i.val :: r })
     let s : State := w_lpm s ({ s.lpm with job := some { init := i } })
     decide (s.ldg.order = i.val :: r ∧ s.jobRuns i = true)) &&
    (let i : Fin 5 := 1
     let r : List Nat := []
     let s : State := base
     let s : State := w_ldg s ({ s.ldg with order := i.val :: r })
     decide (s.ldg.order = i.val :: r ∧ s.committing = none ∧ s.jobRuns i = false ∧ s.opensSlot i = false)) &&
    (let i : Fin 5 := 1
     let r : List Nat := []
     let k : Fin 16 := 15
     let s : State := base
     let s : State := w_ldg s ({ s.ldg with order := i.val :: r })
     let s : State := s.set (LDG_SLOT_STAT_STATE k) 0
     let s : State := (List.range 15).foldl (fun s n => s.set (LDG_SLOT_STAT_STATE n) 3) s
     let s : State := w_ldg s ({ s.ldg with txns := Tbl.set (fun _ => {}) s.ldg.txns i { s.txn i with staged := [(XMT_TBL_CFG 0 1, some 3)] } })
     decide (s.ldg.order = i.val :: r ∧ s.committing = none ∧ s.jobRuns i = false ∧ s.opensSlot i = true ∧ s.slotState k = .free ∧
       ((∀ j : Fin 16, j < k → s.slotState j ≠ .free)))) &&
    (let i : Fin 5 := 1
     let r : List Nat := []
     let s : State := base
     let s : State := w_ldg s ({ s.ldg with order := i.val :: r })
     let s : State := (List.range 16).foldl (fun s n => s.set (LDG_SLOT_STAT_STATE n) 3) s
     let s : State := w_ldg s ({ s.ldg with txns := Tbl.set (fun _ => {}) s.ldg.txns i { s.txn i with staged := [(XMT_TBL_CFG 0 1, some 3)] } })
     decide (s.ldg.order = i.val :: r ∧ s.committing = none ∧ s.jobRuns i = false ∧ s.opensSlot i = true ∧
       (∀ j : Fin 16, s.slotState j ≠ .free))) &&
    (let i : Fin 5 := 1
     let s : State := base
     let s : State := w_ldg s ({ s.ldg with txns := Tbl.set (fun _ => {}) s.ldg.txns i { s.txn i with phase := .waiting } })
     let s : State := s.set LDG_COMMIT_TIMEOUT_TIMEOUT_US (if (0) = 0 then 1 else 0)
     decide ((s.txn i).phase = .waiting ∧ s.get LDG_COMMIT_TIMEOUT_TIMEOUT_US ≠ 0 ∧
       s.get LDG_COMMIT_TIMEOUT_TIMEOUT_US * 1000 < s.now - (s.txn i).arrived))) = true := by
  decide +kernel

theorem witness_CommitCycleMakesStagedWordsLive :
    (let i : Fin 5 := 1
     let s : State := base
     let s : State := w_ldg s ({ s.ldg with txns := Tbl.set (fun _ => {}) s.ldg.txns i { s.txn i with phase := .bound none } })
     decide (s.committing = some i.val ∧ (s.txn i).phase = .bound none ∧ (∀ p ∈ (s.txn i).staged, blockOf p.1 ≠ 1))) = true := by
  decide +kernel

theorem witness_BlockSwitchGoesOver :
(
    (let b : Fin 24 := 23
     let s : State := base
     decide (s.ldg.switchWait.contains b.val = false)) &&
    (let b : Fin 24 := 21
     let s : State := base
     let s : State := w_ldg s ({ s.ldg with switchWait := [21], switchInit := some 1 })
     decide (s.ldg.switchWait.contains b.val = true ∧ b ≠ 1 ∧ b ≠ 2 ∧ b ≠ 11 ∧ b ≠ 12 ∧ b ≠ 13 ∧ b ≠ 14 ∧ b ≠ 22 ∧ b ≠ 23))) = true := by
  decide +kernel

theorem witness_SlotsAreReleasedInOrder :
(
    (let k : Fin 16 := 15
     let s : State := base
     let s : State := s.set LDG_CC_CFG_ROLE 0
     let s : State := s.set (LDG_SLOT_STAT_STATE k) 3
     let s : State := s.set (LDG_SLOT_PRE_COUNT k) (0)
     let s : State := s.set (LDG_SLOT_POST_COUNT k) (0)
     decide (s.role = 0 ∧ (s.slotState k = .old ∨ s.slotState k = .retiring ∨ s.slotState k = .drained) ∧ s.get (LDG_SLOT_PRE_COUNT k) = 0 ∧
       s.get (LDG_SLOT_POST_COUNT k) = 0)) &&
    (let k : Fin 16 := 15
     let s : State := base
     let s : State := s.set (LDG_SLOT_STAT_STATE k) 6
     decide (s.slotState k = .sweeping)) &&
    (let k : Fin 16 := 15
     let s : State := base
     decide (s.slotState k ≠ .sweeping)) &&
    (let i : Fin 5 := 1
     let k : Fin 16 := 15
     let s : State := base
     let s : State := s.set LDG_CC_CFG_ROLE 0
     let s : State := (s.set (LDG_SLOT_STAT_STATE 0) 0).set (LDG_SLOT_STAT_STATE k) 2
     decide (s.reaches i LDG_SLOT_CMD = true ∧ s.role = 0 ∧ s.oldestLive = k.val ∧ s.slotState k ≠ .old)) &&
    (let i : Fin 5 := 1
     let k : Fin 16 := 15
     let s : State := base
     let s : State := s.set LDG_CC_CFG_ROLE 0
     let s : State := s.set (LDG_SLOT_STAT_STATE k) 3
     let s : State := s.set (LDG_SLOT_RPRE_RPRE k) (if (0) = 0 then 1 else 0)
     let s : State := (s.set (LDG_SLOT_STAT_STATE 0) 0).set (LDG_SLOT_STAT_STATE k) 3
     decide (s.reaches i LDG_SLOT_CMD = true ∧ s.role = 0 ∧ s.oldestLive = k.val ∧ s.slotState k = .old ∧ s.get (LDG_SLOT_RPRE_RPRE k) ≠ 0)) &&
    (let i : Fin 5 := 1
     let k : Fin 16 := 15
     let s : State := base
     let s : State := s.set LDG_CC_CFG_ROLE 0
     let s : State := s.set (LDG_SLOT_STAT_STATE k) 3
     let s : State := s.set (LDG_SLOT_RPRE_RPRE k) (0)
     let s : State := (s.set (LDG_SLOT_STAT_STATE 0) 0).set (LDG_SLOT_STAT_STATE k) 3
     let s : State := s.set (LDG_SLOT_PRE_COUNT k) 7
     decide (s.reaches i LDG_SLOT_CMD = true ∧ s.role = 0 ∧ s.oldestLive = k.val ∧ s.slotState k = .old ∧ s.get (LDG_SLOT_RPRE_RPRE k) = 0))) = true := by
  decide +kernel

theorem witness_SlotCommitAdvancesTheEpoch :
(
    (let s : State := base
     decide (s.committing = none)) &&
    (let i : Fin 5 := 1
     let k : Fin 16 := 15
     let c : Fin 16 := 0
     let s : State := base
     let s : State := w_ldg s ({ s.ldg with txns := Tbl.set (fun _ => {}) s.ldg.txns i { s.txn i with phase := .bound (some k.val) } })
     let s : State := s.set (LDG_SLOT_STAT_STATE k) 1
     decide (s.committing = some i.val ∧ (s.txn i).phase = .bound (some k.val) ∧ (∀ p ∈ (s.txn i).staged, blockOf p.1 ≠ 1) ∧
       s.slotState k = .binding ∧ s.newest = c.val ∧ c ≠ k))) = true := by
  decide +kernel

theorem witness_MasterRunsTheCascadeCommit :
(
    (let i : Fin 5 := 1
     let s : State := base
     decide (s.reaches i LDG_CC_CMD = true ∧ (s.role ≠ 1 ∨ s.get LDG_CC_STAT_PHASE ≠ 0))) &&
    (let i : Fin 5 := 1
     let s : State := base
     decide (s.reaches i LDG_CC_CMD = true ∧ (s.role ≠ 1 ∨ s.get LDG_CC_STAT_PHASE ≠ 1))) &&
    (let i : Fin 5 := 1
     let k : Fin 16 := 15
     let s : State := base
     let s : State := s.set LDG_CC_CFG_ROLE 1
     let s : State := s.set LDG_CC_STAT_PHASE (0)
     let s : State := s.set (LDG_SLOT_STAT_STATE k) 0
     let s : State := s.set (LDG_TXN_STAT_STATE 2) 1
     let s : State := (List.range 15).foldl (fun s n => s.set (LDG_SLOT_STAT_STATE n) 3) s
     let s : State := s.set (LDG_CC_MASK_DEV (1 / 32)) (2 ^ (1 % 32))
     decide (s.reaches i LDG_CC_CMD = true ∧ s.role = 1 ∧ s.get LDG_CC_STAT_PHASE = 0 ∧ s.ccOthers ≠ [] ∧ s.slotState k = .free ∧
       ((∀ j : Fin 16, j < k → s.slotState j ≠ .free)) ∧ s.txnState 2 = .opened ∧ s.jobRuns 2 = false)) &&
    (let i : Fin 5 := 1
     let k : Fin 16 := 15
     let s : State := base
     let s : State := s.set LDG_CC_CFG_ROLE 1
     let s : State := s.set LDG_CC_STAT_PHASE (0)
     let s : State := s.set (LDG_SLOT_STAT_STATE k) 0
     let s : State := (List.range 15).foldl (fun s n => s.set (LDG_SLOT_STAT_STATE n) 3) s
     let s : State := s.set (LDG_CC_MASK_DEV (1 / 32)) (2 ^ (1 % 32))
     decide (s.reaches i LDG_CC_CMD = true ∧ s.role = 1 ∧ s.get LDG_CC_STAT_PHASE = 0 ∧ s.ccOthers ≠ [] ∧ s.slotState k = .free ∧
       ((∀ j : Fin 16, j < k → s.slotState j ≠ .free)) ∧ s.txnState 2 ≠ .opened)) &&
    (let m : CtlMsg := ⟨3, 0, 0, List.replicate 16 0⟩
     let r : List CtlMsg := []
     let s : State := base
     let m := { m with b := setB m.b 0 (6) }
     let s : State := w_cly s ({ s.cly with inbox := m :: r })
     let s : State := s.set LDG_CC_STAT_PHASE (if (1) = 0 then 1 else 0)
     decide (s.cly.inbox = m :: r ∧ byteAt m.b 0 = 6 ∧ (s.get LDG_CC_STAT_PHASE ≠ 1 ∨ byteAt m.b 1 ≠ s.ccSlot))) &&
    (let m : CtlMsg := ⟨3, 0, 0, List.replicate 16 0⟩
     let r : List CtlMsg := []
     let s : State := base
     let m := { m with b := setB m.b 0 (6) }
     let m := { m with b := setB m.b 1 (s.ccSlot) }
     let m := { m with b := setB m.b 2 (0) }
     let s : State := w_cly s ({ s.cly with inbox := m :: r })
     let s : State := s.set LDG_CC_STAT_PHASE (1)
     decide (s.cly.inbox = m :: r ∧ byteAt m.b 0 = 6 ∧ s.get LDG_CC_STAT_PHASE = 1 ∧ byteAt m.b 1 = s.ccSlot ∧ byteAt m.b 2 = 0 ∧
       (∃ d ∈ s.ownDev :: s.ccOthers, d ≠ m.src ∧ d ∉ s.ldg.cc.ready))) &&
    (let m : CtlMsg := ⟨0, 0, 0, List.replicate 16 0⟩
     let r : List CtlMsg := []
     let s : State := base
     let m := { m with b := setB m.b 0 (6) }
     let m := { m with b := setB m.b 1 (s.ccSlot) }
     let m := { m with b := setB m.b 2 (0) }
     let s : State := w_cly s ({ s.cly with inbox := m :: r })
     let s : State := s.set LDG_CC_STAT_PHASE (1)
     let s : State := w_ldg s ({ s.ldg with cc := { s.ldg.cc with goPend := false } })
     let s : State := s.set CLY_CKPT_STBY_EN (0)
     decide (s.cly.inbox = m :: r ∧ byteAt m.b 0 = 6 ∧ s.get LDG_CC_STAT_PHASE = 1 ∧ byteAt m.b 1 = s.ccSlot ∧ byteAt m.b 2 = 0 ∧
       s.ldg.cc.goPend = false ∧ s.get CLY_CKPT_STBY_EN = 0 ∧ ((∀ d ∈ s.ownDev :: s.ccOthers, d = m.src ∨ d ∈ s.ldg.cc.ready)))) &&
    (let m : CtlMsg := ⟨3, 0, 0, List.replicate 16 0⟩
     let r : List CtlMsg := []
     let s : State := base
     let m := { m with b := setB m.b 2 1 }
     let m := { m with b := setB m.b 0 (6) }
     let m := { m with b := setB m.b 1 (s.ccSlot) }
     let s : State := w_cly s ({ s.cly with inbox := m :: r })
     let s : State := s.set LDG_CC_STAT_PHASE (1)
     let s : State := s.set (LDG_CC_MASK_DEV (1 / 32)) (2 ^ (1 % 32))
     let s : State := w_cly s ({ s.cly with inbox := m :: r })
     decide (s.cly.inbox = m :: r ∧ byteAt m.b 0 = 6 ∧ s.get LDG_CC_STAT_PHASE = 1 ∧ byteAt m.b 1 = s.ccSlot ∧ byteAt m.b 2 ≠ 0 ∧
       m.src < 2048 ∧ s.ccOthers ≠ [])) &&
    (let i : Fin 5 := 1
     let s : State := base
     let s : State := s.set LDG_CC_CFG_ROLE 1
     let s : State := s.set LDG_CC_STAT_PHASE (1)
     let s : State := s.set (LDG_CC_MASK_DEV (1 / 32)) (2 ^ (1 % 32))
     decide (s.reaches i LDG_CC_CMD = true ∧ s.role = 1 ∧ s.get LDG_CC_STAT_PHASE = 1 ∧ s.ccOthers ≠ [])) &&
    (let s : State := base
     let s : State := s.set LDG_CC_CFG_ROLE 1
     let s : State := s.set LDG_CC_STAT_PHASE (1)
     let s : State := w_ldg s ({ s.ldg with cc := { s.ldg.cc with goPend := false } })
     let s : State := s.set (LDG_CC_MASK_DEV (1 / 32)) (2 ^ (1 % 32))
     decide (s.role = 1 ∧ s.get LDG_CC_STAT_PHASE = 1 ∧ s.ldg.cc.goPend = false ∧ s.ccOthers ≠ [] ∧
       max 1 (s.get LDG_CC_PREP_TO_TIMEOUT_US) * 1000 ≤ s.now - s.ldg.cc.started)) &&
    (let s : State := base
     decide ((s.role ≠ 1 ∨ s.get LDG_CC_STAT_PHASE ≠ 1 ∨ s.now - s.ldg.cc.started < max 1 (s.get LDG_CC_PREP_TO_TIMEOUT_US) * 1000)))) = true := by
  decide +kernel

theorem witness_GoCommitsThePreparedSlot :
(
    (let k : Fin 16 := 15
     let s : State := base
     let s : State := w_ldg s ({ s.ldg with cc := { s.ldg.cc with retireAt := none } })
     let s : State := s.set LDG_CC_STAT_SLOT 15
     decide (s.ldg.cc.retireAt = none ∧ s.ccSlot = k.val ∧ (∀ p ∈ (s.txn 2).staged, blockOf p.1 ≠ 1) ∧ s.ccDue = false)) &&
    (let c : Fin 16 := 0
     let k : Fin 16 := 15
     let s : State := base
     let s : State := w_ldg s ({ s.ldg with cc := { s.ldg.cc with retireAt := none } })
     let s : State := (s.set LDG_CC_STAT_SLOT 15).set (LDG_SLOT_STAT_STATE 15) 7
     let s : State := w_ldg s ({ s.ldg with txns := Tbl.set (fun _ => {}) s.ldg.txns 2 { s.txn 2 with phase := .bound (some 15) } })
     let s : State := s.set LDG_CC_STAT_PHASE 3
     decide (s.ldg.cc.retireAt = none ∧ s.ccSlot = k.val ∧ (∀ p ∈ (s.txn 2).staged, blockOf p.1 ≠ 1) ∧ s.ccDue = true ∧ s.newest = c.val ∧
       c ≠ k)) &&
    (let w : Nat := 0
     let s : State := base
     let s : State := w_ldg s ({ s.ldg with cc := { s.ldg.cc with retireAt := some w } })
     let s : State := s.set (LDG_SLOT_STAT_STATE s.oldestLive) 3
     let s : State := s.set (LDG_SLOT_RPRE_RPRE s.oldestLive) (0)
     decide (s.ldg.cc.retireAt = some w ∧ w ≤ s.tbNs ∧ s.slotState s.oldestLive = .old ∧ s.get (LDG_SLOT_RPRE_RPRE s.oldestLive) = 0 ∧
       s.role ≠ 2 ∧ s.oldestLive < 16)) &&
    (let m : CtlMsg := ⟨3, 0, 0, List.replicate 16 0⟩
     let r : List CtlMsg := []
     let s : State := base
     let m := { m with b := setB m.b 0 (7) }
     let s : State := w_cly s ({ s.cly with inbox := m :: r })
     decide (s.cly.inbox = m :: r ∧ byteAt m.b 0 = 7 ∧ s.fromMaster m.src = false)) &&
    (let m : CtlMsg := ⟨3, 0, 0, List.replicate 16 0⟩
     let r : List CtlMsg := []
     let s : State := base
     let m := { m with b := setB (setB m.b 1 15) 12 1 }
     let m := { m with b := setB m.b 0 (7) }
     let s : State := w_cly s ({ s.cly with inbox := m :: r })
     let s : State := (s.set CLY_MST_STAT_VALID 1).set CLY_MST_STAT_MASTER m.src
     let s : State := s.set LDG_CC_STAT_PHASE (if (3) = 0 then 1 else 0)
     let s : State := (s.set LDG_CC_STAT_SLOT 15).set (LDG_SLOT_STAT_STATE 15) 7
     let s : State := w_ldg s ({ s.ldg with txns := Tbl.set (fun _ => {}) s.ldg.txns 2 { s.txn 2 with phase := .bound (some 15) } })
     decide (s.cly.inbox = m :: r ∧ byteAt m.b 0 = 7 ∧ s.fromMaster m.src = true ∧ s.ccPrepared (byteAt m.b 1 % 16) (m.num 4 4) = true ∧
       s.get LDG_CC_STAT_PHASE ≠ 3 ∧ s.reached (m.num 12 4) (m.num 8 4) = false)) &&
    (let m : CtlMsg := ⟨3, 0, 0, List.replicate 16 0⟩
     let r : List CtlMsg := []
     let s : State := base
     let m := { m with b := setB m.b 0 (7) }
     let s : State := w_cly s ({ s.cly with inbox := m :: r })
     let s : State := (s.set CLY_MST_STAT_VALID 1).set CLY_MST_STAT_MASTER m.src
     let s : State := s.set LDG_CC_EPOCH_EPOCH (m.num 4 4)
     let s : State := s.set LDG_CC_STAT_RESULT (1)
     decide (s.cly.inbox = m :: r ∧ byteAt m.b 0 = 7 ∧ s.fromMaster m.src = true ∧ s.ccPrepared (byteAt m.b 1 % 16) (m.num 4 4) = false ∧
       s.get LDG_CC_EPOCH_EPOCH = m.num 4 4 ∧ s.get LDG_CC_STAT_RESULT = 1))) = true := by
  decide +kernel

theorem witness_MembersFollowTheMaster :
(
    (let m : CtlMsg := ⟨3, 0, 0, List.replicate 16 0⟩
     let r : List CtlMsg := []
     let s : State := base
     let m := { m with b := setB m.b 0 (5) }
     let s : State := w_cly s ({ s.cly with inbox := m :: r })
     let s : State := (s.set CLY_MST_STAT_VALID 1).set CLY_MST_STAT_MASTER m.src
     let s : State := s.set (LDG_TXN_STAT_STATE 2) 1
     let s : State := s.set (LDG_SLOT_STAT_STATE (byteAt m.b 1 % 16)) 0
     decide (s.cly.inbox = m :: r ∧ byteAt m.b 0 = 5 ∧ s.fromMaster m.src = true ∧ s.txnState 2 = .opened ∧
       s.slotState (byteAt m.b 1 % 16) = .free ∧ s.jobRuns 2 = false)) &&
    (let m : CtlMsg := ⟨3, 0, 0, List.replicate 16 0⟩
     let r : List CtlMsg := []
     let s : State := base
     let m := { m with b := setB m.b 0 (5) }
     let s : State := w_cly s ({ s.cly with inbox := m :: r })
     let s : State := (s.set CLY_MST_STAT_VALID 1).set CLY_MST_STAT_MASTER m.src
     let c := (if s.txnState 2 ≠ .opened then 1 else if s.slotState (byteAt m.b 1 % 16) ≠ .free then 2 else if s.jobRuns 2 = true then 3 else 0)
     decide (s.cly.inbox = m :: r ∧ byteAt m.b 0 = 5 ∧ s.fromMaster m.src = true ∧
       c = (if s.txnState 2 ≠ .opened then 1 else if s.slotState (byteAt m.b 1 % 16) ≠ .free then 2 else if s.jobRuns 2 = true then 3 else 0) ∧
       c ≠ 0)) &&
    (let m : CtlMsg := ⟨3, 0, 0, List.replicate 16 0⟩
     let r : List CtlMsg := []
     let s : State := base
     let m := { m with b := setB m.b 1 15 }
     let m := { m with b := setB m.b 0 (8) }
     let s : State := w_cly s ({ s.cly with inbox := m :: r })
     let s : State := (s.set CLY_MST_STAT_VALID 1).set CLY_MST_STAT_MASTER m.src
     let s : State := (s.set LDG_CC_STAT_SLOT 15).set (LDG_SLOT_STAT_STATE 15) 7
     let s : State := w_ldg s ({ s.ldg with txns := Tbl.set (fun _ => {}) s.ldg.txns 2 { s.txn 2 with phase := .bound (some 15) } })
     decide (s.cly.inbox = m :: r ∧ byteAt m.b 0 = 8 ∧ s.fromMaster m.src = true ∧ s.ccPrepared (byteAt m.b 1 % 16) (m.num 4 4) = true)) &&
    (let m : CtlMsg := ⟨3, 0, 0, List.replicate 16 0⟩
     let r : List CtlMsg := []
     let s : State := base
     let m := { m with b := setB m.b 0 (11) }
     let s : State := w_cly s ({ s.cly with inbox := m :: r })
     decide (s.cly.inbox = m :: r ∧ byteAt m.b 0 = 11 ∧ s.fromMaster m.src = false)) &&
    (let m : CtlMsg := ⟨3, 0, 0, List.replicate 16 0⟩
     let r : List CtlMsg := []
     let s : State := base
     let m := { m with b := setB m.b 0 (11) }
     let s : State := w_cly s ({ s.cly with inbox := m :: r })
     let s : State := (s.set CLY_MST_STAT_VALID 1).set CLY_MST_STAT_MASTER m.src
     decide (s.cly.inbox = m :: r ∧ byteAt m.b 0 = 11 ∧ s.fromMaster m.src = true)) &&
    (let m : CtlMsg := ⟨3, 0, 0, List.replicate 16 0⟩
     let r : List CtlMsg := []
     let s : State := base
     let m := { m with b := setB m.b 4 1 }
     let m := { m with b := setB m.b 0 (9) }
     let s : State := w_cly s ({ s.cly with inbox := m :: r })
     decide (s.cly.inbox = m :: r ∧ byteAt m.b 0 = 9 ∧ m.num 4 4 ≠ s.get LDG_CC_EPOCH_EPOCH)) &&
    (let m : CtlMsg := ⟨3, 0, 0, List.replicate 16 0⟩
     let r : List CtlMsg := []
     let s : State := base
     let m := { m with b := setB m.b 0 (9) }
     let s : State := w_cly s ({ s.cly with inbox := m :: r })
     decide (s.cly.inbox = m :: r ∧ byteAt m.b 0 = 9 ∧ m.num 4 4 = s.get LDG_CC_EPOCH_EPOCH)) &&
    (let m : CtlMsg := ⟨3, 0, 0, List.replicate 16 0⟩
     let r : List CtlMsg := []
     let s : State := base
     let m := { m with b := setB m.b 0 (10) }
     let s : State := w_cly s ({ s.cly with inbox := m :: r })
     decide (s.cly.inbox = m :: r ∧ byteAt m.b 0 = 10 ∧ s.role ≠ 1)) &&
    (let s : State := base
     let s : State := w_ldg s ({ s.ldg with cc := { s.ldg.cc with goSent := false } })
     let s : State := w_ldg s ({ s.ldg with cc := { s.ldg.cc with abortSent := false } })
     decide (s.ldg.cc.goSent = false ∧ s.ldg.cc.abortSent = false)) &&
    (let s : State := base
     let s : State := w_ldg s ({ s.ldg with cc := { s.ldg.cc with lastSent := 10 ^ 12 } })
     decide (s.now - s.ldg.cc.lastSent < 100000)) &&
    (let s : State := base
     let s : State := w_ldg s ({ s.ldg with cc := { s.ldg.cc with goSent := true } })
     decide ((s.ldg.cc.goSent = true ∨ s.ldg.cc.abortSent = true) ∧ 100000 ≤ s.now - s.ldg.cc.lastSent)) &&
    (let k : Fin 16 := 15
     let s : State := base
     let s : State := s.set LDG_CC_CFG_ROLE 2
     let s : State := s.set CLY_MST_STAT_VALID (1)
     let s : State := s.set (LDG_SLOT_STAT_STATE k) 3
     decide (s.role = 2 ∧ s.get CLY_MST_STAT_VALID = 1 ∧ s.emptyMask ≠ s.ldg.cc.sentMask))) = true := by
  decide +kernel

theorem witness_LinksComeUpAndGoDown :
(
    (let l : Fin 256 := 255
     let s : State := base
     let s : State := s.set (CLY_LINK_CFG_EN (l / 32) (l % 32)) (1)
     let s : State := s.set (ctlEn clyPage) (1)
     let s : State := w_safe s (false)
     let s : State := s.set (PRT_SLICE_MODE_MODE (l / 16)) 9
     decide (s.get (CLY_LINK_CFG_EN (l / 32) (l % 32)) = 1 ∧ s.portMode l = 9 ∧ s.cfg (ctlEn clyPage) = 1 ∧ s.safe = false ∧
       s.linkState l < 2)) &&
    (let l : Fin 256 := 255
     let s : State := base
     let s : State := s.set (CLY_LINK_CFG_EN (l / 32) (l % 32)) (0)
     decide ((s.get (CLY_LINK_CFG_EN (l / 32) (l % 32)) = 0 ∨ s.safe = true ∨ 2 ≤ s.linkState l))) &&
    (let l : Fin 256 := 255
     let s : State := base
     let s : State := s.set (CLY_LINK_STAT_STATE (l / 32) (l % 32)) 2
     decide (2 ≤ s.linkState l)) &&
    (let l : Fin 256 := 255
     let s : State := base
     let lost := true
     let s : State := s.set (CLY_LINK_STAT_STATE (l / 32) (l % 32)) 3
     decide ((lost = true ∨ s.linkState l = 3 ∧ 30000 ≤ s.now - (s.lnk l).helloAt) ∧ s.linkState l ≠ 0)) &&
    (let l : Fin 256 := 255
     let s : State := base
     decide ((s.linkState l ≠ 3 ∨ s.now - (s.lnk l).helloAt < 30000))) &&
    (let l : Fin 256 := 255
     let s : State := base
     let s : State := s.set (CLY_LINK_STAT_STATE (l / 32) (l % 32)) 2
     decide (2 ≤ s.linkState l)) &&
    (let l : Fin 256 := 255
     let b : List Byte := []
     let r : List (Nat × List Byte) := []
     let s : State := base
     let b := setB b 0 (1)
     let s : State := w_cly s ({ s.cly with linkIn := (l.val, b) :: r })
     let s : State := s.set (CLY_LINK_STAT_STATE (l / 32) (l % 32)) 2
     decide (s.cly.linkIn = (l.val, b) :: r ∧ byteAt b 0 = 1 ∧ 2 ≤ s.linkState l ∧ leNat (bytesAt b 1 2) % 2048 = s.ownDev)) &&
    (let l : Fin 256 := 255
     let b : List Byte := []
     let r : List (Nat × List Byte) := []
     let s : State := base
     let b := setB b 1 9
     let b := setB b 0 (1)
     let s : State := w_cly s ({ s.cly with linkIn := (l.val, b) :: r })
     let s : State := s.set (CLY_LINK_STAT_STATE (l / 32) (l % 32)) 2
     decide (s.cly.linkIn = (l.val, b) :: r ∧ byteAt b 0 = 1 ∧ 2 ≤ s.linkState l ∧ leNat (bytesAt b 1 2) % 2048 ≠ s.ownDev)) &&
    (let l : Fin 256 := 255
     let b : List Byte := []
     let r : List (Nat × List Byte) := []
     let s : State := base
     let b := setB b 0 (2)
     let s : State := w_cly s ({ s.cly with linkIn := (l.val, b) :: r })
     decide (s.cly.linkIn = (l.val, b) :: r ∧ byteAt b 0 = 2)) &&
    (let l : Fin 256 := 255
     let b : List Byte := []
     let r : List (Nat × List Byte) := []
     let s : State := base
     let b := setB b 0 (3)
     let s : State := w_cly s ({ s.cly with linkIn := (l.val, b) :: r })
     decide (s.cly.linkIn = (l.val, b) :: r ∧ byteAt b 0 = 3)) &&
    (let l : Fin 256 := 255
     let b : List Byte := []
     let r : List (Nat × List Byte) := []
     let s : State := base
     let b := setB b 0 (4)
     let s : State := w_cly s ({ s.cly with linkIn := (l.val, b) :: r })
     decide (s.cly.linkIn = (l.val, b) :: r ∧ byteAt b 0 = 4)) &&
    (let l : Fin 256 := 255
     let b : List Byte := []
     let r : List (Nat × List Byte) := []
     let s : State := base
     let turn : Nat := 1
     let p : Nat := 10 ^ 12 - 100
     let b := setB b 0 (5)
     let s : State := w_cly s ({ s.cly with linkIn := (l.val, b) :: r })
     let s : State := w_cly s ({ s.cly with links := Tbl.set (fun _ => {}) s.cly.links l { s.lnk l with pingAt := some p } })
     decide (s.cly.linkIn = (l.val, b) :: r ∧ byteAt b 0 = 5 ∧ (s.lnk l).pingAt = some p ∧ (((s.now - p) * 256 - turn) / 2) < 2 ^ 24))) = true := by
  decide +kernel

theorem witness_CellsAreSentAndChecked :
(
    (let l : Fin 256 := 255
     let s : State := base
     let s : State := w_cly s ({ s.cly with ctrl := [] })
     let s : State := w_cly s ({ s.cly with txq := [] })
     let m := ([] : List Byte)
     let r := ((s.lnk l).msgs).tail
     let s : State := w_cly s ({ s.cly with links := Tbl.set (fun _ => {}) s.cly.links l { s.lnk l with msgs := m :: r } })
     let s : State := s.set (CLY_LINK_STAT_STATE (l / 32) (l % 32)) 2
     let s : State := w_cly s ({ s.cly with links := Tbl.set (fun _ => {}) s.cly.links l { s.lnk l with msgs := [[1, 2], [3]] } })
     match ((s.lnk l).msgs) with
     | [] => false
     | m :: _ =>
       let r := ((s.lnk l).msgs).tail
       decide (s.cly.ctrl = [] ∧ s.cly.txq = [] ∧ (s.lnk l).msgs = m :: r ∧ 2 ≤ s.linkState l)) &&
    (let l : Fin 256 := 255
     let s : State := base
     let s : State := w_cly s ({ s.cly with ctrl := [] })
     let s : State := w_cly s ({ s.cly with txq := [] })
     let s : State := w_cly s ({ s.cly with links := Tbl.set (fun _ => {}) s.cly.links l { s.lnk l with msgs := [] } })
     let s : State := s.set (CLY_LINK_STAT_STATE (l / 32) (l % 32)) (3)
     let c := ({} : Cell)
     let q := ((s.lnk l).cells).tail
     let s : State := w_cly s ({ s.cly with links := Tbl.set (fun _ => {}) s.cly.links l { s.lnk l with cells := c :: q } })
     let s : State := w_cly s ({ s.cly with links := Tbl.set (fun _ => {}) s.cly.links l { s.lnk l with cells := [{ type := 4 }, {}] } })
     match ((s.lnk l).cells) with
     | [] => false
     | c :: _ =>
       let q := ((s.lnk l).cells).tail
       decide (s.cly.ctrl = [] ∧ s.cly.txq = [] ∧ (s.lnk l).msgs = [] ∧ s.linkState l = 3 ∧ (s.lnk l).cells = c :: q ∧ c.type = 4)) &&
    (let l : Fin 256 := 255
     let s : State := base
     let s : State := w_cly s ({ s.cly with ctrl := [] })
     let s : State := w_cly s ({ s.cly with txq := [] })
     let s : State := w_cly s ({ s.cly with links := Tbl.set (fun _ => {}) s.cly.links l { s.lnk l with msgs := [] } })
     let s : State := s.set (CLY_LINK_STAT_STOPPED (l / 32) (l % 32)) (1)
     decide (s.cly.ctrl = [] ∧ s.cly.txq = [] ∧ (s.lnk l).msgs = [] ∧ (∀ c ∈ (s.lnk l).cells, c.type = 1) ∧
       s.get (CLY_LINK_STAT_STOPPED (l / 32) (l % 32)) = 1)) &&
    (let l : Fin 256 := 255
     let s : State := base
     let s : State := w_safe s (true)
     decide ((s.safe = true ∨ s.linkState l < 2))) &&
    (let l : Fin 256 := 255
     let b : List Byte := setB (List.replicate 272 0) 15 1
     let s : State := base
     let s : State := w_safe s (false)
     let s : State := s.set (CLY_LINK_STAT_STATE (l / 32) (l % 32)) (3)
     decide (s.safe = false ∧ s.linkState l = 3 ∧ byteAt b 15 ≠ hcrc (bytesAt b 0 15))) &&
    (let l : Fin 256 := 255
     let b : List Byte := ({ type := 1, src := 2047, seq := 5 } : Cell).bytes
     let s : State := base
     let s : State := w_safe s (false)
     let s : State := s.set (CLY_LINK_STAT_STATE (l / 32) (l % 32)) (3)
     let k : Nat := ctxKeyOf (cellOf b)
     let s : State := w_cly s ({ s.cly with ctx := Tbl.set (fun _ => {}) s.cly.ctx k { s.ctxOf k with held := [{ seq := 5 }] } })
     decide (s.safe = false ∧ s.linkState l = 3 ∧ byteAt b 15 = hcrc (bytesAt b 0 15) ∧ (cellOf b).type = 1 ∧
       bits (beNat (bytesAt b 0 16)) 8 32 = pcrc (cellOf b).len (cellOf b).payload ∧ s.dataStaged < 64512 ∧ (cellOf b).dst = s.ownDev ∧
       k = ctxKeyOf (cellOf b) ∧ (∃ h ∈ (s.ctxOf k).held, h.seq = (cellOf b).seq) ∧ (cellOf b).eof = false)) &&
    (let l : Fin 256 := 255
     let b : List Byte := ({ type := 1, src := 2047, seq := 5 } : Cell).bytes
     let k : Nat := 1
     let s : State := base
     let s : State := w_safe s (false)
     let s : State := s.set (CLY_LINK_STAT_STATE (l / 32) (l % 32)) (3)
     let n := (4 : Nat)
     let s : State := w_cly s ({ s.cly with ctx := Tbl.set (fun _ => {}) s.cly.ctx k { s.ctxOf k with n := some n } })
     let k : Nat := ctxKeyOf (cellOf b)
     let s : State := w_cly s ({ s.cly with ctx := Tbl.set (fun _ => {}) s.cly.ctx k { s.ctxOf k with n := some 4 } })
     match ((s.ctxOf k).n) with
     | none => false
     | some n =>
       decide (s.safe = false ∧ s.linkState l = 3 ∧ byteAt b 15 = hcrc (bytesAt b 0 15) ∧ (cellOf b).type = 1 ∧
         bits (beNat (bytesAt b 0 16)) 8 32 = pcrc (cellOf b).len (cellOf b).payload ∧ s.dataStaged < 64512 ∧ (cellOf b).dst = s.ownDev ∧
         k = ctxKeyOf (cellOf b) ∧ (s.ctxOf k).n = some n ∧ (∀ h ∈ (s.ctxOf k).held, h.seq ≠ (cellOf b).seq ∧ h.seq ≠ n) ∧ n < 2 ^ 32 ∧
         0 < ((cellOf b).seq + 2 ^ 32 - n) % 2 ^ 32 ∧ ((cellOf b).seq + 2 ^ 32 - n) % 2 ^ 32 < 65536)) &&
    (let l : Fin 256 := 255
     let b : List Byte := ({ type := 1, src := 2047, seq := 0 } : Cell).bytes
     let k : Nat := 1
     let s : State := base
     let s : State := w_safe s (false)
     let s : State := s.set (CLY_LINK_STAT_STATE (l / 32) (l % 32)) (3)
     let n := (4 : Nat)
     let s : State := w_cly s ({ s.cly with ctx := Tbl.set (fun _ => {}) s.cly.ctx k { s.ctxOf k with n := some n } })
     let k : Nat := ctxKeyOf (cellOf b)
     let s : State := w_cly s ({ s.cly with ctx := Tbl.set (fun _ => {}) s.cly.ctx k { s.ctxOf k with n := some (2 ^ 31) } })
     match ((s.ctxOf k).n) with
     | none => false
     | some n =>
       decide (s.safe = false ∧ s.linkState l = 3 ∧ byteAt b 15 = hcrc (bytesAt b 0 15) ∧ (cellOf b).type = 1 ∧
         bits (beNat (bytesAt b 0 16)) 8 32 = pcrc (cellOf b).len (cellOf b).payload ∧ s.dataStaged < 64512 ∧ (cellOf b).dst = s.ownDev ∧
         k = ctxKeyOf (cellOf b) ∧ (s.ctxOf k).n = some n ∧ (∀ h ∈ (s.ctxOf k).held, h.seq ≠ (cellOf b).seq ∧ h.seq ≠ n) ∧ n < 2 ^ 32 ∧
         2 ^ 31 ≤ ((cellOf b).seq + 2 ^ 32 - n) % 2 ^ 32 ∧ 65536 ≤ (n + 2 ^ 32 - (cellOf b).seq) % 2 ^ 32))) = true := by
  decide +kernel

theorem witness_ContextsReportsAndReach :
(
    (let src : Fin 2048 := 2047
     let cls : Fin 9 := 8
     let n : Nat := 1
     let w : Nat := 10 ^ 12
     let s : State := base
     let s : State := w_cly s ({ s.cly with ctx := Tbl.set (fun _ => {}) s.cly.ctx (16 * src + cls) { s.ctxOf (16 * src + cls) with n := some n } })
     let s : State := w_cly s ({ s.cly with ctx := Tbl.set (fun _ => {}) s.cly.ctx (16 * src + cls) { s.ctxOf (16 * src + cls) with since := some w } })
     decide ((s.ctxOf (16 * src + cls)).n = some n ∧ (s.ctxOf (16 * src + cls)).since = some w ∧ s.now - w < s.reordUs * 1000)) &&
    (let src : Fin 2048 := 2047
     let cls : Fin 9 := 8
     let n : Nat := 1
     let w : Nat := 1
     let s : State := base
     let s : State := w_cly s ({ s.cly with ctx := Tbl.set (fun _ => {}) s.cly.ctx (16 * src + cls) { s.ctxOf (16 * src + cls) with n := some n } })
     let s : State := w_cly s ({ s.cly with ctx := Tbl.set (fun _ => {}) s.cly.ctx (16 * src + cls) { s.ctxOf (16 * src + cls) with since := some w } })
     let s : State := w_cly s ({ s.cly with ctx := Tbl.set (fun _ => {}) s.cly.ctx (16 * src + cls) { s.ctxOf (16 * src + cls) with build := none } })
     decide ((s.ctxOf (16 * src + cls)).n = some n ∧ (s.ctxOf (16 * src + cls)).since = some w ∧ s.reordUs * 1000 ≤ s.now - w ∧
       (s.ctxOf (16 * src + cls)).build = none ∧ ((s.ctxOf (16 * src + cls)).held.all fun h => h.seq != (n + 1) % 2 ^ 32) = true)) &&
    (let src : Fin 2048 := 2047
     let cls : Fin 9 := 8
     let w : Nat := 10 ^ 12
     let c : Cell := {}
     let s : State := base
     let c := { c with type := 2 }
     let c := { c with bad := false }
     let s : State := w_cly s ({ s.cly with ctx := Tbl.set (fun _ => {}) s.cly.ctx (16 * src + cls) { s.ctxOf (16 * src + cls) with n := none } })
     let s : State := w_cly s ({ s.cly with ctx := Tbl.set (fun _ => {}) s.cly.ctx (16 * src + cls) { s.ctxOf (16 * src + cls) with since := some w } })
     let s : State := w_cly s ({ s.cly with ctx := Tbl.set (fun _ => {}) s.cly.ctx (16 * src + cls) { s.ctxOf (16 * src + cls) with held := [c] } })
     decide ((s.ctxOf (16 * src + cls)).n = none ∧ (s.ctxOf (16 * src + cls)).since = some w ∧ (s.ctxOf (16 * src + cls)).held = [c] ∧
       c.type = 2 ∧ c.bad = false ∧ s.now - w < s.reordUs * 1000)) &&
    (let src : Fin 2048 := 2047
     let cls : Fin 9 := 8
     let w : Nat := 1
     let c : Cell := {}
     let s : State := base
     let c := { c with type := 2 }
     let c := { c with bad := false }
     let s : State := w_cly s ({ s.cly with ctx := Tbl.set (fun _ => {}) s.cly.ctx (16 * src + cls) { s.ctxOf (16 * src + cls) with n := none } })
     let s : State := w_cly s ({ s.cly with ctx := Tbl.set (fun _ => {}) s.cly.ctx (16 * src + cls) { s.ctxOf (16 * src + cls) with since := some w } })
     let s : State := w_cly s ({ s.cly with ctx := Tbl.set (fun _ => {}) s.cly.ctx (16 * src + cls) { s.ctxOf (16 * src + cls) with held := [c] } })
     decide ((s.ctxOf (16 * src + cls)).n = none ∧ (s.ctxOf (16 * src + cls)).since = some w ∧ (s.ctxOf (16 * src + cls)).held = [c] ∧
       c.type = 2 ∧ c.bad = false ∧ s.reordUs * 1000 ≤ s.now - w)) &&
    (let m : CtlMsg := ⟨3, 0, 0, List.replicate 16 0⟩
     let r : List CtlMsg := []
     let s : State := base
     let m := { m with b := setB m.b 0 (3) }
     let s : State := w_cly s ({ s.cly with inbox := m :: r })
     decide (s.cly.inbox = m :: r ∧ byteAt m.b 0 = 3)) &&
    (let m : CtlMsg := ⟨3, 0, 0, List.replicate 16 0⟩
     let r : List CtlMsg := []
     let s : State := base
     let m := { m with b := setB m.b 0 (1) }
     let s : State := w_cly s ({ s.cly with inbox := m :: r })
     decide (s.cly.inbox = m :: r ∧ byteAt m.b 0 = 1)) &&
    (let m : CtlMsg := ⟨3, 0, 0, List.replicate 16 0⟩
     let r : List CtlMsg := []
     let s : State := base
     let m := { m with b := setB m.b 0 (2) }
     let s : State := w_cly s ({ s.cly with inbox := m :: r })
     decide (s.cly.inbox = m :: r ∧ byteAt m.b 0 = 2 ∧ s.voqOfFlow m.src (m.num 1 2 % 512) (byteAt m.b 3 % 8) = none)) &&
    (let m : CtlMsg := ⟨3, 0, 0, List.replicate 16 0⟩
     let r : List CtlMsg := []
     let s : State := base
     let m := { m with src := 0, b := setB m.b 1 1 }
     let m := { m with b := setB m.b 0 (2) }
     let s : State := w_cly s ({ s.cly with inbox := m :: r })
     let s : State := w_voq s ({ s.voq with dest := [(7, 0x80000800)] })
     match (s.voqOfFlow m.src (m.num 1 2 % 512) (byteAt m.b 3 % 8)) with
     | none => false
     | some v =>
       decide (s.cly.inbox = m :: r ∧ byteAt m.b 0 = 2 ∧ s.voqOfFlow m.src (m.num 1 2 % 512) (byteAt m.b 3 % 8) = some v)) &&
    (let v : Fin 131072 := 131071
     let s : State := base
     decide (s.voqDest v = none)) &&
    (let v : Fin 131072 := 7
     let s : State := base
     let s : State := w_voq s ({ s.voq with dest := [(0, 0x80000005)], q := [(7, [0])] })
     match (s.voqDest v) with
     | none => false
     | some d =>
       decide (s.voqDest v = some d ∧ d.dev ≠ s.ownDev ∧ s.voqQ v ≠ [] ∧ 50000 ≤ s.now - Tbl.get (fun _ => 0) s.voq.reportAt v)) &&
    (let i : Fin 5 := 1
     let s : State := base
     decide (s.reaches i CLY_RCH_CMD = true)) &&
    (let i : Fin 5 := 1
     let s : State := base
     decide (s.reaches i CLY_RCH_CMD = true))) = true := by
  decide +kernel

theorem witness_RemoteAccessesAreAcknowledged :
(
    (let i : Fin 5 := 1
     let s : State := base
     let s : State := s.set CLY_RW_STAT_RUNNING (1)
     decide (s.reaches i CLY_RW_CMD = true ∧ s.get CLY_RW_STAT_RUNNING = 1)) &&
    (let i : Fin 5 := 1
     let s : State := base
     let s : State := s.set CLY_RW_STAT_RUNNING (1)
     decide (s.reaches i CLY_RW_CMD = true ∧ s.get CLY_RW_STAT_RUNNING = 1)) &&
    (let i : Fin 5 := 1
     let s : State := base
     let s : State := s.set CLY_RW_STAT_RUNNING (0)
     let s : State := s.set CLY_MST_STAT_SELF (0)
     decide (s.reaches i CLY_RW_CMD = true ∧ s.get CLY_RW_STAT_RUNNING = 0 ∧ s.get CLY_MST_STAT_SELF = 0)) &&
    (let i : Fin 5 := 1
     let s : State := base
     let s : State := s.set CLY_RW_STAT_RUNNING (0)
     let s : State := s.set CLY_MST_STAT_SELF (1)
     decide (s.reaches i CLY_RW_CMD = true ∧ s.get CLY_RW_STAT_RUNNING = 0 ∧ s.get CLY_MST_STAT_SELF = 1)) &&
    (let i : Fin 5 := 1
     let s : State := base
     let s : State := s.set CLY_RW_STAT_RUNNING (0)
     let s : State := s.set CLY_MST_STAT_SELF (1)
     decide (s.reaches i CLY_RW_CMD = true ∧ s.get CLY_RW_STAT_RUNNING = 0 ∧ s.get CLY_MST_STAT_SELF = 1)) &&
    (let s : State := base
     let s : State := s.set CLY_RW_STAT_RUNNING (0)
     decide ((s.get CLY_RW_STAT_RUNNING = 0 ∨ s.now - s.cly.rwAt < 50000))) &&
    (let s : State := base
     let s : State := s.set CLY_RW_STAT_RUNNING (1)
     decide (s.get CLY_RW_STAT_RUNNING = 1 ∧ 50000 ≤ s.now - s.cly.rwAt ∧ s.cly.rwTries < 3)) &&
    (let s : State := base
     let s : State := s.set CLY_RW_STAT_RUNNING (1)
     let s : State := w_cly s ({ s.cly with rwTries := 3 })
     decide (s.get CLY_RW_STAT_RUNNING = 1 ∧ 50000 ≤ s.now - s.cly.rwAt ∧ 3 ≤ s.cly.rwTries)) &&
    (let m : CtlMsg := ⟨3, 0, 0, List.replicate 16 0⟩
     let r : List CtlMsg := []
     let s : State := base
     let m := { m with b := setB m.b 0 (14) }
     let m := { m with src := s.get CLY_RW_DEV_DEV }
     let s : State := w_cly s ({ s.cly with inbox := m :: r })
     let s : State := s.set CLY_RW_STAT_RUNNING (1)
     decide (s.cly.inbox = m :: r ∧ byteAt m.b 0 = 14 ∧ s.get CLY_RW_STAT_RUNNING = 1 ∧ m.src = s.get CLY_RW_DEV_DEV ∧
       m.num 1 2 = s.cly.rwTag)) &&
    (let m : CtlMsg := ⟨3, 0, 0, List.replicate 16 0⟩
     let r : List CtlMsg := []
     let s : State := base
     let m := { m with b := setB m.b 0 (12) }
     let s : State := w_cly s ({ s.cly with inbox := m :: r })
     let s : State := (s.set CLY_MST_STAT_VALID 1).set CLY_MST_STAT_MASTER m.src
     let s : State := w_cly s ({ s.cly with lastTag := some (m.num 1 2) })
     decide (s.cly.inbox = m :: r ∧ (byteAt m.b 0 = 12 ∨ byteAt m.b 0 = 13) ∧ s.fromMaster m.src = true ∧ s.cly.lastTag = some (m.num 1 2))) &&
    (let m : CtlMsg := ⟨3, 0, 0, List.replicate 16 0⟩
     let r : List CtlMsg := []
     let s : State := base
     let m := { m with b := setB m.b 0 (12) }
     let s : State := w_cly s ({ s.cly with inbox := m :: r })
     decide (s.cly.inbox = m :: r ∧ (byteAt m.b 0 = 12 ∨ byteAt m.b 0 = 13) ∧ s.fromMaster m.src = false)) &&
    (let m : CtlMsg := ⟨3, 0, 0, List.replicate 16 0⟩
     let r : List CtlMsg := []
     let s : State := base
     let m := { m with b := setB m.b 4 0x20 }
     let m := { m with b := setB m.b 0 (12) }
     let s : State := w_cly s ({ s.cly with inbox := m :: r })
     let s : State := (s.set CLY_MST_STAT_VALID 1).set CLY_MST_STAT_MASTER m.src
     decide (s.cly.inbox = m :: r ∧ byteAt m.b 0 = 12 ∧ s.fromMaster m.src = true ∧ s.cly.lastTag ≠ some (m.num 1 2) ∧
       m.num 4 4 % 0x1000 = 0x20 ∧ assigned (m.num 4 4) = true ∧ s.reaches 2 (m.num 4 4) = true)) &&
    (let m : CtlMsg := ⟨3, 0, 0, List.replicate 16 0⟩
     let r : List CtlMsg := []
     let s : State := base
     let m := { m with b := setB m.b 4 0x20 }
     let m := { m with b := setB m.b 0 (13) }
     let s : State := w_cly s ({ s.cly with inbox := m :: r })
     let s : State := (s.set CLY_MST_STAT_VALID 1).set CLY_MST_STAT_MASTER m.src
     decide (s.cly.inbox = m :: r ∧ byteAt m.b 0 = 13 ∧ s.fromMaster m.src = true ∧ s.cly.lastTag ≠ some (m.num 1 2) ∧
       m.num 4 4 % 0x1000 = 0x20 ∧ assigned (m.num 4 4) = true ∧ s.reaches 2 (m.num 4 4) = true))) = true := by
  decide +kernel

theorem witness_ClaimsDecideTheMaster_1 :
(
    (let s : State := base
     let s : State := s.set CLY_MST_CFG_MROLE (if (1) = 0 then 1 else 0)
     decide ((s.get CLY_MST_CFG_MROLE ≠ 1 ∨ s.safe = true))) &&
    (let s : State := base
     let s : State := s.set CLY_MST_CFG_MROLE (1)
     let s : State := s.set (ctlEn clyPage) (1)
     let s : State := w_safe s (false)
     let s : State := w_cly s ({ s.cly with annAt := none })
     let s : State := s.set CLY_MST_STAT_VALID (0)
     let s : State := s.set CLY_MST_STAT_SELF (0)
     decide (s.get CLY_MST_CFG_MROLE = 1 ∧ s.cfg (ctlEn clyPage) = 1 ∧ s.safe = false ∧ s.cly.annAt = none ∧ s.get CLY_MST_STAT_VALID = 0 ∧
       s.get CLY_MST_STAT_SELF = 0)) &&
    (let m : CtlMsg := ⟨3, 0, 0, List.replicate 16 0⟩
     let r : List CtlMsg := []
     let s : State := base
     let m := { m with b := setB m.b 0 (15) }
     let s : State := w_cly s ({ s.cly with inbox := m :: r })
     let s : State := ((s.set CLY_MST_STAT_VALID 1).set CLY_MST_STAT_MASTER 1).set CLY_MST_CUR_CLAIM 7
     decide (s.cly.inbox = m :: r ∧ byteAt m.b 0 = 15 ∧ s.accepts m.src (m.num 4 4) = false)) &&
    (let m : CtlMsg := ⟨3, 0, 0, List.replicate 16 0⟩
     let r : List CtlMsg := []
     let s : State := base
     let m := { m with b := setB m.b 0 (15) }
     let s : State := w_cly s ({ s.cly with inbox := m :: r })
     decide (s.cly.inbox = m :: r ∧ byteAt m.b 0 = 15 ∧ s.accepts m.src (m.num 4 4) = true ∧ bit (byteAt m.b 8) 0 = false ∧ m.src < 2048 ∧
       m.src ≠ s.ownDev)) &&
    (let m : CtlMsg := ⟨3, 0, 0, List.replicate 16 0⟩
     let r : List CtlMsg := []
     let s : State := base
     let m := { m with b := setB m.b 0 (16) }
     let m := { m with src := s.get CLY_CKPT_STBY_STBY }
     let s : State := w_cly s ({ s.cly with inbox := m :: r })
     let s : State := w_ldg s ({ s.ldg with cc := { s.ldg.cc with goPend := false } })
     decide (s.cly.inbox = m :: r ∧ byteAt m.b 0 = 16 ∧ m.src = s.get CLY_CKPT_STBY_STBY ∧ s.ldg.cc.goPend = false ∧ s.cly.ho ≠ 2)) &&
    (let m : CtlMsg := ⟨3, 0, 0, List.replicate 16 0⟩
     let r : List CtlMsg := []
     let s : State := base
     let m := { m with b := setB m.b 0 (16) }
     let m := { m with src := s.get CLY_CKPT_STBY_STBY }
     let s : State := w_cly s ({ s.cly with inbox := m :: r })
     let s : State := w_ldg s ({ s.ldg with cc := { s.ldg.cc with goPend := false } })
     let s : State := w_cly s ({ s.cly with ho := 2 })
     decide (s.cly.inbox = m :: r ∧ byteAt m.b 0 = 16 ∧ m.src = s.get CLY_CKPT_STBY_STBY ∧ m.num 4 4 = s.cly.ckSeq ∧ s.ldg.cc.goPend = false ∧
       s.cly.ho = 2)) &&
    (let m : CtlMsg := ⟨3, 0, 0, List.replicate 16 0⟩
     let r : List CtlMsg := []
     let s : State := base
     let m := { m with b := setB m.b 0 (17) }
     let s : State := w_cly s ({ s.cly with inbox := m :: r })
     decide (s.cly.inbox = m :: r ∧ byteAt m.b 0 = 17)) &&
    (let m : CtlMsg := ⟨3, 0, 0, List.replicate 16 0⟩
     let r : List CtlMsg := []
     let s : State := base
     let m := { m with b := setB m.b 0 (18) }
     let s : State := w_cly s ({ s.cly with inbox := m :: r })
     let s : State := w_cly s ({ s.cly with rehWait := [m.src] })
     decide (s.cly.inbox = m :: r ∧ byteAt m.b 0 = 18 ∧ s.cly.rehWait = [m.src] ∧ m.num 1 2 = s.cly.rehTag)) &&
    (let s : State := base
     let s : State := s.set CLY_MST_CFG_MROLE (if (2) = 0 then 1 else 0)
     decide ((s.get CLY_MST_CFG_MROLE ≠ 2 ∨ s.now - s.cly.heardAt < max 1 (s.get CLY_MST_CFG_MISS) * s.hbUs * 1000))) &&
    (let s : State := base
     let s : State := s.set CLY_MST_CFG_MROLE (2)
     let s : State := s.set CLY_MST_STAT_VALID (1)
     let s : State := s.set (ctlEn clyPage) (1)
     decide (s.get CLY_MST_CFG_MROLE = 2 ∧ s.get CLY_MST_STAT_VALID = 1 ∧ s.cfg (ctlEn clyPage) = 1 ∧
       max 1 (s.get CLY_MST_CFG_MISS) * s.hbUs * 1000 ≤ s.now - s.cly.heardAt ∧ s.checkpoint = none)) &&
    (let i : Fin 5 := 1
     let s : State := base
     let s : State := s.set CLY_MST_STAT_SELF (1)
     decide (s.reaches i CLY_MST_CMD = true ∧ s.get CLY_MST_STAT_SELF = 1)) &&
    (let i : Fin 5 := 1
     let s : State := base
     let s : State := s.set CLY_MST_CFG_MROLE (if (2) = 0 then 1 else 0)
     decide (s.reaches i CLY_MST_CMD = true ∧ s.get CLY_MST_CFG_MROLE ≠ 2)) &&
    (let i : Fin 5 := 1
     let s : State := base
     let s : State := s.set CLY_MST_CFG_MROLE (2)
     let s : State := w_cly s ({ s.cly with valid := some false, store0 := setB (List.replicate 400 0) 64 6 })
     match (s.checkpoint) with
     | none => false
     | some b =>
       decide (s.reaches i CLY_MST_CMD = true ∧ s.get CLY_MST_CFG_MROLE = 2 ∧ s.checkpoint = some b ∧ s.ckptDevs b ≠ [])) &&
    (let s : State := base
     let s : State := w_cly s ({ s.cly with ho := 1 })
     let s : State := s.set LDG_CC_STAT_PHASE (if (0) = 0 then 1 else 0)
     decide (s.cly.ho = 1 ∧ s.get LDG_CC_STAT_PHASE ≠ 0 ∧ 10000000 ≤ s.now - s.cly.hoAt))) = true := by
  decide +kernel

theorem witness_ClaimsDecideTheMaster_2 :
(
    (let s : State := base
     let s : State := w_cly s ({ s.cly with rehWait := [5] })
     decide (s.cly.rehWait ≠ [] ∧ 1000000 ≤ s.now - s.cly.rehAt)) &&
    (let s : State := base
     let s : State := w_ldg s ({ s.ldg with cc := { s.ldg.cc with goPend := true } })
     let s : State := s.set (LDG_CC_MASK_DEV (1 / 32)) (2 ^ (1 % 32))
     decide (s.ldg.cc.goPend = true ∧ 1000000 ≤ s.now - s.ldg.cc.readyAt ∧ s.ccOthers ≠ [])) &&
    (let s : State := base
     let s : State := w_ldg s ({ s.ldg with cc := { s.ldg.cc with goPend := false } })
     decide (s.ldg.cc.goPend = false)) &&
    (let s : State := base
     let s : State := s.set CLY_MST_STAT_SELF (if (1) = 0 then 1 else 0)
     decide ((s.get CLY_MST_STAT_SELF ≠ 1 ∨ s.get CLY_CKPT_STBY_EN ≠ 1))) &&
    (let s : State := base
     let s : State := s.set CLY_MST_STAT_SELF (1)
     let s : State := s.set CLY_CKPT_STBY_EN (1)
     let s : State := w_cly s ({ s.cly with ckDue := true })
     decide (s.get CLY_MST_STAT_SELF = 1 ∧ s.get CLY_CKPT_STBY_EN = 1 ∧ s.cly.ckDue = true)) &&
    (let s : State := base
     let s : State := s.set CLY_MST_STAT_SELF (1)
     let s : State := s.set CLY_CKPT_STBY_EN (1)
     let s : State := w_cly s ({ s.cly with ckAcked := false })
     decide (s.get CLY_MST_STAT_SELF = 1 ∧ s.get CLY_CKPT_STBY_EN = 1 ∧ s.cly.ckAcked = false ∧ 100000 ≤ s.now - s.cly.ckAt)) &&
    (let s : State := base
     let s : State := w_cly s ({ s.cly with ckAcked := true })
     decide (s.cly.ckAcked = true))) = true := by
  decide +kernel

theorem witness_PortsFollowTheirConditions :
(
    (let p : Fin 256 := 255
     let s : State := base
     let s : State := (s.set (PRT_SLICE_MODE_MODE (p / 16)) 1).set (PRT_PORT_CFG_EN (p / 16) (p % 16)) 1
     decide (s.ethPort p = true)) &&
    (let p : Fin 256 := 255
     let s : State := base
     let s : State := (s.set (PRT_SLICE_MODE_MODE (p / 16)) 1).set (PRT_PORT_CFG_EN (p / 16) (p % 16)) 1
     decide (s.ethPort p = true)) &&
    (let p : Fin 256 := 255
     let pri : Fin 8 := 7
     let s : State := base
     let s : State := w_safe s (false)
     let s : State := s.set ⟨PRT_PORT_STAT (p / 16) (p % 16), 8 + pri.val, 1⟩ (1)
     let s : State := (s.set (PRT_SLICE_MODE_MODE (p / 16)) 1).set (PRT_PORT_CFG_EN (p / 16) (p % 16)) 1
     let s : State := ((s.set (PRT_PFC_CFG_PRI_EN (p / 16) (p % 16)) 0x80).set (PRT_PFC_THR_XON_KB (p / 16) (p % 16)) 1).set (PRT_PFC_THR_XOFF_KB (p / 16) (p % 16)) 2
     let s : State := w_prt s ({ s.prt with pfc := [(8 * 255 + 7, 300)] })
     let q : Nat := s.cfg (PRT_PFC_CFG_QUANTA (p / 16) (p % 16))
     decide (q = s.cfg (PRT_PFC_CFG_QUANTA (p / 16) (p % 16)) ∧ s.safe = false ∧ s.pfcOn p pri = true ∧
       s.get ⟨PRT_PORT_STAT (p / 16) (p % 16), 8 + pri.val, 1⟩ = 1 ∧
       Tbl.get (fun _ => 0) s.prt.pfcAt (8 * p.val + pri.val) + s.quantaNs p (max 1 (q / 2)) ≤ s.now ∧
       s.cfg (PRT_PFC_THR_XON_KB (p / 16) (p % 16)) * 256 < s.pfcCount p pri)) &&
    (let p : Fin 256 := 255
     let pri : Fin 8 := 7
     let s : State := base
     let s : State := w_safe s (false)
     let q : Nat := s.cfg (PRT_PFC_CFG_QUANTA (p / 16) (p % 16))
     decide (q = s.cfg (PRT_PFC_CFG_QUANTA (p / 16) (p % 16)) ∧ s.safe = false ∧
       (s.now < Tbl.get (fun _ => 0) s.prt.pfcAt (8 * p.val + pri.val) + s.quantaNs p (max 1 (q / 2)) ∨ s.pfcCount p pri ≤ s.cfg (PRT_PFC_THR_XON_KB (p / 16) (p % 16)) * 256))) &&
    (let p : Fin 256 := 255
     let s : State := base
     let s : State := s.set (PRT_PFC_CFG_RX_EN (p / 16) (p % 16)) (0)
     decide ((s.cfg (PRT_PFC_CFG_RX_EN (p / 16) (p % 16)) = 0 ∨ s.ethPort p = false))) &&
    (let p : Fin 256 := 255
     let s : State := base
     let s : State := s.set (PRT_PFC_CFG_RX_EN (p / 16) (p % 16)) (1)
     let s : State := (s.set (PRT_SLICE_MODE_MODE (p / 16)) 1).set (PRT_PORT_CFG_EN (p / 16) (p % 16)) 1
     decide (s.cfg (PRT_PFC_CFG_RX_EN (p / 16) (p % 16)) = 1 ∧ s.ethPort p = true)) &&
    (let p : Fin 256 := 255
     let pri : Fin 8 := 7
     let s : State := base
     let s : State := w_prt s ({ s.prt with pauseEnd := [(8 * 255 + 7, 10 ^ 13)] })
     decide (s.now < Tbl.get (fun _ => 0) s.prt.pauseEnd (8 * p.val + pri.val))) &&
    (let p : Fin 256 := 255
     let pri : Fin 8 := 7
     let s : State := base
     decide (Tbl.get (fun _ => 0) s.prt.pauseEnd (8 * p.val + pri.val) ≤ s.now))) = true := by
  decide +kernel

theorem witness_ReceivedFramesAreChecked :
(
    (let s : State := base
     let s : State := w_safe s (true)
     let s : State := w_safe s (true)
     decide (s.safe = true)) &&
    (let p : Fin 256 := 255
     let s : State := base
     let s : State := w_safe s (false)
     decide (s.safe = false ∧ s.portUp p = false)) &&
    (let p : Fin 256 := 255
     let b : List Byte := []
     let s : State := base
     let whole : Bool := true
     let s : State := w_safe s (false)
     let s : State := s.set (PRT_PORT_STAT_UP (p / 16) (p % 16)) 1
     decide (s.safe = false ∧ s.portUp p = true ∧ whole = true ∧ b.length < 64)) &&
    (let p : Fin 256 := 255
     let b : List Byte := List.replicate 64 7
     let s : State := base
     let whole : Bool := true
     let s : State := w_safe s (false)
     let s : State := s.set (PRT_PORT_STAT_UP (p / 16) (p % 16)) 1
     let s : State := s.set (PRT_PORT_MAXF_MAX_FRAME (p / 16) (p % 16)) 1518
     decide (s.safe = false ∧ s.portUp p = true ∧ whole = true ∧ 64 ≤ b.length ∧ b.length ≤ 256 ∧ b.length ≤ s.maxFrame p)) &&
    (let p : Fin 256 := 255
     let b : List Byte := List.replicate 256 7
     let s : State := base
     let whole : Bool := true
     let s : State := w_safe s (false)
     let s : State := s.set (PRT_PORT_STAT_UP (p / 16) (p % 16)) 1
     let s : State := s.set (PRT_PORT_CFG_CT (p / 16) (p % 16)) (1)
     let s : State := s.set (PRT_PORT_MAXF_MAX_FRAME (p / 16) (p % 16)) 100
     decide (s.safe = false ∧ s.portUp p = true ∧ whole = true ∧ 64 ≤ b.length ∧ s.maxFrame p < b.length ∧
       s.cfg (PRT_PORT_CFG_CT (p / 16) (p % 16)) = 1 ∧ (∀ x ∈ s.frames, x.1 ≠ s.nextFrame ∧ x.2.origin ≠ some s.nextFrame))) &&
    (let f : Nat := 1
     let s : State := base
     let s : State := w_frames s (Tbl.set (fun _ => {}) s.frames (s.lead f) { s.frame (s.lead f) with stage := .done })
     decide (((s.frame (s.lead f)).stage = .done ∨ (s.frame (s.lead f)).ended = true))) &&
    (let f : Nat := 1
     let rest : List Byte := []
     let s : State := base
     let s : State := updFrame s (f) (fun f0 => { f0 with ended := false })
     let s : State := updFrame s (f) (fun f0 => { f0 with stage := .parsing })
     decide ((s.frame f).stage ≠ .done ∧ (s.frame f).stage ≠ .staging ∧ (s.frame f).ended = false ∧ (s.family f).Nodup ∧
       (s.frame f).len + rest.length ≤ s.maxFrame (s.frame f).iport)) &&
    (let f : Nat := 1
     let s : State := base
     let s : State := w_frames s (Tbl.set (fun _ => {}) s.frames (s.lead f) { s.frame (s.lead f) with stage := .done })
     decide (((s.frame (s.lead f)).stage = .done ∨ (s.frame (s.lead f)).fcs.isSome = true))) &&
    (let f : Nat := 1
     let s : State := base
     let s : State := updFrame s (f) (fun f0 => { f0 with fcs := none })
     let s : State := updFrame s (f) (fun f0 => { f0 with stage := .parsing })
     decide ((s.frame f).stage ≠ .done ∧ (s.frame f).fcs = none)) &&
    (let f : Nat := 1
     let s : State := base
     let s : State := updFrame s (f) (fun f0 => { f0 with fcs := none })
     let s : State := updFrame s (f) (fun f0 => { f0 with stage := .parsing })
     decide ((s.frame f).fcs = none ∧ (s.frame f).stage ≠ .done ∧ (∀ i ∈ s.family f, (s.frame i).stage ≠ .transmit))) &&
    (let f : Nat := 1
     let s : State := base
     let s : State := updFrame s (f) (fun f0 => { f0 with fcs := none })
     let s : State := updFrame s (f) (fun f0 => { f0 with stage := .transmit })
     let s : State := updFrame s (f) (fun f0 => { f0 with marked := false })
     decide ((s.frame f).fcs = none ∧ (s.frame f).stage = .transmit ∧ (s.frame f).marked = false ∧ s.family f = [f]))) = true := by
  decide +kernel

theorem witness_CalendarsSwitchAtBoundaries :
(
    (let g : Fin 64 := 63
     let s : State := base
     let s : State := w_loom s ({ s.loom with grp := Tbl.set (fun _ => {}) s.loom.grp g { s.grp g with derive := false } })
     decide ((s.grp g).derive = false)) &&
    (let g : Fin 64 := 63
     let s : State := base
     let s : State := w_loom s ({ s.loom with grp := Tbl.set (fun _ => {}) s.loom.grp g { s.grp g with derive := true } })
     let s : State := w_loom s ({ s.loom with grp := Tbl.set (fun _ => {}) s.loom.grp g { s.grp g with notice := none } })
     let m := s.get (LOOM_FOL_STAT_MAP g)
     decide ((s.grp g).derive = true ∧ (s.grp g).notice = none ∧ m = s.get (LOOM_FOL_STAT_MAP g))) &&
    (let g : Fin 64 := 63
     let s : State := base
     let s : State := w_loom s ({ s.loom with grp := Tbl.set (fun _ => {}) s.loom.grp g { s.grp g with next := none } })
     decide ((s.grp g).next = none)) &&
    (let g : Fin 64 := 63
     let s : State := base
     let s : State := w_loom s ({ s.loom with grp := Tbl.set (fun _ => {}) s.loom.grp g { s.grp g with cr := false } })
     let s : State := w_loom s ({ s.loom with grp := Tbl.set (fun _ => {}) s.loom.grp g { s.grp g with next := some [1, 2] } })
     decide ((s.grp g).next ≠ none ∧ (s.grp g).cr = false ∧ ((s.grp g).mustForce s.now).1 = false)) &&
    (let g : Fin 64 := 63
     let s : State := base
     let c := [1, 2]
     let m := 7
     let s : State := w_loom s ({ s.loom with grp := Tbl.set (fun _ => {}) s.loom.grp g { s.grp g with next := some c } })
     let s : State := w_loom s ({ s.loom with grp := Tbl.set (fun _ => {}) s.loom.grp g { s.grp g with nextMap := some m } })
     let s : State := w_loom s ({ s.loom with grp := Tbl.set (fun _ => {}) s.loom.grp g { s.grp g with cr := true } })
     let s : State := w_loom s ({ s.loom with grp := Tbl.set (fun _ => {}) s.loom.grp g { s.grp g with ca := true } })
     let s : State := s.set (LOOM_FOL_CFG_FOL_EN g) (1)
     decide ((s.grp g).next = some c ∧ (s.grp g).nextMap = some m ∧ m < 8 ∧ s.follows g = true ∧ (s.grp g).cr = true ∧ (s.grp g).ca = true)) &&
    (let g : Fin 64 := 63
     let s : State := base
     let s : State := w_loom s ({ s.loom with grp := Tbl.set (fun _ => {}) s.loom.grp g { s.grp g with rates := false } })
     decide ((s.grp g).rates = false)) &&
    (let g : Fin 64 := 63
     let s : State := base
     let s : State := w_loom s ({ s.loom with grp := Tbl.set (fun _ => {}) s.loom.grp g { s.grp g with rates := true } })
     decide ((s.grp g).rates = true)) &&
    (let g : Fin 64 := 63
     let s : State := base
     let s : State := w_loom s ({ s.loom with grp := Tbl.set (fun _ => {}) s.loom.grp g { s.grp g with cr := false } })
     decide ((s.grp g).cr = false)) &&
    (let g : Fin 64 := 63
     let s : State := base
     let s : State := w_loom s ({ s.loom with grp := Tbl.set (fun _ => {}) s.loom.grp g { s.grp g with cr := true } })
     decide ((s.grp g).cr = true)) &&
    (let g : Fin 64 := 63
     let s : State := base
     let r := []
     decide (r = (s.grp g).rcal)) &&
    (let g : Fin 64 := 63
     let s : State := base
     let r := [9]
     decide (r ≠ (s.grp g).rcal))) = true := by
  decide +kernel

theorem witness_NoticesAndPhyFaults_1 :
(
    (let n : Fin 8 := 7
     let w : Word := 0
     let s : State := base
     let g : Nat := bits w.toNat 26 6
     decide (g = bits w.toNat 26 6 ∧ bit (s.cfg LOOM_LRN_CFG_LRN_EN) n = false)) &&
    (let n : Fin 8 := 7
     let len : Nat := 1
     let w : Word := 0
     let s : State := base
     let g : Nat := bits w.toNat 26 6
     let s : State := s.set (ackFld n) (1)
     let s : State := s.set LOOM_LRN_CFG_LRN_EN 255
     decide (g = bits w.toNat 26 6 ∧ bit (s.cfg LOOM_LRN_CFG_LRN_EN) n = true ∧
       (s.get (ackFld n) = 1 ∨ len ≠ 32 ∨ crc8 w.toNat ≠ w.toNat % 256))) &&
    (let n : Fin 8 := 7
     let w : Word := BitVec.ofNat 32 (63 * 2 ^ 26 + crc8 (63 * 2 ^ 26))
     let s : State := base
     let code := 5
     let g : Nat := bits w.toNat 26 6
     let len : Nat := 32
     let s : State := s.set (ackFld n) (0)
     let s : State := s.set LOOM_LRN_CFG_LRN_EN 255
     decide (g = bits w.toNat 26 6 ∧ bit (s.cfg LOOM_LRN_CFG_LRN_EN) n = true ∧ s.get (ackFld n) = 0 ∧ len = 32 ∧
       crc8 w.toNat = w.toNat % 256 ∧ s.checkNotice w.toNat (some n.val) = (code, 0) ∧ 5 ≤ code ∧ code < 8)) &&
    (let n : Fin 8 := 7
     let w : Word := BitVec.ofNat 32 (63 * 2 ^ 26 + crc8 (63 * 2 ^ 26))
     let s : State := base
     let cls := 2
     let g : Nat := bits w.toNat 26 6
     let len : Nat := 32
     let s : State := s.set (ackFld n) (0)
     let s : State := s.set LOOM_LRN_CFG_LRN_EN 255
     let s : State := ((((s.set (LOOM_GRP_CFG_EN g) 1).set (ctlEn loomPage) 1).set (LOOM_FOL_CFG_FOL_EN g) 1).set (LOOM_FOL_CFG_LRN_SEL g) 7).set (LOOM_FOL_STAT_OPER g) 1
     decide (g = bits w.toNat 26 6 ∧ bit (s.cfg LOOM_LRN_CFG_LRN_EN) n = true ∧ s.get (ackFld n) = 0 ∧ len = 32 ∧
       crc8 w.toNat = w.toNat % 256 ∧ s.checkNotice w.toNat (some n.val) = (0, cls) ∧ s.grpOper g = true)) &&
    (let i : Fin 5 := 1
     let w : Word := 0
     let s : State := base
     let g : Nat := bits w.toNat 26 6
     let s : State := s.set LOOM_HN_STAT_STATE (1)
     decide (g = bits w.toNat 26 6 ∧ s.reaches i LOOM_HNOTICE = true ∧ s.get LOOM_HN_STAT_STATE = 1)) &&
    (let i : Fin 5 := 1
     let w : Word := BitVec.ofNat 32 (63 * 2 ^ 26 + crc8 (63 * 2 ^ 26))
     let s : State := base
     let code := 5
     let g : Nat := bits w.toNat 26 6
     let s : State := s.set LOOM_HN_STAT_STATE (if (1) = 0 then 1 else 0)
     decide (g = bits w.toNat 26 6 ∧ s.reaches i LOOM_HNOTICE = true ∧ s.get LOOM_HN_STAT_STATE ≠ 1 ∧ s.checkNotice w.toNat none = (code, 0) ∧
       4 ≤ code ∧ code < 8)) &&
    (let i : Fin 5 := 1
     let w : Word := BitVec.ofNat 32 (63 * 2 ^ 26 + crc8 (63 * 2 ^ 26))
     let s : State := base
     let cls := 2
     let g : Nat := bits w.toNat 26 6
     let s : State := s.set LOOM_HN_STAT_STATE (if (1) = 0 then 1 else 0)
     let s : State := ((((s.set (LOOM_GRP_CFG_EN g) 1).set (ctlEn loomPage) 1).set (LOOM_FOL_CFG_FOL_EN g) 1).set (LOOM_FOL_CFG_LRN_SEL g) 7).set (LOOM_FOL_STAT_OPER g) 1
     decide (g = bits w.toNat 26 6 ∧ s.reaches i LOOM_HNOTICE = true ∧ s.get LOOM_HN_STAT_STATE ≠ 1 ∧ s.checkNotice w.toNat none = (0, cls) ∧
       s.grpOper g = true)) &&
    (let n : Fin 8 := 7
     let w : Nat := 10 ^ 12
     let g : Nat := 1
     let s : State := base
     let s : State := w_loom s ({ s.loom with ack := [(n.val, some (w, g))] })
     decide (Tbl.get (fun _ => none) s.loom.ack n.val = some (w, g) ∧ g < 64 ∧ s.now - w < 20000)) &&
    (let n : Fin 8 := 7
     let w : Nat := 1
     let g : Nat := 63
     let s : State := base
     let x := ({ input := some 7, map := 1, t0 := 0, deadline := 5, cls := 2 } : Notice)
     let s : State := w_loom s ({ s.loom with grp := Tbl.set (fun _ => {}) s.loom.grp g { s.grp g with notice := some x } })
     let s : State := w_loom s ({ s.loom with ack := [(n.val, some (w, g))] })
     let s : State := w_loom s ({ s.loom with grp := Tbl.set (fun _ => {}) s.loom.grp g { s.grp g with notice := some x } })
     decide (Tbl.get (fun _ => none) s.loom.ack n.val = some (w, g) ∧ g < 64 ∧ 20000 ≤ s.now - w ∧ (s.grp g).notice = some x ∧
       x.input = some n.val ∧ x.cls = 2)) &&
    (let g : Fin 64 := 63
     let s : State := base
     let n := (⟨none, 1, 0, 5, 2⟩ : Notice)
     let s : State := w_loom s ({ s.loom with grp := Tbl.set (fun _ => {}) s.loom.grp g { s.grp g with notice := some n } })
     match ((s.grp g).notice) with
     | none => false
     | some n =>
       decide ((s.grp g).notice = some n ∧ (n.cls ≠ 1 ∨ s.now - n.t0 < 2000000))) &&
    (let g : Fin 64 := 63
     let s : State := base
     let n := ({ input := none, map := 1, t0 := 0, deadline := 5, cls := 1 } : Notice)
     let s : State := w_loom s ({ s.loom with grp := Tbl.set (fun _ => {}) s.loom.grp g { s.grp g with notice := some n } })
     let s : State := w_loom s ({ s.loom with grp := Tbl.set (fun _ => {}) s.loom.grp g { s.grp g with notice := some n } })
     decide ((s.grp g).notice = some n ∧ n.cls = 1 ∧ 2000000 ≤ s.now - n.t0)) &&
    (let g : Fin 64 := 63
     let s : State := base
     let k : Fin 16 := 15
     decide ((s.follows g = false ∨ s.phyFlt g k = true))) &&
    (let g : Fin 64 := 63
     let s : State := base
     let k : Fin 16 := 15
     let s : State := s.set (LOOM_FOL_CFG_FOL_EN g) (1)
     let s : State := s.set (LOOM_GRP_CFG_PHY_MASK g) (2 ^ 15)
     decide (s.follows g = true ∧ k.val ∈ s.members g ∧ s.phyFlt g k = false)) &&
    (let g : Fin 64 := 63
     let s : State := base
     let k : Fin 16 := 15
     decide ((s.phyFlt g k = false ∨ s.phyOk g k = false)))) = true := by
  decide +kernel

theorem witness_NoticesAndPhyFaults_2 :
(
    (let g : Fin 64 := 63
     let s : State := base
     let k : Fin 16 := 15
     let s : State := s.set (LOOM_FOL_STAT_PHY_FLT g) (2 ^ 15)
     let s : State := w_loom s ({ s.loom with grp := Tbl.set (fun _ => {}) s.loom.grp g { s.grp g with lock := [15] } })
     let s : State := w_prt s ({ s.prt with phyUp := [(16 * s.grpSlice g + 15, true)] })
     decide (s.phyFlt g k = true ∧ s.phyOk g k = true ∧ 100000000 ≤ s.now - Tbl.get (fun _ => 0) (s.grp g).clean k.val)) &&
    (let g : Fin 64 := 63
     let s : State := base
     let w := (0 : Nat)
     let s : State := w_loom s ({ s.loom with grp := Tbl.set (fun _ => {}) s.loom.grp g { s.grp g with retryAt := some w } })
     match ((s.grp g).retryAt) with
     | none => false
     | some w =>
       decide ((s.grp g).retryAt = some w ∧ 100000000 ≤ s.now - w))) = true := by
  decide +kernel

theorem witness_ParsingAndGraphMemory :
(
    (let sl : Fin 16 := 15
     let s : State := base
     let s : State := w_prt s ({ s.prt with hq := Tbl.set (fun _ => []) s.prt.hq sl ([]) })
     decide (s.headQ sl = [])) &&
    (let sl : Fin 16 := 15
     let s : State := base
     let id := 1
     let r := [2]
     let s : State := w_prt s ({ s.prt with hq := Tbl.set (fun _ => []) s.prt.hq sl (id :: r) })
     let s : State := w_prt s ({ s.prt with hq := [(15, [1, 2])] })
     decide (s.headQ sl = id :: r ∧
       (s.cfgV (s.frame id).vslot (ctlEn (prsPage sl)) = 0 ∨ s.stageFull (ing sl) = true ∨ 16 ≤ (s.engines sl).length))) &&
    (let sl : Fin 16 := 15
     let s : State := base
     let id := 1
     let r := [2]
     let s : State := w_prt s ({ s.prt with hq := Tbl.set (fun _ => []) s.prt.hq sl (id :: r) })
     let s : State := s.set (ctlEn (prsPage sl)) (1)
     let s : State := w_prt s ({ s.prt with hq := [(15, [1, 2])] })
     decide (s.headQ sl = id :: r ∧ s.cfgV (s.frame id).vslot (ctlEn (prsPage sl)) = 1 ∧ s.stageFull (ing sl) = false ∧
       (s.engines sl).length < 16)) &&
    (let f : Nat := 1
     let s : State := base
     decide ((s.parseOf f = none ∨ (s.frame f).stage ≠ .parsing))) &&
    (let f : Nat := 1
     let s : State := base
     let s : State := updFrame s (f) (fun f0 => { f0 with stage := .parsing })
     let s : State := w_prs s ({ s.prs with res := [(f, some {})] })
     decide ((s.parseOf f).isSome = true ∧ (s.frame f).stage = .parsing)) &&
    (let sl : Fin 16 := 15
     let s : State := base
     let s : State := w_prs s ({ s.prs with eng := Tbl.set (fun _ => []) s.prs.eng sl ([]) })
     decide (s.engines sl = [])) &&
    (let sl : Fin 16 := 15
     let s : State := base
     let id := (7 : Nat)
     let r := (s.engines sl).tail
     let s : State := w_prs s ({ s.prs with eng := Tbl.set (fun _ => []) s.prs.eng sl (id :: r) })
     match (s.engines sl) with
     | [] => false
     | id :: _ =>
       let s : State := updFrame s (id) (fun f0 => { f0 with stage := .parsed })
       match (s.engines sl) with
       | [] => false
       | id :: _ =>
         let r := (s.engines sl).tail
         decide (s.engines sl = id :: r ∧ (s.frame id).stage = .parsed)) &&
    (let i : Fin 5 := 1
     let sl : Fin 16 := 15
     let s : State := base
     let s : State := s.set (PRS_GMEM_ADDR_MEM sl) (3)
     let s : State := s.set (PRS_GMEM_ADDR_INDEX sl) (64)
     decide (s.reaches i (PRS_GMEM_CMD sl) = true ∧ gmemSize (s.get (PRS_GMEM_ADDR_MEM sl)) ≤ s.get (PRS_GMEM_ADDR_INDEX sl))) &&
    (let i : Fin 5 := 1
     let sl : Fin 16 := 15
     let s : State := base
     let s : State := s.set (LDG_TXN_STAT_STATE i) 0
     decide (s.reaches i (PRS_GMEM_CMD sl) = true ∧ s.get (PRS_GMEM_ADDR_INDEX sl) < gmemSize (s.get (PRS_GMEM_ADDR_MEM sl)) ∧
       s.txnState i = .idle)) &&
    (let i : Fin 5 := 1
     let sl : Fin 16 := 15
     let s : State := base
     let s : State := s.set (LDG_TXN_STAT_STATE i) 1
     let s : State := s.set LDG_CC_CFG_ROLE 0
     let s : State := s.set (PRS_GMEM_ADDR_BCAST sl) (0)
     let key := gmemKey sl (s.get (PRS_GMEM_ADDR_MEM sl)) (s.get (PRS_GMEM_ADDR_INDEX sl))
     decide (s.reaches i (PRS_GMEM_CMD sl) = true ∧ s.get (PRS_GMEM_ADDR_INDEX sl) < gmemSize (s.get (PRS_GMEM_ADDR_MEM sl)) ∧
       key = gmemKey sl (s.get (PRS_GMEM_ADDR_MEM sl)) (s.get (PRS_GMEM_ADDR_INDEX sl)) ∧ s.txnState i = .opened ∧ s.role = 0 ∧
       s.get (PRS_GMEM_ADDR_BCAST sl) = 0 ∧ (s.gmemStagedBy key = none ∨ s.gmemStagedBy key = some i.val))) &&
    (let i : Fin 5 := 1
     let sl : Fin 16 := 15
     let s : State := base
     let s : State := s.set (LDG_TXN_CTL_READ_STAGED i) (0)
     let key := gmemKey sl (s.get (PRS_GMEM_ADDR_MEM sl)) (s.get (PRS_GMEM_ADDR_INDEX sl))
     decide (s.reaches i (PRS_GMEM_CMD sl) = true ∧ s.get (PRS_GMEM_ADDR_INDEX sl) < gmemSize (s.get (PRS_GMEM_ADDR_MEM sl)) ∧
       key = gmemKey sl (s.get (PRS_GMEM_ADDR_MEM sl)) (s.get (PRS_GMEM_ADDR_INDEX sl)) ∧ s.get (LDG_TXN_CTL_READ_STAGED i) = 0))) = true := by
  decide +kernel

theorem witness_DispatchAndReorder :
(
    (let w : Fin 64 := 63
     let c : Fin 256 := 255
     let s : State := base
     let s : State := w_wks s ({ s.wks with ctx := Tbl.set (fun _ => {}) s.wks.ctx (ctxKey w (c)) { s.ctx w (c) with st := .ready } })
     decide ((s.ctx w c).st ≠ .free)) &&
    (let w : Fin 64 := 63
     let c : Fin 256 := 255
     let id : Nat := 1
     let r : List Nat := []
     let s : State := base
     let q : Nat := egr (w / 4)
     let s : State := w_wks s ({ s.wks with ctx := Tbl.set (fun _ => {}) s.wks.ctx (ctxKey w c) { s.ctx w c with st := .free } })
     let s : State := ((s.set (WKS_STAT_STATE w) 2).wr (CST_WVER w) 1).set (ctlEn (wksPage w)) 1
     let s : State := w_ord s ({ s.ord with disp := [(egr (w / 4), id :: r)] })
     decide (s.dispQ q = id :: r ∧ (q = egr (w / 4) ∨ q = ing (w / 4)) ∧ ((q = ing (w / 4) → s.dispQ (egr (w / 4)) = [])) ∧
       s.takesHeads w (s.frame id).vslot = true ∧ (s.ctx w c).st = .free)) &&
    (let w : Fin 64 := 63
     let c : Fin 256 := 255
     let q : Nat := egr 12
     let id : Nat := 1
     let r : List Nat := []
     let s : State := base
     let s : State := w_wks s ({ s.wks with ctx := Tbl.set (fun _ => {}) s.wks.ctx (ctxKey w c) { s.ctx w c with st := .free } })
     let s : State := ((s.set (WKS_STAT_STATE w) 2).wr (CST_WVER w) 1).set (ctlEn (wksPage w)) 1
     let s : State := w_ord s ({ s.ord with disp := [(egr 12, id :: r)] })
     decide (s.serveQueue w = some q ∧ s.dispQ q = id :: r ∧ q / 2 ≠ w.val / 4 ∧ q / 2 < 16 ∧ s.takesHeads w (s.frame id).vslot = true ∧
       (s.ctx w c).st = .free)) &&
    (let w : Fin 64 := 63
     let c : Fin 256 := 255
     let s : State := base
     decide ((s.ctx w c).st ≠ .loading)) &&
    (let w : Fin 64 := 63
     let c : Fin 256 := 255
     let s : State := base
     let s : State := w_wks s ({ s.wks with ctx := Tbl.set (fun _ => {}) s.wks.ctx (ctxKey w c) { s.ctx w c with st := .loading } })
     decide ((s.ctx w c).st = .loading)) &&
    (let k : Nat := 1
     let s : State := base
     decide (((∀ l, s.lkp[k]? = some l → l.res = none)))) &&
    (let k : Nat := 0
     let s : State := base
     let l := { wks := 3, ctx := 5, reg := 2, kind := .exact, tid := 1, key := [], vslot := 0, frame := 1, t := 0, iport := 0, res := some 9 : Lookup}
     let v := 9
     let s : State := w_wks s ({ s.wks with ctx := Tbl.set (fun _ => {}) s.wks.ctx (ctxKey l.wks l.ctx) { s.ctx l.wks l.ctx with pass := l.pass } })
     let s : State := w_lkp s ([l])
     let s : State := w_wks s ({ s.wks with ctx := Tbl.set (fun _ => {}) s.wks.ctx (ctxKey l.wks (l.ctx)) { s.ctx l.wks (l.ctx) with st := .wait, wait := .reg 2, l := [.never, .never, .outstanding] } })
     decide (s.lkp[k]? = some l ∧ l.res = some v ∧ (s.ctx l.wks l.ctx).st ≠ .free ∧ (s.ctx l.wks l.ctx).pass = l.pass ∧
       l.reg < (s.ctx l.wks l.ctx).l.length)) &&
    (let sl : Fin 16 := 15
     let eg : Bool := true
     let s : State := base
     decide (releasable [] (s.stageOf (2 * sl.val + b2n eg)).out = none)) &&
    (let sl : Fin 16 := 15
     let eg : Bool := true
     let s : State := base
     let s : State := w_ord s ({ s.ord with ord := [(31, { out := [{ num := 5, key := 1, frame := 9, done := true }] })] })
     let s : State := updFrame s (9) (fun f0 => { f0 with stage := .ordered })
     match (releasable [] (s.stageOf (2 * sl.val + b2n eg)).out) with
     | none => false
     | some x =>
       decide (releasable [] (s.stageOf (2 * sl.val + b2n eg)).out = some x)) &&
    (let sl : Fin 16 := 15
     let eg : Bool := true
     let s : State := base
     let s : State := w_ord s ({ s.ord with ord := [(31, { out := [{ num := 5, key := 1, frame := 9, done := true }] })] })
     match (releasable [] (s.stageOf (2 * sl.val + b2n eg)).out) with
     | none => false
     | some x =>
       decide (releasable [] (s.stageOf (2 * sl.val + b2n eg)).out = some x)) &&
    (let sl : Fin 16 := 15
     let eg : Bool := true
     let s : State := base
     let s : State := w_ord s ({ s.ord with ord := [(31, { out := [{ num := 5, key := 1, frame := 9 }] })] })
     match (blockerOf (s.stageOf (2 * sl.val + b2n eg)).out) with
     | none => false
     | some n =>
       decide (blockerOf (s.stageOf (2 * sl.val + b2n eg)).out = some n ∧ 20000 ≤ s.now - (s.stageOf (2 * sl.val + b2n eg)).since)) &&
    (let sl : Fin 16 := 15
     let eg : Bool := true
     let s : State := base
     decide ((blockerOf (s.stageOf (2 * sl.val + b2n eg)).out = none ∨ s.now - (s.stageOf (2 * sl.val + b2n eg)).since < 20000)))) = true := by
  decide +kernel

theorem witness_WorkshopsIssueAndSleep :
(
    (let w : Fin 64 := 63
     let j : Fin 32 := 31
     let s : State := base
     decide (s.readyThread w j = none ∧ s.wksState w ≠ 2)) &&
    (let w : Fin 64 := 63
     let j : Fin 32 := 31
     let n : Nat := 1
     let s : State := base
     let s : State := w_wks s ({ s.wks with ctx := Tbl.set (fun _ => {}) s.wks.ctx (ctxKey w (8 * j + n)) { s.ctx w (8 * j + n) with egress := false } })
     let s : State := w_wks s ({ s.wks with ctx := Tbl.set (fun _ => {}) s.wks.ctx (ctxKey w (8 * j + n)) { s.ctx w (8 * j + n) with st := .ready, egress := false } })
     let s : State := w_cst s ({ s.cst with store := [(63, { words := [(0, 0xA)] })] })
     let x : Ctx := s.ctx w (8 * j + n)
     let u : UWord := decodeUWord (s.storeWord w x.pc)
     match (x.earlyCause u) with
     | none => false
     | some c =>
       decide (s.readyThread w j = some n ∧ n < 8 ∧ x = s.ctx w (8 * j + n) ∧ u = decodeUWord (s.storeWord w x.pc) ∧
         s.cst.bad.contains (w.val, x.pc) = false ∧ x.earlyCause u = some c ∧ c < 16 ∧ x.egress = false ∧ x.pc < 8192)) &&
    (let w : Fin 64 := 63
     let j : Fin 32 := 31
     let n : Nat := 7
     let s : State := base
     let s : State := w_wks s ({ s.wks with ctx := Tbl.set (fun _ => {}) s.wks.ctx (ctxKey w (8 * j + n)) { s.ctx w (8 * j + n) with st := .ready, frame := 4 } })
     let s : State := w_cst s ({ s.cst with store := [(63, { words := [(0, 0)] })] })
     let x : Ctx := s.ctx w (8 * j + n)
     let u : UWord := decodeUWord (s.storeWord w x.pc)
     decide (s.readyThread w j = some n ∧ n < 8 ∧ x = s.ctx w (8 * j + n) ∧ u = decodeUWord (s.storeWord w x.pc) ∧
       s.cst.bad.contains (w.val, x.pc) = false ∧ x.earlyCause u = none ∧
       x.mustWait u (decide (s.jmLookups w j < 32)) (s.acsFull (w / 16)) = .none ∧ x.lateCause u (s.qlen (s.frame x.frame) - 4) = none ∧
       u.seq < 7 ∧ u.lop = 0)) &&
    (let w : Fin 64 := 63
     let j : Fin 32 := 31
     let n : Nat := 7
     let s : State := base
     let r := 3
     let s : State := w_wks s ({ s.wks with ctx := Tbl.set (fun _ => {}) s.wks.ctx (ctxKey w (8 * j + n)) { s.ctx w (8 * j + n) with st := .ready, l := [.never, .never, .never, .outstanding] } })
     let s : State := w_cst s ({ s.cst with store := [(63, { words := [(0, 2 ^ 144 + 3 * 2 ^ 156 + 2 ^ 169)] })] })
     let x : Ctx := s.ctx w (8 * j + n)
     let u : UWord := decodeUWord (s.storeWord w x.pc)
     decide (s.readyThread w j = some n ∧ n < 8 ∧ x = s.ctx w (8 * j + n) ∧ u = decodeUWord (s.storeWord w x.pc) ∧
       s.cst.bad.contains (w.val, x.pc) = false ∧ x.earlyCause u = none ∧
       x.mustWait u (decide (s.jmLookups w j < 32)) (s.acsFull (w / 16)) = .reg r)) &&
    (let w : Fin 64 := 63
     let c : Fin 256 := 255
     let s : State := base
     let x : Ctx := s.ctx w c
     decide (x = s.ctx w c ∧ (x.st ≠ .ready ∨ s.maxIssue w x = 0 ∨ x.issues < s.maxIssue w x))) &&
    (let w : Fin 64 := 63
     let c : Fin 256 := 255
     let s : State := base
     let s : State := w_wks s ({ s.wks with ctx := Tbl.set (fun _ => {}) s.wks.ctx (ctxKey w c) { s.ctx w c with st := .ready } })
     let s : State := w_wks s ({ s.wks with ctx := Tbl.set (fun _ => {}) s.wks.ctx (ctxKey w c) { s.ctx w c with egress := false } })
     let s : State := w_wks s ({ s.wks with ctx := Tbl.set (fun _ => {}) s.wks.ctx (ctxKey w (c)) { s.ctx w (c) with issues := 9 } })
     let s : State := s.set (WKS_WDOG_MAX_ISSUE w) (8)
     let x : Ctx := s.ctx w c
     decide (x = s.ctx w c ∧ x.st = .ready ∧ s.maxIssue w x ≠ 0 ∧ s.maxIssue w x ≤ x.issues ∧ x.egress = false)) &&
    (let w : Fin 64 := 63
     let c : Fin 256 := 255
     let s : State := base
     let s : State := w_wks s ({ s.wks with ctx := Tbl.set (fun _ => {}) s.wks.ctx (ctxKey w c) { s.ctx w c with st := .ready } })
     let s : State := w_wks s ({ s.wks with ctx := Tbl.set (fun _ => {}) s.wks.ctx (ctxKey w c) { s.ctx w c with egress := true } })
     let s : State := w_wks s ({ s.wks with ctx := Tbl.set (fun _ => {}) s.wks.ctx (ctxKey w (c)) { s.ctx w (c) with issues := 9 } })
     let s : State := s.set (WKS_WDOG_MAX_ISSUE w) (8)
     let x : Ctx := s.ctx w c
     decide (x = s.ctx w c ∧ x.st = .ready ∧ s.maxIssue w x ≠ 0 ∧ s.maxIssue w x ≤ x.issues ∧ x.egress = true)) &&
    (let w : Fin 64 := 63
     let s : State := base
     let s : State := w_cst s ({ s.cst with roll := [] })
     let s : State := w_cst s ({ s.cst with pend := [] })
     let s : State := s.set CST_STAT_STATE (if (3) = 0 then 1 else 0)
     let s : State := w_aon s ({ s.aon with cstSleep := [] })
     decide (s.cst.roll = [] ∧ s.cst.pend = [] ∧ s.get CST_STAT_STATE ≠ 3 ∧ s.aon.cstSleep = [] ∧ (s.wksState w ≠ 3 ∨ s.wksIdle w = false))) &&
    (let w : Fin 64 := 63
     let s : State := base
     let s : State := w_cst s ({ s.cst with roll := [] })
     let s : State := w_cst s ({ s.cst with pend := [] })
     let s : State := s.set CST_STAT_STATE (if (3) = 0 then 1 else 0)
     let s : State := w_aon s ({ s.aon with cstSleep := [] })
     let s : State := s.set (WKS_STAT_STATE w) (3)
     decide (s.cst.roll = [] ∧ s.cst.pend = [] ∧ s.get CST_STAT_STATE ≠ 3 ∧ s.aon.cstSleep = [] ∧ s.wksState w = 3 ∧ s.wksIdle w = true)) &&
    (let w : Fin 64 := 63
     let s : State := base
     let s : State := w_cst s ({ s.cst with roll := [] })
     let s : State := w_cst s ({ s.cst with pend := [] })
     let s : State := s.set CST_STAT_STATE (if (3) = 0 then 1 else 0)
     let s : State := w_aon s ({ s.aon with cstSleep := [] })
     decide (s.cst.roll = [] ∧ s.cst.pend = [] ∧ s.get CST_STAT_STATE ≠ 3 ∧ s.aon.cstSleep = [] ∧
       (s.wksState w ≠ 1 ∨ s.now - Tbl.get (fun _ => 0) s.wks.wakeAt w.val < 8000))) &&
    (let w : Fin 64 := 63
     let s : State := base
     let s : State := w_cst s ({ s.cst with roll := [] })
     let s : State := w_cst s ({ s.cst with pend := [] })
     let s : State := s.set CST_STAT_STATE (if (3) = 0 then 1 else 0)
     let s : State := w_aon s ({ s.aon with cstSleep := [] })
     let s : State := s.set (WKS_STAT_STATE w) (1)
     decide (s.cst.roll = [] ∧ s.cst.pend = [] ∧ s.get CST_STAT_STATE ≠ 3 ∧ s.aon.cstSleep = [] ∧ s.wksState w = 1 ∧
       8000 ≤ s.now - Tbl.get (fun _ => 0) s.wks.wakeAt w.val))) = true := by
  decide +kernel

theorem witness_ControlStoreCommands_1 :
(
    (let i : Fin 5 := 1
     let s : State := base
     let s : State := s.set CST_STAT_STATE (if (0) = 0 then 1 else 0)
     decide (s.reaches i CST_CMD = true ∧ s.resetting cstPage = false ∧ (s.get CST_STAT_STATE ≠ 0 ∨ s.cfg (ctlEn cstPage) = 0))) &&
    (let i : Fin 5 := 1
     let s : State := base
     let s : State := s.set CST_STAT_STATE (if (0) = 0 then 1 else 0)
     decide (s.reaches i CST_CMD = true ∧ s.resetting cstPage = false ∧ (s.get CST_STAT_STATE ≠ 0 ∨ s.cfg (ctlEn cstPage) = 0))) &&
    (let i : Fin 5 := 1
     let s : State := base
     let s : State := s.set CST_STAT_STATE (0)
     let s : State := s.set (ctlEn cstPage) (1)
     let s : State := s.set CST_SRC_LEN_LEN (if (0) = 0 then 1 else 0)
     decide (s.reaches i CST_CMD = true ∧ s.resetting cstPage = false ∧ s.get CST_STAT_STATE = 0 ∧ s.cfg (ctlEn cstPage) = 1 ∧
       s.get CST_SRC_LEN_LEN ≠ 0)) &&
    (let i : Fin 5 := 1
     let s : State := base
     let s : State := s.set CST_STAT_STATE (0)
     let s : State := s.set (ctlEn cstPage) (1)
     let s : State := s.set CST_SRC_LEN_LEN (if (0) = 0 then 1 else 0)
     decide (s.reaches i CST_CMD = true ∧ s.resetting cstPage = false ∧ s.get CST_STAT_STATE = 0 ∧ s.cfg (ctlEn cstPage) = 1 ∧
       s.get CST_SRC_LEN_LEN ≠ 0)) &&
    (let i : Fin 5 := 1
     let s : State := base
     let s : State := s.set CST_STAT_STATE (if (1) = 0 then 1 else 0)
     let s : State := s.set CST_STAT_STATE (if (3) = 0 then 1 else 0)
     decide (s.reaches i CST_CMD = true ∧ s.resetting cstPage = false ∧ s.get CST_STAT_STATE ≠ 1 ∧ s.get CST_STAT_STATE ≠ 3)) &&
    (let i : Fin 5 := 1
     let s : State := base
     let s : State := s.set CST_STAT_STATE (1)
     let s : State := w_cst s ({ s.cst with rstPend := none })
     decide (s.reaches i CST_CMD = true ∧ s.resetting cstPage = false ∧ s.get CST_STAT_STATE = 1 ∧ s.cst.rstPend = none)) &&
    (let s : State := base
     let s : State := s.set CST_STAT_STATE (if (1) = 0 then 1 else 0)
     decide (s.get CST_STAT_STATE ≠ 1)) &&
    (let s : State := base
     let s : State := s.set CST_STAT_STATE (1)
     let s : State := w_cst s ({ s.cst with rstPend := none })
     decide (s.get CST_STAT_STATE = 1 ∧ s.cst.rstPend = none)) &&
    (let s : State := base
     let s : State := s.set CST_STAT_STATE (if (2) = 0 then 1 else 0)
     decide (s.get CST_STAT_STATE ≠ 2)) &&
    (let s : State := base
     let s : State := s.set CST_STAT_STATE (2)
     let s : State := w_cst s ({ s.cst with rstPend := none })
     decide (s.get CST_STAT_STATE = 2 ∧ s.cst.rstPend = none)) &&
    (let w : Fin 64 := 63
     let s : State := base
     decide (s.rollOf (w / 16) = none)) &&
    (let w : Fin 64 := 63
     let s : State := base
     let s : State := w_cst s ({ s.cst with roll := [(3, some { n := 62, phase := .write })] })
     match (s.rollOf (w / 16)) with
     | none => false
     | some r =>
       decide (s.rollOf (w / 16) = some r ∧ (r.phase ≠ .write ∨ r.n ≠ w.val))) &&
    (let w : Fin 64 := 63
     let o : WriteOut := .mismatch
     let s : State := base
     let s : State := s.set CST_STAT_STATE (3)
     let s : State := w_cst s ({ s.cst with roll := [(3, some { n := 63, phase := .write })] })
     match (s.rollOf (w / 16)) with
     | none => false
     | some r =>
       decide (s.rollOf (w / 16) = some r ∧ r.phase = .write ∧ r.n = w.val ∧ s.get CST_STAT_STATE = 3 ∧ o ≠ .good)) &&
    (let s : State := base
     let s : State := s.set CST_STAT_STATE (if (4) = 0 then 1 else 0)
     decide ((s.get CST_STAT_STATE ≠ 4 ∨ s.cst.roll ≠ [] ∨ s.cst.pend ≠ [])))) = true := by
  decide +kernel

theorem witness_ControlStoreCommands_2 :
(
    (let s : State := base
     let s : State := s.set CST_STAT_STATE (4)
     let s : State := w_cst s ({ s.cst with roll := [] })
     let s : State := w_cst s ({ s.cst with pend := [] })
     let s : State := w_cst s ({ s.cst with rstPend := none })
     decide (s.get CST_STAT_STATE = 4 ∧ s.cst.roll = [] ∧ s.cst.pend = [] ∧ s.cst.rstPend = none ∧ s.cst.result < 16)) &&
    (let s : State := base
     let s : State := w_cst s ({ s.cst with bad := [] })
     decide (s.cst.bad = [])) &&
    (let s : State := base
     let p := ((3, 1) : Nat × Nat)
     let r := (s.cst.bad).tail
     let s : State := w_cst s ({ s.cst with bad := p :: r })
     match (s.cst.bad) with
     | [] => false
     | p :: _ =>
       let r := (s.cst.bad).tail
       decide (s.cst.bad = p :: r)) &&
    (let i : Fin 5 := 1
     let w : Word := 0
     let s : State := base
     decide (s.reaches i CST_DBG_ADDR = true ∧ bits w.toNat 22 1 = 0))) = true := by
  decide +kernel

theorem witness_ExactLookupsAndLearning_1 :
(
    (let k : Nat := 1
     let s : State := base
     decide (s.lookup k .exact = none)) &&
    (let k : Nat := 1
     let s : State := base
     let l : Lookup := { wks := 3, ctx := 5, reg := 2, kind := .exact, tid := 1, key := [], vslot := 0, frame := 1, t := 0, iport := 0 }
     let s : State := w_lkp s (List.replicate k l ++ [l])
     decide (s.lookup k .exact = some l ∧ s.xEnabled l.vslot l.tid = false)) &&
    (let k : Nat := 1
     let s : State := base
     let l : Lookup := { wks := 3, ctx := 5, reg := 2, kind := .exact, tid := 255, key := [1], vslot := 0, frame := 1, t := 0, iport := 0 }
     let s : State := ((((s.set (ctlEn xmtPage) 1).set (XMT_TBL_CFG_EN (tp (255)) (ti (255))) 1).set (XMT_TBL_CFG_KLEN (tp (255)) (ti (255))) 2).set (XMT_TBL_CFG_CAPK (tp (255)) (ti (255))) 8).set (HBC_REGION_STAT_EXT_U) 1
     let s : State := w_lkp s (List.replicate k l ++ [l])
     decide (s.lookup k .exact = some l ∧ s.xEnabled l.vslot l.tid = true ∧
       l.key.length ≠ s.cfgV l.vslot (XMT_TBL_CFG_KLEN (tp l.tid) (ti l.tid)))) &&
    (let k : Nat := 1
     let s : State := base
     let l : Lookup := { wks := 3, ctx := 5, reg := 2, kind := .exact, tid := 255, key := [1, 2], vslot := 0, frame := 1, t := 0, iport := 0 }
     let s : State := ((((s.set (ctlEn xmtPage) 1).set (XMT_TBL_CFG_EN (tp (255)) (ti (255))) 1).set (XMT_TBL_CFG_KLEN (tp (255)) (ti (255))) 2).set (XMT_TBL_CFG_CAPK (tp (255)) (ti (255))) 8).set (HBC_REGION_STAT_EXT_U) 1
     let s : State := w_lkp s (List.replicate k l ++ [l])
     decide (s.lookup k .exact = some l ∧ s.xEnabled l.vslot l.tid = true ∧
       l.key.length = s.cfgV l.vslot (XMT_TBL_CFG_KLEN (tp l.tid) (ti l.tid)))) &&
    (let k : Nat := 1
     let s : State := base
     let l : Lookup := { wks := 3, ctx := 5, reg := 2, kind := .exact, tid := 255, key := [1, 2], vslot := 0, frame := 1, t := 0, iport := 0 }
     let s : State := ((((s.set (ctlEn xmtPage) 1).set (XMT_TBL_CFG_EN (tp (255)) (ti (255))) 1).set (XMT_TBL_CFG_KLEN (tp (255)) (ti (255))) 2).set (XMT_TBL_CFG_CAPK (tp (255)) (ti (255))) 8).set (HBC_REGION_STAT_EXT_U) 1
     let s : State := w_lkp s (List.replicate k l ++ [l])
     let s : State := w_xmt s ({ s.xmt with entries := [{ tid := 255, key := [1, 2], data := [1, 2, 3, 4, 5, 6], place := .bucket 0 0 0 }] })
     match (s.xfind l.tid l.key l.vslot (fun e => !e.badPar.contains (quarterOf l.wks))) with
     | none => false
     | some e =>
       decide (s.lookup k .exact = some l ∧ s.xEnabled l.vslot l.tid = true ∧
         l.key.length = s.cfgV l.vslot (XMT_TBL_CFG_KLEN (tp l.tid) (ti l.tid)) ∧ s.readsBad (s.xgeoV l.vslot l.tid) l.key = false ∧
         s.xfind l.tid l.key l.vslot (fun e => !e.badPar.contains (quarterOf l.wks)) = some e)) &&
    (let k : Nat := 1
     let s : State := base
     let l : Lookup := { wks := 3, ctx := 5, reg := 2, kind := .exact, tid := 255, key := [1, 2], vslot := 0, frame := 1, t := 0, iport := 0 }
     let s : State := ((((s.set (ctlEn xmtPage) 1).set (XMT_TBL_CFG_EN (tp (255)) (ti (255))) 1).set (XMT_TBL_CFG_KLEN (tp (255)) (ti (255))) 2).set (XMT_TBL_CFG_CAPK (tp (255)) (ti (255))) 8).set (HBC_REGION_STAT_EXT_U) 1
     let s : State := w_lkp s (List.replicate k l ++ [l])
     decide (s.lookup k .exact = some l ∧ s.xEnabled l.vslot l.tid = true ∧
       l.key.length = s.cfgV l.vslot (XMT_TBL_CFG_KLEN (tp l.tid) (ti l.tid)) ∧ s.readsBad (s.xgeoV l.vslot l.tid) l.key = false ∧
       s.xfind l.tid l.key l.vslot = none)) &&
    (let k : Nat := 1
     let s : State := base
     decide (s.lookup k .learn = none)) &&
    (let k : Nat := 1
     let s : State := base
     let l : Lookup := { wks := 3, ctx := 5, reg := 2, kind := .learn, tid := 1, key := [], vslot := 0, frame := 1, t := 0, iport := 0 }
     let s : State := w_lkp s (List.replicate k l ++ [l])
     let n : Nat := s.cfgV l.vslot (XMT_TBL_CFG_KLEN (tp l.tid) (ti l.tid))
     decide (s.lookup k .learn = some l ∧ n = s.cfgV l.vslot (XMT_TBL_CFG_KLEN (tp l.tid) (ti l.tid)) ∧ s.xEnabled l.vslot l.tid = false)) &&
    (let k : Nat := 1
     let s : State := base
     let l : Lookup := { wks := 3, ctx := 5, reg := 2, kind := .learn, tid := 255, key := [1, 2, 1, 2, 3, 4, 5, 6], vslot := 0, frame := 1, t := 0, iport := 0 }
     let s : State := ((((s.set (ctlEn xmtPage) 1).set (XMT_TBL_CFG_EN (tp (255)) (ti (255))) 1).set (XMT_TBL_CFG_KLEN (tp (255)) (ti (255))) 2).set (XMT_TBL_CFG_CAPK (tp (255)) (ti (255))) 8).set (HBC_REGION_STAT_EXT_U) 1
     let s : State := w_lkp s (List.replicate k l ++ [l])
     let s : State := s.set (XMT_TBL_CFG_FMT (tp l.tid) (ti l.tid)) (0)
     let s : State := s.set (XMT_TBL_CFG_LRN_EN (tp l.tid) (ti l.tid)) (1)
     let s : State := w_xmt s ({ s.xmt with entries := [{ tid := 255, key := [1, 2], data := [1, 2, 3, 4, 5, 6], place := .bucket 0 0 0 }] })
     let n : Nat := s.cfgV l.vslot (XMT_TBL_CFG_KLEN (tp l.tid) (ti l.tid))
     match (s.xfind l.tid (l.key.take n) l.vslot (fun e => !e.badPar.contains (quarterOf l.wks))) with
     | none => false
     | some e =>
       decide (s.lookup k .learn = some l ∧ n = s.cfgV l.vslot (XMT_TBL_CFG_KLEN (tp l.tid) (ti l.tid)) ∧ s.xEnabled l.vslot l.tid = true ∧
         s.cfgV l.vslot (XMT_TBL_CFG_FMT (tp l.tid) (ti l.tid)) = 0 ∧ s.cfgV l.vslot (XMT_TBL_CFG_LRN_EN (tp l.tid) (ti l.tid)) = 1 ∧
         l.key.length = n + 6 ∧ s.readsBad (s.xgeoV l.vslot l.tid) (l.key.take n) = false ∧
         s.xfind l.tid (l.key.take n) l.vslot (fun e => !e.badPar.contains (quarterOf l.wks)) = some e ∧ e.data = l.key.drop n)) &&
    (let k : Nat := 1
     let s : State := base
     let l : Lookup := { wks := 3, ctx := 5, reg := 2, kind := .learn, tid := 255, key := [1, 2, 1, 2, 3, 4, 5, 6], vslot := 0, frame := 1, t := 0, iport := 0 }
     let s : State := ((((s.set (ctlEn xmtPage) 1).set (XMT_TBL_CFG_EN (tp (255)) (ti (255))) 1).set (XMT_TBL_CFG_KLEN (tp (255)) (ti (255))) 2).set (XMT_TBL_CFG_CAPK (tp (255)) (ti (255))) 8).set (HBC_REGION_STAT_EXT_U) 1
     let s : State := w_lkp s (List.replicate k l ++ [l])
     let s : State := s.set (XMT_TBL_CFG_FMT (tp l.tid) (ti l.tid)) (0)
     let s : State := s.set (XMT_TBL_CFG_LRN_EN (tp l.tid) (ti l.tid)) (1)
     let n : Nat := s.cfgV l.vslot (XMT_TBL_CFG_KLEN (tp l.tid) (ti l.tid))
     decide (s.lookup k .learn = some l ∧ n = s.cfgV l.vslot (XMT_TBL_CFG_KLEN (tp l.tid) (ti l.tid)) ∧ s.xEnabled l.vslot l.tid = true ∧
       s.cfgV l.vslot (XMT_TBL_CFG_FMT (tp l.tid) (ti l.tid)) = 0 ∧ s.cfgV l.vslot (XMT_TBL_CFG_LRN_EN (tp l.tid) (ti l.tid)) = 1 ∧
       l.key.length = n + 6 ∧ s.readsBad (s.xgeoV l.vslot l.tid) (l.key.take n) = false ∧
       s.xfind l.tid (l.key.take n) l.vslot (fun e => !e.badPar.contains (quarterOf l.wks)) = none ∧ s.xmt.learnQ.length < 4096)) &&
    (let k : Nat := 1
     let s : State := base
     let l : Lookup := { wks := 3, ctx := 5, reg := 2, kind := .learn, tid := 255, key := [1, 2, 1, 2, 3, 4, 5, 6], vslot := 0, frame := 1, t := 0, iport := 0 }
     let s : State := ((((s.set (ctlEn xmtPage) 1).set (XMT_TBL_CFG_EN (tp (255)) (ti (255))) 1).set (XMT_TBL_CFG_KLEN (tp (255)) (ti (255))) 2).set (XMT_TBL_CFG_CAPK (tp (255)) (ti (255))) 8).set (HBC_REGION_STAT_EXT_U) 1
     let s : State := w_lkp s (List.replicate k l ++ [l])
     let s : State := s.set (XMT_TBL_CFG_FMT (tp l.tid) (ti l.tid)) (0)
     let s : State := s.set (XMT_TBL_CFG_LRN_EN (tp l.tid) (ti l.tid)) (1)
     let s : State := w_xmt s ({ s.xmt with learnQ := List.replicate 4096 ⟨255, [1, 2], [1, 2, 3, 4, 5, 6], 10 ^ 11, 0, 0⟩ })
     let n : Nat := s.cfgV l.vslot (XMT_TBL_CFG_KLEN (tp l.tid) (ti l.tid))
     decide (s.lookup k .learn = some l ∧ n = s.cfgV l.vslot (XMT_TBL_CFG_KLEN (tp l.tid) (ti l.tid)) ∧ s.xEnabled l.vslot l.tid = true ∧
       s.cfgV l.vslot (XMT_TBL_CFG_FMT (tp l.tid) (ti l.tid)) = 0 ∧ s.cfgV l.vslot (XMT_TBL_CFG_LRN_EN (tp l.tid) (ti l.tid)) = 1 ∧
       l.key.length = n + 6 ∧ s.readsBad (s.xgeoV l.vslot l.tid) (l.key.take n) = false ∧
       s.xfind l.tid (l.key.take n) l.vslot (fun e => !e.badPar.contains (quarterOf l.wks)) = none ∧ 4096 ≤ s.xmt.learnQ.length)) &&
    (let s : State := base
     decide (s.nextLearn = none)) &&
    (let s : State := base
     let s : State := ((((s.set (ctlEn xmtPage) 1).set (XMT_TBL_CFG_EN (tp (255)) (ti (255))) 1).set (XMT_TBL_CFG_KLEN (tp (255)) (ti (255))) 2).set (XMT_TBL_CFG_CAPK (tp (255)) (ti (255))) 8).set (HBC_REGION_STAT_EXT_U) 1
     let s : State := w_xmt s ({ s.xmt with learnQ := [⟨255, [1, 2], [1, 2, 3, 4, 5, 6], 10 ^ 11, 0, 0⟩] })
     let s : State := s.set XMT_LRN_CFG_NOTIFY (1)
     match (s.nextLearn) with
     | none => false
     | some r =>
       decide (s.nextLearn = some r ∧ s.get XMT_LRN_CFG_NOTIFY = 1 ∧ (s.cring (s.get XMT_LRN_CFG_CRING)).canTake = false)) &&
    (let s : State := base
     let s : State := ((((s.set (ctlEn xmtPage) 1).set (XMT_TBL_CFG_EN (tp (255)) (ti (255))) 1).set (XMT_TBL_CFG_KLEN (tp (255)) (ti (255))) 2).set (XMT_TBL_CFG_CAPK (tp (255)) (ti (255))) 8).set (HBC_REGION_STAT_EXT_U) 1
     let s : State := w_xmt s ({ s.xmt with learnQ := [⟨255, [1, 2], [1, 2, 3, 4, 5, 6], 10 ^ 11, 0, 0⟩] })
     let s : State := s.set XMT_LRN_CFG_NOTIFY (0)
     match (s.nextLearn) with
     | none => false
     | some r =>
       match (freeSlot s.xmt.entries (s.xgeo r.tid) 0 ((s.xgeo r.tid).bucket 0 r.key)) with
       | none => false
       | some i =>
         decide (s.nextLearn = some r ∧ s.get XMT_LRN_CFG_NOTIFY = 0 ∧ r.tid < 256 ∧
           (s.xmt.entries.any fun e => e.tid == r.tid && e.key == r.key) = false ∧
           freeSlot s.xmt.entries (s.xgeo r.tid) 0 ((s.xgeo r.tid).bucket 0 r.key) = some i))) = true := by
  decide +kernel

theorem witness_ExactLookupsAndLearning_2 :
(
    (let s : State := base
     let s : State := ((((s.set (ctlEn xmtPage) 1).set (XMT_TBL_CFG_EN (tp (255)) (ti (255))) 1).set (XMT_TBL_CFG_KLEN (tp (255)) (ti (255))) 2).set (XMT_TBL_CFG_CAPK (tp (255)) (ti (255))) 8).set (HBC_REGION_STAT_EXT_U) 1
     let s : State := w_xmt s ({ s.xmt with learnQ := [⟨255, [1, 2], [1, 2, 3, 4, 5, 6], 10 ^ 11, 0, 0⟩] })
     let s : State := s.set XMT_LRN_CFG_NOTIFY (0)
     let s : State := w_xmt s ({ s.xmt with entries := [{ tid := 255, key := [1, 2], data := [9, 2, 3, 4, 5, 6], place := .bucket 0 0 0, s := true }] })
     match (s.nextLearn) with
     | none => false
     | some r =>
       match (s.xfind r.tid r.key s.newest) with
       | none => false
       | some e =>
         decide (s.nextLearn = some r ∧ s.get XMT_LRN_CFG_NOTIFY = 0 ∧ r.tid < 256 ∧
           s.xmt.entries.filter (fun e => e.tid == r.tid && e.key == r.key) = [e] ∧ e.v.pend = false ∧ e.v.delBy = none ∧ e.v.sup = false ∧
           s.xfind r.tid r.key s.newest = some e ∧ e.s = true)) &&
    (let s : State := base
     let s : State := ((((s.set (ctlEn xmtPage) 1).set (XMT_TBL_CFG_EN (tp (255)) (ti (255))) 1).set (XMT_TBL_CFG_KLEN (tp (255)) (ti (255))) 2).set (XMT_TBL_CFG_CAPK (tp (255)) (ti (255))) 8).set (HBC_REGION_STAT_EXT_U) 1
     let s : State := w_xmt s ({ s.xmt with learnQ := [⟨255, [1, 2], [1, 2, 3, 4, 5, 6], 10 ^ 11, 0, 0⟩] })
     let s : State := s.set XMT_LRN_CFG_NOTIFY (0)
     let s : State := w_xmt s ({ s.xmt with entries := [{ tid := 255, key := [1, 2], data := [9, 2, 3, 4, 5, 6], place := .bucket 0 0 0, last := some (10 ^ 11) }] })
     let s : State := s.set (XMT_TBL_LRN_MOVE_HOLD (tp 255) (ti 255)) (1)
     match (s.nextLearn) with
     | none => false
     | some r =>
       match (s.xfind r.tid r.key s.newest) with
       | none => false
       | some e =>
         match (e.last) with
         | none => false
         | some t0 =>
           decide (s.nextLearn = some r ∧ s.get XMT_LRN_CFG_NOTIFY = 0 ∧ r.tid < 256 ∧
             s.xmt.entries.filter (fun e => e.tid == r.tid && e.key == r.key) = [e] ∧ e.v.pend = false ∧ e.v.delBy = none ∧ e.v.sup = false ∧
             s.xfind r.tid r.key s.newest = some e ∧ e.s = false ∧ e.data ≠ r.data ∧ e.last = some t0 ∧
             r.t < t0 + min 1000 (s.get (XMT_TBL_LRN_MOVE_HOLD (tp r.tid) (ti r.tid))) * 1000000)) &&
    (let s : State := base
     let s : State := ((((s.set (ctlEn xmtPage) 1).set (XMT_TBL_CFG_EN (tp (255)) (ti (255))) 1).set (XMT_TBL_CFG_KLEN (tp (255)) (ti (255))) 2).set (XMT_TBL_CFG_CAPK (tp (255)) (ti (255))) 8).set (HBC_REGION_STAT_EXT_U) 1
     let s : State := w_xmt s ({ s.xmt with learnQ := [⟨255, [1, 2], [1, 2, 3, 4, 5, 6], 10 ^ 11, 0, 0⟩] })
     let s : State := s.set XMT_LRN_CFG_NOTIFY (0)
     let s : State := w_xmt s ({ s.xmt with entries := [{ tid := 255, key := [1, 2], data := [9, 2, 3, 4, 5, 6], place := .bucket 0 0 0, last := some (10 ^ 10) }] })
     match (s.nextLearn) with
     | none => false
     | some r =>
       match (s.xfind r.tid r.key s.newest) with
       | none => false
       | some e =>
         match (e.last) with
         | none => false
         | some t0 =>
           decide (s.nextLearn = some r ∧ s.get XMT_LRN_CFG_NOTIFY = 0 ∧ r.tid < 256 ∧
             s.xmt.entries.filter (fun e => e.tid == r.tid && e.key == r.key) = [e] ∧ e.v.pend = false ∧ e.v.delBy = none ∧ e.v.sup = false ∧
             s.xfind r.tid r.key s.newest = some e ∧ e.s = false ∧ e.data ≠ r.data ∧ e.last = some t0 ∧
             t0 + min 1000 (s.get (XMT_TBL_LRN_MOVE_HOLD (tp r.tid) (ti r.tid))) * 1000000 ≤ r.t)) &&
    (let s : State := base
     let s : State := ((((s.set (ctlEn xmtPage) 1).set (XMT_TBL_CFG_EN (tp (255)) (ti (255))) 1).set (XMT_TBL_CFG_KLEN (tp (255)) (ti (255))) 2).set (XMT_TBL_CFG_CAPK (tp (255)) (ti (255))) 8).set (HBC_REGION_STAT_EXT_U) 1
     let s : State := w_xmt s ({ s.xmt with learnQ := [⟨255, [1, 2], [1, 2, 3, 4, 5, 6], 10 ^ 11, 0, 0⟩] })
     let s : State := s.set XMT_LRN_CFG_NOTIFY (0)
     let s : State := w_xmt s ({ s.xmt with entries := [{ tid := 255, key := [1, 2], data := [9, 2, 3, 4, 5, 6], place := .bucket 0 0 0, v := { pend := true } }] })
     match (s.nextLearn) with
     | none => false
     | some r =>
       decide (s.nextLearn = some r ∧ s.get XMT_LRN_CFG_NOTIFY = 0 ∧ r.tid < 256 ∧
         (s.xmt.entries.any fun e => e.tid == r.tid && e.key == r.key && (e.v.pend || e.v.delBy.isSome)) = true))) = true := by
  decide +kernel

theorem witness_TableJobsAndPlacement_1 :
(
    (let i : Fin 5 := 1
     let tid : Fin 256 := 255
     let s : State := base
     let j := { tid := 255 }
     let s : State := w_xmt s ({ s.xmt with job := some j })
     decide (s.reaches i XMT_JOB_CMD = true ∧ s.xmt.job = some j)) &&
    (let i : Fin 5 := 1
     let n : BitVec 16 := 65535
     let s : State := base
     let s : State := w_xmt s ({ s.xmt with job := none })
     decide (s.reaches i XMT_JOB_CMD = true ∧ s.xmt.job = none ∧ n ≠ 0)) &&
    (let i : Fin 5 := 1
     let s : State := base
     let s : State := w_xmt s ({ s.xmt with job := none })
     decide (s.reaches i XMT_JOB_CMD = true ∧ s.xmt.job = none)) &&
    (let i : Fin 5 := 1
     let s : State := base
     let j := ({} : Job)
     let s : State := w_xmt s ({ s.xmt with job := some j })
     let s : State := w_xmt s ({ s.xmt with rehash := none })
     match (s.xmt.job) with
     | none => false
     | some j =>
       decide (s.reaches i XMT_JOB_CMD = true ∧ s.xmt.job = some j ∧ s.xmt.rehash = none)) &&
    (let i : Fin 5 := 1
     let s : State := base
     let j := ({} : Job)
     let s : State := w_xmt s ({ s.xmt with job := some j })
     let h := (⟨1, 2, 3, 4⟩ : Rehash)
     let s : State := w_xmt s ({ s.xmt with rehash := some h })
     match (s.xmt.job) with
     | none => false
     | some j =>
       match (s.xmt.rehash) with
       | none => false
       | some h =>
         decide (s.reaches i XMT_JOB_CMD = true ∧ s.xmt.job = some j ∧ s.xmt.rehash = some h)) &&
    (let s : State := base
     let s : State := w_xmt s ({ s.xmt with job := none })
     decide ((s.xmt.job = none ∨ s.xmt.rehash.isSome = true))) &&
    (let j : Job := { count := 9 }
     let s : State := base
     let s : State := w_xmt s ({ s.xmt with job := some j })
     let s : State := w_xmt s ({ s.xmt with rehash := none })
     let klen : Nat := s.get (XMT_TBL_CFG_KLEN (tp j.tid) (ti j.tid))
     let dlen : Nat := (if s.get (XMT_TBL_CFG_FMT (tp j.tid) (ti j.tid)) = 1 then 12 else 6)
     decide (s.xmt.job = some j ∧ s.xmt.rehash = none ∧ klen = s.get (XMT_TBL_CFG_KLEN (tp j.tid) (ti j.tid)) ∧
       dlen = (if s.get (XMT_TBL_CFG_FMT (tp j.tid) (ti j.tid)) = 1 then 12 else 6))) &&
    (let j : Job := { count := 9 }
     let r : List Byte := []
     let s : State := base
     let j := { j with abort := false }
     let s : State := w_xmt s ({ s.xmt with job := some j })
     let s : State := w_xmt s ({ s.xmt with rehash := none })
     let klen : Nat := s.get (XMT_TBL_CFG_KLEN (tp j.tid) (ti j.tid))
     let dlen : Nat := (if s.get (XMT_TBL_CFG_FMT (tp j.tid) (ti j.tid)) = 1 then 12 else 6)
     decide (s.xmt.job = some j ∧ s.xmt.rehash = none ∧ klen = s.get (XMT_TBL_CFG_KLEN (tp j.tid) (ti j.tid)) ∧
       dlen = (if s.get (XMT_TBL_CFG_FMT (tp j.tid) (ti j.tid)) = 1 then 12 else 6) ∧ xmtBadRec r klen dlen = true ∧ j.abort = false ∧
       j.next + 1 < j.count)) &&
    (let j : Job := { tid := 255, count := 9 }
     let r : List Byte := setB (setB (List.replicate 64 0) 0 1) 8 7
     let s : State := base
     let s : State := ((((s.set (ctlEn xmtPage) 1).set (XMT_TBL_CFG_EN (tp (255)) (ti (255))) 1).set (XMT_TBL_CFG_KLEN (tp (255)) (ti (255))) 2).set (XMT_TBL_CFG_CAPK (tp (255)) (ti (255))) 8).set (HBC_REGION_STAT_EXT_U) 1
     let j := { j with open0 := false }
     let s : State := w_xmt s ({ s.xmt with job := some j })
     let s : State := w_xmt s ({ s.xmt with rehash := none })
     let klen : Nat := s.get (XMT_TBL_CFG_KLEN (tp j.tid) (ti j.tid))
     let dlen : Nat := (if s.get (XMT_TBL_CFG_FMT (tp j.tid) (ti j.tid)) = 1 then 12 else 6)
     decide (s.xmt.job = some j ∧ s.xmt.rehash = none ∧ klen = s.get (XMT_TBL_CFG_KLEN (tp j.tid) (ti j.tid)) ∧
       dlen = (if s.get (XMT_TBL_CFG_FMT (tp j.tid) (ti j.tid)) = 1 then 12 else 6) ∧ xmtBadRec r klen dlen = false ∧ byteAt r 0 ≤ 3 ∧
       (j.open0 = false ∨ s.txnState j.init = .idle ∨ s.txnState j.init = .committing))) &&
    (let j : Job := { tid := 255, count := 9 }
     let r : List Byte := setB (setB (List.replicate 64 0) 0 1) 8 7
     let s : State := base
     let s : State := ((((s.set (ctlEn xmtPage) 1).set (XMT_TBL_CFG_EN (tp (255)) (ti (255))) 1).set (XMT_TBL_CFG_KLEN (tp (255)) (ti (255))) 2).set (XMT_TBL_CFG_CAPK (tp (255)) (ti (255))) 8).set (HBC_REGION_STAT_EXT_U) 1
     let r := setB r 0 (1)
     let j := { j with open0 := true }
     let j := { j with abort := false }
     let s : State := w_xmt s ({ s.xmt with job := some j })
     let s : State := w_xmt s ({ s.xmt with rehash := none })
     let s : State := s.set (LDG_TXN_STAT_STATE j.init) 1
     let klen : Nat := s.get (XMT_TBL_CFG_KLEN (tp j.tid) (ti j.tid))
     let dlen : Nat := (if s.get (XMT_TBL_CFG_FMT (tp j.tid) (ti j.tid)) = 1 then 12 else 6)
     match (freeSlot s.xmt.entries (s.xgeo j.tid) 0 ((s.xgeo j.tid).bucket 0 (bytesAt r 8 klen))) with
     | none => false
     | some n =>
       decide (s.xmt.job = some j ∧ s.xmt.rehash = none ∧ klen = s.get (XMT_TBL_CFG_KLEN (tp j.tid) (ti j.tid)) ∧
         dlen = (if s.get (XMT_TBL_CFG_FMT (tp j.tid) (ti j.tid)) = 1 then 12 else 6) ∧ xmtBadRec r klen dlen = false ∧ byteAt r 0 = 1 ∧
         j.open0 = true ∧ s.txnState j.init = .opened ∧ s.cascadeRefuses j.init = false ∧ j.abort = false ∧ j.next + 1 < j.count ∧
         (s.xmt.entries.any fun e => e.tid == j.tid && e.key == bytesAt r 8 klen) = false ∧
         freeSlot s.xmt.entries (s.xgeo j.tid) 0 ((s.xgeo j.tid).bucket 0 (bytesAt r 8 klen)) = some n)) &&
    (let s : State := base
     let s : State := w_xmt s ({ s.xmt with rehash := none })
     decide (s.xmt.rehash = none)) &&
    (let s : State := base
     let h : Rehash := ⟨255, 2, 3, 4⟩
     let j : Job := { tid := 255, count := 1 }
     let s : State := ((((s.set (ctlEn xmtPage) 1).set (XMT_TBL_CFG_EN (tp (255)) (ti (255))) 1).set (XMT_TBL_CFG_KLEN (tp (255)) (ti (255))) 2).set (XMT_TBL_CFG_CAPK (tp (255)) (ti (255))) 8).set (HBC_REGION_STAT_EXT_U) 1
     let j := { j with abort := false }
     let s : State := w_xmt s ({ s.xmt with rehash := some h })
     let s : State := w_xmt s ({ s.xmt with job := some j })
     let s : State := w_xmt s ({ s.xmt with entries := (List.range 9).map fun n => { tid := 255, key := [1, 2], data := [9, 2, 3, 4, 5, 6], place := .bucket 0 0 n } })
     let g : XGeo := { s.xgeo h.tid with seed0 := BitVec.ofNat 32 h.seed0, seed1 := BitVec.ofNat 32 h.seed1 }
     decide (s.xmt.rehash = some h ∧ s.xmt.job = some j ∧ j.count ≤ j.next + 1 ∧ j.abort = false ∧
       g = { s.xgeo h.tid with seed0 := BitVec.ofNat 32 h.seed0, seed1 := BitVec.ofNat 32 h.seed1 } ∧
       s.get XMT_PLACE_STAT_FREE_EXT + g.extents < 4096 ∧ h.tid < 256 ∧ j.tid < 256 ∧
       rehashPlace [] g (s.xmt.entries.filter fun e => e.tid == h.tid && e.place != .ext) [] = none)) &&
    (let s : State := base
     let h : Rehash := ⟨255, 2, 3, 4⟩
     let j : Job := { tid := 255, count := 1 }
     let s : State := ((((s.set (ctlEn xmtPage) 1).set (XMT_TBL_CFG_EN (tp (255)) (ti (255))) 1).set (XMT_TBL_CFG_KLEN (tp (255)) (ti (255))) 2).set (XMT_TBL_CFG_CAPK (tp (255)) (ti (255))) 8).set (HBC_REGION_STAT_EXT_U) 1
     let j := { j with abort := false }
     let s : State := w_xmt s ({ s.xmt with rehash := some h })
     let s : State := w_xmt s ({ s.xmt with job := some j })
     let g : XGeo := { s.xgeo h.tid with seed0 := BitVec.ofNat 32 h.seed0, seed1 := BitVec.ofNat 32 h.seed1 }
     match (rehashPlace [] g (s.xmt.entries.filter fun e => e.tid == h.tid && e.place != .ext) []) with
     | none => false
     | some es =>
       decide (s.xmt.rehash = some h ∧ s.xmt.job = some j ∧ j.count ≤ j.next + 1 ∧ j.abort = false ∧
         g = { s.xgeo h.tid with seed0 := BitVec.ofNat 32 h.seed0, seed1 := BitVec.ofNat 32 h.seed1 } ∧
         s.get XMT_PLACE_STAT_FREE_EXT + g.extents < 4096 ∧ h.tid < 256 ∧ j.tid < 256 ∧
         rehashPlace [] g (s.xmt.entries.filter fun e => e.tid == h.tid && e.place != .ext) [] = some es)) &&
    (let tid : Fin 256 := 255
     let e : XEntry := { tid := 255, key := [1, 2], data := [1, 2, 3, 4, 5, 6] }
     let i : Nat := 1023
     let n : Nat := 0
     let s : State := base
     let s : State := ((((s.set (ctlEn xmtPage) 1).set (XMT_TBL_CFG_EN (tp (255)) (ti (255))) 1).set (XMT_TBL_CFG_KLEN (tp (255)) (ti (255))) 2).set (XMT_TBL_CFG_CAPK (tp (255)) (ti (255))) 8).set (HBC_REGION_STAT_EXT_U) 1
     let e := { e with place := .stash i }
     let s : State := w_xmt s ({ s.xmt with entries := [e] })
     decide (s.xmt.entries.filter (fun x => x.tid == tid.val && (match x.place with | .stash _ => true | _ => false)) = [e] ∧
       e.place = .stash i ∧ i < 1024 ∧ freeSlot s.xmt.entries (s.xgeo tid) 0 ((s.xgeo tid).bucket 0 e.key) = some n))) = true := by
  decide +kernel

theorem witness_TableJobsAndPlacement_2 :
(
    (let s : State := base
     decide (((List.range 256).all fun b => s.bankPct b ≤ s.get XMT_PLACE_CFG_HOT_PCT) = true)) &&
    (let b : Fin 256 := 255
     let s : State := base
     let s : State := s.set XMT_PLACE_STAT_FREE_EXT (if (0) = 0 then 1 else 0)
     let s : State := w_xmt s ({ s.xmt with bankAcc := [(255, 10 ^ 9)] })
     decide (s.get XMT_PLACE_CFG_HOT_PCT < s.bankPct b ∧
       ((List.range 256).all fun x => x == b.val || s.bankPct x ≤ s.get XMT_PLACE_CFG_HOT_PCT) = true ∧ s.get XMT_PLACE_STAT_FREE_EXT ≠ 0 ∧
       (s.xmt.replicas.filter fun r => r.hot == b.val).length < 3)) &&
    (let b : Fin 256 := 255
     let s : State := base
     decide (((∀ r ∈ s.xmt.replicas, r.bank ≠ b ∨ s.now - r.coldSince < 100000000)))) &&
    (let b : Fin 256 := 255
     let s : State := base
     let r := ⟨3, 255, 5⟩
     let s : State := w_xmt s ({ s.xmt with replicas := [r] })
     decide (s.xmt.replicas = [r] ∧ r.bank = b ∧ 100000000 ≤ s.now - r.coldSince)) &&
    (let tid : Fin 256 := 255
     let e : XEntry := { tid := 255, key := [1, 2], data := [1, 2, 3, 4, 5, 6] }
     let w : Nat := 1
     let b : Nat := 0
     let n : Nat := 3
     let s : State := base
     let s : State := ((((s.set (ctlEn xmtPage) 1).set (XMT_TBL_CFG_EN (tp (255)) (ti (255))) 1).set (XMT_TBL_CFG_KLEN (tp (255)) (ti (255))) 2).set (XMT_TBL_CFG_CAPK (tp (255)) (ti (255))) 0).set (HBC_REGION_STAT_EXT_U) 1
     let e := { e with tid := tid }
     let e := { e with place := .bucket w b n }
     let e := { e with h := false }
     let s : State := s.set XMT_PLACE_CFG_DEMOTE_MS (if (0) = 0 then 1 else 0)
     let s : State := s.set (XMT_TBL_CFG_EXT_EN (tp tid) (ti tid)) (1)
     let s : State := w_xmt s ({ s.xmt with entries := [e] })
     decide (e ∈ s.xmt.entries ∧ e.tid = tid ∧ e.place = .bucket w b n ∧ e.h = false ∧ s.get XMT_PLACE_CFG_DEMOTE_MS ≠ 0 ∧
       s.get XMT_PLACE_CFG_DEMOTE_MS * 1000000 ≤ s.now - e.idle ∧ s.get (XMT_TBL_CFG_EXT_EN (tp tid) (ti tid)) = 1 ∧ (s.xgeo tid).large = true ∧
       9 * (2 * (s.xgeo tid).b * (s.xgeo tid).s) < s.sramUse tid * 10 ∧ s.extUse < s.extLimit)) &&
    (let tid : Fin 256 := 255
     let s : State := base
     let s : State := s.set (XMT_TBL_CFG_EXT_EN (tp tid) (ti tid)) (if (1) = 0 then 1 else 0)
     decide ((s.get (XMT_TBL_CFG_EXT_EN (tp tid) (ti tid)) ≠ 1 ∨ s.extLimit ≤ s.extUse))) &&
    (let tid : Fin 256 := 255
     let s : State := base
     decide (((∀ e ∈ s.xmt.entries, e.tid = tid → e.place = .ext → e.h = false)))) &&
    (let tid : Fin 256 := 255
     let s : State := base
     let e := ({ tid := 255, key := [1, 2], data := [1, 2, 3, 4, 5, 6], h := true } : XEntry)
     let s : State := ((((s.set (ctlEn xmtPage) 1).set (XMT_TBL_CFG_EN (tp (255)) (ti (255))) 1).set (XMT_TBL_CFG_KLEN (tp (255)) (ti (255))) 2).set (XMT_TBL_CFG_CAPK (tp (255)) (ti (255))) 8).set (HBC_REGION_STAT_EXT_U) 1
     let s : State := w_xmt s ({ s.xmt with entries := [e] })
     match (freeSlot s.xmt.entries (s.xgeo tid) 0 ((s.xgeo tid).bucket 0 e.key)) with
     | none => false
     | some n =>
       decide (s.xmt.entries.filter (fun e => e.tid == tid.val && e.place == .ext && e.h) = [e] ∧
         freeSlot s.xmt.entries (s.xgeo tid) 0 ((s.xgeo tid).bucket 0 e.key) = some n)) &&
    (let s : State := base
     let s : State := s.set XMT_ASY_CFG_EN (if (1) = 0 then 1 else 0)
     decide (s.get XMT_ASY_CFG_EN ≠ 1)) &&
    (let tid : Fin 256 := 255
     let r : List Byte := setB (setB (setB (List.replicate 64 0) 1 1) 8 1) 9 2
     let s : State := base
     let s : State := ((((s.set (ctlEn xmtPage) 1).set (XMT_TBL_CFG_EN (tp (255)) (ti (255))) 1).set (XMT_TBL_CFG_KLEN (tp (255)) (ti (255))) 2).set (XMT_TBL_CFG_CAPK (tp (255)) (ti (255))) 8).set (HBC_REGION_STAT_EXT_U) 1
     let s : State := s.set (XMT_TBL_SHADOW_CNT_COUNT (tp 255) (ti 255)) 9
     let s : State := s.set XMT_ASY_CFG_EN (1)
     let s : State := w_xmt s ({ s.xmt with asy := { s.xmt.asy with active := true } })
     let s : State := w_xmt s ({ s.xmt with asy := { s.xmt.asy with tid := tid } })
     let s : State := s.set (XMT_TBL_CFG_FMT (tp tid) (ti tid)) (0)
     let s : State := s.set XMT_ASY_CFG_REPAIR (0)
     let key := bytesAt r 8 (s.get (XMT_TBL_CFG_KLEN (tp tid) (ti tid)))
     decide (s.get XMT_ASY_CFG_EN = 1 ∧ s.xmt.asy.active = true ∧ s.xmt.asy.tid = tid ∧ s.assayable tid = true ∧
       s.xmt.asy.idx + 1 < s.get (XMT_TBL_SHADOW_CNT_COUNT (tp tid) (ti tid)) ∧ bit (byteAt r 1) 0 = true ∧
       precedes (s.get LDG_EPOCH_EPOCH) (leNat (bytesAt r 4 4)) = false ∧ s.get (XMT_TBL_CFG_FMT (tp tid) (ti tid)) = 0 ∧
       key = bytesAt r 8 (s.get (XMT_TBL_CFG_KLEN (tp tid) (ti tid))) ∧ s.xfind tid key s.newest = none ∧ s.get XMT_ASY_CFG_REPAIR = 0)) &&
    (let tid : Fin 256 := 255
     let r : List Byte := setB (setB (setB (List.replicate 64 0) 1 1) 8 1) 9 2
     let s : State := base
     let s : State := ((((s.set (ctlEn xmtPage) 1).set (XMT_TBL_CFG_EN (tp (255)) (ti (255))) 1).set (XMT_TBL_CFG_KLEN (tp (255)) (ti (255))) 2).set (XMT_TBL_CFG_CAPK (tp (255)) (ti (255))) 8).set (HBC_REGION_STAT_EXT_U) 1
     let s : State := s.set (XMT_TBL_SHADOW_CNT_COUNT (tp 255) (ti 255)) 9
     let s : State := s.set XMT_ASY_CFG_EN (1)
     let s : State := w_xmt s ({ s.xmt with asy := { s.xmt.asy with active := true } })
     let s : State := w_xmt s ({ s.xmt with asy := { s.xmt.asy with tid := tid } })
     let s : State := s.set (XMT_TBL_CFG_FMT (tp tid) (ti tid)) (0)
     let s : State := w_xmt s ({ s.xmt with entries := [{ tid := 255, key := [1, 2], data := List.replicate 6 0, place := .bucket 0 0 0 }] })
     let key := bytesAt r 8 (s.get (XMT_TBL_CFG_KLEN (tp tid) (ti tid)))
     match (s.xfind tid key s.newest) with
     | none => false
     | some e =>
       decide (s.get XMT_ASY_CFG_EN = 1 ∧ s.xmt.asy.active = true ∧ s.xmt.asy.tid = tid ∧ s.assayable tid = true ∧
         s.xmt.asy.idx + 1 < s.get (XMT_TBL_SHADOW_CNT_COUNT (tp tid) (ti tid)) ∧ bit (byteAt r 1) 0 = true ∧
         precedes (s.get LDG_EPOCH_EPOCH) (leNat (bytesAt r 4 4)) = false ∧ s.get (XMT_TBL_CFG_FMT (tp tid) (ti tid)) = 0 ∧
         key = bytesAt r 8 (s.get (XMT_TBL_CFG_KLEN (tp tid) (ti tid))) ∧ s.xfind tid key s.newest = some e ∧ e.data = bytesAt r 48 6)) &&
    (let tid : Fin 256 := 255
     let r : List Byte := setB (setB (setB (List.replicate 64 0) 1 1) 8 1) 9 2
     let s : State := base
     let s : State := ((((s.set (ctlEn xmtPage) 1).set (XMT_TBL_CFG_EN (tp (255)) (ti (255))) 1).set (XMT_TBL_CFG_KLEN (tp (255)) (ti (255))) 2).set (XMT_TBL_CFG_CAPK (tp (255)) (ti (255))) 8).set (HBC_REGION_STAT_EXT_U) 1
     let s : State := s.set (XMT_TBL_SHADOW_CNT_COUNT (tp 255) (ti 255)) 9
     let s : State := s.set XMT_ASY_CFG_EN (1)
     let s : State := w_xmt s ({ s.xmt with asy := { s.xmt.asy with active := true } })
     let s : State := w_xmt s ({ s.xmt with asy := { s.xmt.asy with tid := tid } })
     let s : State := s.set (XMT_TBL_CFG_FMT (tp tid) (ti tid)) (0)
     let s : State := s.set XMT_ASY_CFG_REPAIR (1)
     let s : State := w_xmt s ({ s.xmt with entries := [{ tid := 255, key := [1, 2], data := List.replicate 6 1, place := .bucket 0 0 0 }] })
     let key := bytesAt r 8 (s.get (XMT_TBL_CFG_KLEN (tp tid) (ti tid)))
     match (s.xfind tid key s.newest) with
     | none => false
     | some e =>
       decide (s.get XMT_ASY_CFG_EN = 1 ∧ s.xmt.asy.active = true ∧ s.xmt.asy.tid = tid ∧ s.assayable tid = true ∧
         s.xmt.asy.idx + 1 < s.get (XMT_TBL_SHADOW_CNT_COUNT (tp tid) (ti tid)) ∧ bit (byteAt r 1) 0 = true ∧
         precedes (s.get LDG_EPOCH_EPOCH) (leNat (bytesAt r 4 4)) = false ∧ s.get (XMT_TBL_CFG_FMT (tp tid) (ti tid)) = 0 ∧
         key = bytesAt r 8 (s.get (XMT_TBL_CFG_KLEN (tp tid) (ti tid))) ∧ s.xfind tid key s.newest = some e ∧ e.data ≠ bytesAt r 48 6 ∧
         e.l = false ∧ s.get XMT_ASY_CFG_REPAIR = 1 ∧ s.xHasStaged tid key = false)) &&
    (let tid : Fin 256 := 255
     let s : State := base
     decide (((∀ e ∈ s.xmt.entries, e.tid = tid → e.badPar = [])))) &&
    (let tid : Fin 256 := 255
     let s : State := base
     let e := ({ tid := 255, key := [1, 2], data := [1], badPar := [0, 3] } : XEntry)
     let s : State := w_xmt s ({ s.xmt with entries := [e] })
     decide (s.xmt.entries.filter (fun e => e.tid == tid.val && !e.badPar.isEmpty) = [e] ∧
       (List.range 4).any (fun q => !e.badPar.contains q) = true))) = true := by
  decide +kernel

theorem witness_TableJobsAndPlacement_3 :
    (let tid : Fin 256 := 255
     let s : State := base
     let e := ({ tid := 255, key := [1, 2], data := [1], badPar := [0, 1, 2, 3] } : XEntry)
     let s : State := w_xmt s ({ s.xmt with entries := [e] })
     decide (s.xmt.entries.filter (fun e => e.tid == tid.val && !e.badPar.isEmpty) = [e] ∧
       (List.range 4).all (fun q => e.badPar.contains q) = true)) = true := by
  decide +kernel

theorem witness_RoutesFollowTheLongestPrefix_1 :
(
    (let k : Nat := 0
     let vrf : Nat := 16383
     let a : Nat := 10 * 2 ^ 24 + 5
     let v6 : Bool := false
     let r : Route := ({ v6 := false, vrf := 16383, plen := 8, pfx := 10 * 2 ^ 24, data := 8 } : Route)
     let s : State := base
     let s : State := w_lpm s ({ s.lpm with routes := [({ v6 := false, vrf := 16383, plen := 0, pfx := 0, data := 9 } : Route), ({ v6 := false, vrf := 16383, plen := 8, pfx := 10 * 2 ^ 24, data := 8 } : Route)] })
     decide (s.lpmFind k v6 vrf a = some r)) &&
    (let k : Nat := 0
     let vrf : Nat := 16383
     let a : Nat := 10 * 2 ^ 24 + 5
     let v6 : Bool := false
     let r : Route := ({ v6 := false, vrf := 16383, plen := 8, pfx := 10 * 2 ^ 24, data := 8 } : Route)
     let s : State := base
     let s : State := w_lpm s ({ s.lpm with routes := [({ v6 := false, vrf := 16383, plen := 0, pfx := 0, data := 9 } : Route), ({ v6 := false, vrf := 16383, plen := 8, pfx := 10 * 2 ^ 24, data := 8 } : Route)] })
     decide (s.lpmFind k v6 vrf a = some r)) &&
    (let k : Nat := 0
     let vrf : Nat := 16383
     let a : Nat := 10 * 2 ^ 24 + 5
     let v6 : Bool := false
     let r : Route := ({ v6 := false, vrf := 16383, plen := 8, pfx := 10 * 2 ^ 24, data := 8 } : Route)
     let s : State := base
     let s : State := w_lpm s ({ s.lpm with routes := [({ v6 := false, vrf := 16383, plen := 0, pfx := 0, data := 9 } : Route), ({ v6 := false, vrf := 16383, plen := 8, pfx := 10 * 2 ^ 24, data := 8 } : Route)] })
     decide (s.lpmFind k v6 vrf a = some r)) &&
    (let k : Nat := 0
     let vrf : Nat := 16383
     let a : Nat := 10 * 2 ^ 24 + 5
     let v6 : Bool := false
     let r : Route := ({ v6 := false, vrf := 16383, plen := 8, pfx := 10 * 2 ^ 24, data := 8 } : Route)
     let s : State := base
     let s : State := w_lpm s ({ s.lpm with routes := [({ v6 := false, vrf := 16383, plen := 0, pfx := 0, data := 9 } : Route), ({ v6 := false, vrf := 16383, plen := 8, pfx := 10 * 2 ^ 24, data := 8 } : Route)] })
     decide (s.lpmFind k v6 vrf a = some r)) &&
    (let k : Nat := 0
     let vrf : Nat := 16383
     let a : Nat := 10 * 2 ^ 24 + 5
     let v6 : Bool := false
     let r : Route := ({ v6 := false, vrf := 16383, plen := 8, pfx := 10 * 2 ^ 24, data := 8 } : Route)
     let s : State := base
     let s : State := w_lpm s ({ s.lpm with routes := [({ v6 := false, vrf := 16383, plen := 0, pfx := 0, data := 9 } : Route), ({ v6 := false, vrf := 16383, plen := 8, pfx := 10 * 2 ^ 24, data := 8 } : Route)] })
     decide (s.lpmFind k v6 vrf a = some r)) &&
    (let k : Nat := 0
     let vrf : Nat := 16383
     let a : Nat := 10 * 2 ^ 24 + 5
     let v6 : Bool := false
     let r : Route := ({ v6 := false, vrf := 16383, plen := 8, pfx := 10 * 2 ^ 24, data := 8 } : Route)
     let s : State := base
     let x := ({ v6 := false, vrf := 16383, plen := 0, pfx := 0, data := 9 } : Route)
     let s : State := w_lpm s ({ s.lpm with routes := [({ v6 := false, vrf := 16383, plen := 0, pfx := 0, data := 9 } : Route), ({ v6 := false, vrf := 16383, plen := 8, pfx := 10 * 2 ^ 24, data := 8 } : Route)] })
     decide (s.lpmFind k v6 vrf a = some r ∧ x.v6 = v6 ∧ x.vrf = vrf ∧ x.contains a = true ∧ s.visible x.v false k = true)) &&
    (let k : Nat := 1
     let s : State := base
     decide (s.lookup k .lpm = none)) &&
    (let k : Nat := 1
     let s : State := base
     let l : Lookup := { wks := 3, ctx := 5, reg := 2, kind := .lpm, tid := 1, key := [], vslot := 0, frame := 1, t := 0, iport := 0 }
     let s : State := w_lkp s (List.replicate k l ++ [l])
     decide (s.lookup k .lpm = some l ∧ s.cfgV l.vslot (ctlEn lpmPage) ≠ 1)) &&
    (let k : Nat := 1
     let s : State := base
     let l : Lookup := { wks := 3, ctx := 5, reg := 2, kind := .lpm, tid := 1, key := [], vslot := 0, frame := 1, t := 0, iport := 0 }
     let s : State := w_lkp s (List.replicate k l ++ [l])
     let s : State := s.set (ctlEn lpmPage) (1)
     decide (s.lookup k .lpm = some l ∧ s.cfgV l.vslot (ctlEn lpmPage) = 1 ∧ ((l.key.length ≠ 6 ∧
       l.key.length ≠ 18) ∨ 16384 ≤ beNat (l.key.take 2)))) &&
    (let k : Nat := 1
     let s : State := base
     let l : Lookup := { wks := 3, ctx := 5, reg := 2, kind := .lpm, tid := 1, key := [], vslot := 0, frame := 1, t := 0, iport := 0 }
     let v6 : Bool := true
     let l := { l with key := List.replicate ((if v6 = true then 18 else 6)) 0 }
     let s : State := w_lkp s (List.replicate k l ++ [l])
     let s : State := s.set (ctlEn lpmPage) (1)
     decide (s.lookup k .lpm = some l ∧ s.cfgV l.vslot (ctlEn lpmPage) = 1 ∧ l.key.length = (if v6 = true then 18 else 6) ∧
       beNat (l.key.take 2) < 16384)) &&
    (let k : Nat := 1
     let s : State := base
     let l : Lookup := { wks := 3, ctx := 5, reg := 2, kind := .lpm, tid := 1, key := [], vslot := 0, frame := 1, t := 0, iport := 0 }
     let v6 : Bool := true
     let l := { l with key := List.replicate ((if v6 = true then 18 else 6)) 0 }
     let s : State := w_lkp s (List.replicate k l ++ [l])
     let s : State := s.set (ctlEn lpmPage) (1)
     let s : State := w_lpm s ({ s.lpm with badNodes := [] })
     decide (s.lookup k .lpm = some l ∧ s.cfgV l.vslot (ctlEn lpmPage) = 1 ∧ l.key.length = (if v6 = true then 18 else 6) ∧
       beNat (l.key.take 2) < 16384 ∧ s.lpm.badNodes = [] ∧ s.lpmFind l.vslot v6 (beNat (l.key.take 2)) (beNat (l.key.drop 2)) = none)) &&
    (let k : Nat := 1
     let s : State := base
     let l : Lookup := { wks := 3, ctx := 5, reg := 2, kind := .lpm, tid := 1, key := [], vslot := 0, frame := 1, t := 0, iport := 0 }
     let v6 : Bool := false
     let l := { l with key := [0x3F, 0xFF, 10, 0, 0, 5] }
     let s : State := w_lkp s (List.replicate k l ++ [l])
     let s : State := s.set (ctlEn lpmPage) (1)
     let s : State := w_lpm s ({ s.lpm with badNodes := [] })
     let s : State := w_lpm s ({ s.lpm with routes := [({ v6 := false, vrf := 16383, plen := 0, pfx := 0, data := 9 } : Route), ({ v6 := false, vrf := 16383, plen := 8, pfx := 10 * 2 ^ 24, data := 8 } : Route)] })
     match (s.lpmFind l.vslot v6 (beNat (l.key.take 2)) (beNat (l.key.drop 2))) with
     | none => false
     | some r =>
       decide (s.lookup k .lpm = some l ∧ s.cfgV l.vslot (ctlEn lpmPage) = 1 ∧ l.key.length = (if v6 = true then 18 else 6) ∧
         beNat (l.key.take 2) < 16384 ∧ s.lpm.badNodes = [] ∧ s.lpmFind l.vslot v6 (beNat (l.key.take 2)) (beNat (l.key.drop 2)) = some r)) &&
    (let k : Nat := 1
     let s : State := base
     let l : Lookup := { wks := 3, ctx := 5, reg := 2, kind := .lpm, tid := 1, key := [], vslot := 0, frame := 1, t := 0, iport := 0 }
     let v6 : Bool := false
     let l := { l with key := [0x3F, 0xFF, 10, 0, 0, 5] }
     let s : State := w_lkp s (List.replicate k l ++ [l])
     let s : State := s.set (ctlEn lpmPage) (1)
     let s : State := w_lpm s ({ s.lpm with badNodes := [] })
     let s : State := w_lpm s ({ s.lpm with routes := [({ v6 := false, vrf := 16383, plen := 0, pfx := 0, data := 9 } : Route), ({ v6 := false, vrf := 16383, plen := 8, pfx := 10 * 2 ^ 24, data := 8 } : Route)] })
     match (s.lpmFind l.vslot v6 (beNat (l.key.take 2)) (beNat (l.key.drop 2))) with
     | none => false
     | some r =>
       decide (s.lookup k .lpm = some l ∧ s.cfgV l.vslot (ctlEn lpmPage) = 1 ∧ l.key.length = (if v6 = true then 18 else 6) ∧
         beNat (l.key.take 2) < 16384 ∧ s.lpm.badNodes = [] ∧ s.lpmFind l.vslot v6 (beNat (l.key.take 2)) (beNat (l.key.drop 2)) = some r)) &&
    (let v6 : Bool := true
     let s : State := base
     let s : State := s.set LPM_EXT_CFG_EXT_EN (if (1) = 0 then 1 else 0)
     decide ((s.get LPM_EXT_CFG_EXT_EN ≠ 1 ∨ 100 * s.lpmUse v6 ≤ s.get LPM_EXT_CFG_DEMOTE_PCT * s.lpmCap v6)))) = true := by
  decide +kernel

theorem witness_RoutesFollowTheLongestPrefix_2 :
(
    (let v6 : Bool := true
     let s : State := base
     let c := ({ v6 := true, vrf := 5, top := 7 * 2 ^ 88 / 2 ^ 96 } : Cone)
     let s : State := s.set LPM_EXT_CFG_EXT_EN (1)
     let s : State := w_lpm s ({ s.lpm with routes := [({ v6 := true, vrf := 5, plen := 40, pfx := 7 * 2 ^ 88, data := 8 } : Route)] })
     let s : State := (s.set HBC_REGION_STAT_EXT_U 1).set LPM_CAP_V6_K 0
     let s : State := s.set LPM_EXT_CFG_DEMOTE_PCT 0
     let s : State := w_lpm s ({ s.lpm with cones := [c] })
     decide (s.get LPM_EXT_CFG_EXT_EN = 1 ∧ s.get LPM_EXT_CFG_DEMOTE_PCT * s.lpmCap v6 < 100 * s.lpmUse v6 ∧
       ((∀ d ∈ s.sramCones v6, d ≠ c → c.lastHit < d.lastHit)) ∧ s.extRoom (s.coneSize c) = true)) &&
    (let v6 : Bool := true
     let s : State := base
     decide (((∀ c ∈ s.lpm.cones, c.v6 = v6 → c.demoted = false)))) &&
    (let v6 : Bool := true
     let s : State := base
     let c := ({ v6 := true, vrf := 5, top := 7, demoted := true } : Cone)
     let s : State := s.set LPM_EXT_CFG_EXT_EN (1)
     let s : State := w_lpm s ({ s.lpm with cones := [c] })
     decide (c.v6 = v6 ∧ c.demoted = true ∧ ((∀ d ∈ s.lpm.cones, d ≠ c → d.v6 = v6 → d.demoted = true → s.coneHits d < s.coneHits c)) ∧
       s.get LPM_EXT_CFG_EXT_EN = 1 ∧ 100 * (s.lpmUse v6 + s.coneSize c) ≤ s.get LPM_EXT_CFG_PROMOTE_PCT * s.lpmCap v6)) &&
    (let n : Bool × Nat × Nat × Nat := (false, 0, 0, 0)
     let r : List (Bool × Nat × Nat × Nat) := []
     let s : State := base
     let s : State := w_lpm s ({ s.lpm with badNodes := n :: r })
     decide (s.lpm.badNodes = n :: r)) &&
    (let i : Fin 5 := 1
     let s : State := base
     let s : State := w_lpm s ({ s.lpm with job := some {} })
     decide (s.reaches i LPM_JOB_CMD = true ∧ s.lpm.job.isSome = true)) &&
    (let i : Fin 5 := 1
     let n : BitVec 16 := 1
     let s : State := base
     let s : State := w_lpm s ({ s.lpm with job := none })
     decide (s.reaches i LPM_JOB_CMD = true ∧ s.lpm.job = none ∧ n ≠ 0)) &&
    (let i : Fin 5 := 1
     let s : State := base
     let s : State := w_lpm s ({ s.lpm with job := none })
     decide (s.reaches i LPM_JOB_CMD = true ∧ s.lpm.job = none)) &&
    (let i : Fin 5 := 1
     let s : State := base
     let s : State := w_lpm s ({ s.lpm with job := some {} })
     decide (s.reaches i LPM_JOB_CMD = true ∧ s.lpm.job.isSome = true)) &&
    (let s : State := base
     let s : State := w_lpm s ({ s.lpm with job := none })
     decide (s.lpm.job = none)) &&
    (let j : Job := { count := 9 }
     let r : List Byte := []
     let s : State := base
     let v6 : Bool := bit (byteAt r 1) 0
     let a : Nat := (if v6 = true then beNat (bytesAt r 8 16) else beNat (bytesAt r 8 4))
     let s : State := w_lpm s ({ s.lpm with job := some j })
     decide (s.lpm.job = some j ∧ v6 = bit (byteAt r 1) 0 ∧ a = (if v6 = true then beNat (bytesAt r 8 16) else beNat (bytesAt r 8 4)))) &&
    (let j : Job := { count := 9 }
     let r : List Byte := []
     let s : State := base
     let v6 : Bool := bit (byteAt r 1) 0
     let a : Nat := (if v6 = true then beNat (bytesAt r 8 16) else beNat (bytesAt r 8 4))
     let s : State := w_lpm s ({ s.lpm with job := some j })
     decide (s.lpm.job = some j ∧ v6 = bit (byteAt r 1) 0 ∧ a = (if v6 = true then beNat (bytesAt r 8 16) else beNat (bytesAt r 8 4)) ∧
       lpmBadRec r = true ∧ j.next + 1 < j.count)) &&
    (let j : Job := { count := 9 }
     let r : List Byte := setB (setB (List.replicate 64 0) 8 10) 3 8
     let s : State := base
     let v6 : Bool := bit (byteAt r 1) 0
     let a : Nat := (if v6 = true then beNat (bytesAt r 8 16) else beNat (bytesAt r 8 4))
     let r := setB r 0 (1)
     let j := { j with open0 := true }
     let s : State := w_lpm s ({ s.lpm with job := some j })
     let s : State := s.set (LDG_TXN_STAT_STATE j.init) 1
     decide (s.lpm.job = some j ∧ v6 = bit (byteAt r 1) 0 ∧ a = (if v6 = true then beNat (bytesAt r 8 16) else beNat (bytesAt r 8 4)) ∧
       lpmBadRec r = false ∧ byteAt r 0 = 1 ∧ j.open0 = true ∧ s.txnState j.init = .opened ∧ s.cascadeRefuses j.init = false ∧
       j.next + 1 < j.count ∧ (s.lpm.routes.any fun x => x.isId v6 (leNat (bytesAt r 4 2)) (byteAt r 3) a) = false ∧ s.lpmUse v6 < s.lpmCap v6 ∧
       (s.cone v6 (leNat (bytesAt r 4 2)) (lead v6 (trimPfx v6 a (byteAt r 3)) (coneBits v6))).demoted = false)) &&
    (let j : Job := { count := 9 }
     let r : List Byte := setB (setB (setB (setB (List.replicate 64 0) 8 10) 3 8) 4 255) 5 63
     let s : State := base
     let v6 : Bool := bit (byteAt r 1) 0
     let a : Nat := (if v6 = true then beNat (bytesAt r 8 16) else beNat (bytesAt r 8 4))
     let r := setB r 0 (5)
     let s : State := w_lpm s ({ s.lpm with job := some j })
     let s : State := s.set (LDG_TXN_CTL_READ_STAGED j.init) (0)
     let s : State := w_lpm s ({ s.lpm with routes := [({ v6 := false, vrf := 16383, plen := 0, pfx := 0, data := 9 } : Route), ({ v6 := false, vrf := 16383, plen := 8, pfx := 10 * 2 ^ 24, data := 8 } : Route)] })
     match (s.lpmFind s.newest v6 (leNat (bytesAt r 4 2)) a) with
     | none => false
     | some x =>
       decide (s.lpm.job = some j ∧ v6 = bit (byteAt r 1) 0 ∧ a = (if v6 = true then beNat (bytesAt r 8 16) else beNat (bytesAt r 8 4)) ∧
         lpmBadRec r = false ∧ byteAt r 0 = 5 ∧ s.get (LDG_TXN_CTL_READ_STAGED j.init) = 0 ∧ j.next + 1 < j.count ∧
         s.lpmFind s.newest v6 (leNat (bytesAt r 4 2)) a = some x))) = true := by
  decide +kernel

theorem witness_ObjectsAndGroups_1 :
(
    (let k : Nat := 1
     let s : State := base
     decide (s.lookup k .obj = none)) &&
    (let k : Nat := 1
     let s : State := base
     let l : Lookup := { wks := 3, ctx := 5, reg := 2, kind := .obj, tid := 1, key := [], vslot := 0, frame := 1, t := 0, iport := 0 }
     let part : Nat := bits (beNat l.key) 22 1
     let index : Nat := bits (beNat l.key) 0 22
     let s : State := w_lkp s (List.replicate k l ++ [l])
     decide (s.lookup k .obj = some l ∧ part = bits (beNat l.key) 22 1 ∧ index = bits (beNat l.key) 0 22 ∧
       s.cfgV l.vslot (ctlEn objPage) ≠ 1)) &&
    (let k : Nat := 1
     let s : State := base
     let l : Lookup := { wks := 3, ctx := 5, reg := 2, kind := .obj, tid := 1, key := [], vslot := 0, frame := 1, t := 0, iport := 0 }
     let part : Nat := bits (beNat l.key) 22 1
     let index : Nat := bits (beNat l.key) 0 22
     let s : State := w_lkp s (List.replicate k l ++ [l])
     let s : State := s.set (ctlEn objPage) (1)
     decide (s.lookup k .obj = some l ∧ part = bits (beNat l.key) 22 1 ∧ index = bits (beNat l.key) 0 22 ∧
       s.cfgV l.vslot (ctlEn objPage) = 1 ∧ (l.key.length ≠ 4 ∨ 1 < l.tid ∨ (part = 1 ∧ l.tid = 0) ∨ s.objCapV l.vslot l.tid ≤ index))) &&
    (let k : Nat := 1
     let s : State := base
     let l : Lookup := { wks := 3, ctx := 5, reg := 2, kind := .obj, tid := 1, key := [], vslot := 0, frame := 1, t := 0, iport := 0 }
     let part : Nat := bits (beNat l.key) 22 1
     let index : Nat := bits (beNat l.key) 0 22
     let l := { l with key := List.replicate (4) 0 }
     let s : State := w_lkp s (List.replicate k l ++ [l])
     let s : State := s.set (ctlEn objPage) (1)
     decide (s.lookup k .obj = some l ∧ part = bits (beNat l.key) 22 1 ∧ index = bits (beNat l.key) 0 22 ∧
       s.cfgV l.vslot (ctlEn objPage) = 1 ∧ l.key.length = 4 ∧ l.tid ≤ 1 ∧ beNat l.key < 2 ^ 23 ∧ ¬ (part = 1 ∧ l.tid = 0) ∧
       index < s.objCapV l.vslot l.tid ∧ s.objFind l.vslot l.tid index = none)) &&
    (let k : Nat := 1
     let s : State := base
     let l : Lookup := { wks := 3, ctx := 5, reg := 2, kind := .obj, tid := 1, key := [], vslot := 0, frame := 1, t := 0, iport := 0 }
     let index : Nat := 1
     let c := ({ tid := 1, index := 0, data := [1, 2, 3] } : OCopy)
     let part : Nat := bits (beNat l.key) 22 1
     let index : Nat := bits (beNat l.key) 0 22
     let l := { l with key := List.replicate (4) 0 }
     let s : State := w_lkp s (List.replicate k l ++ [l])
     let s : State := s.set (ctlEn objPage) (1)
     let s : State := w_obj s ({ s.obj with copies := [c] })
     decide (s.lookup k .obj = some l ∧ part = bits (beNat l.key) 22 1 ∧ index = bits (beNat l.key) 0 22 ∧
       s.cfgV l.vslot (ctlEn objPage) = 1 ∧ l.key.length = 4 ∧ l.tid ≤ 1 ∧ beNat l.key < 2 ^ 23 ∧ ¬ (part = 1 ∧ l.tid = 0) ∧
       index < s.objCapV l.vslot l.tid ∧ s.objFind l.vslot l.tid index = some c ∧ c.bad = false)) &&
    (let k : Nat := 1
     let s : State := base
     let l : Lookup := { wks := 3, ctx := 5, reg := 2, kind := .obj, tid := 1, key := [], vslot := 0, frame := 1, t := 0, iport := 0 }
     let index : Nat := 1
     let c := ({ tid := 1, index := 0, data := [1, 2, 3] } : OCopy)
     let part : Nat := bits (beNat l.key) 22 1
     let index : Nat := bits (beNat l.key) 0 22
     let l := { l with key := List.replicate (4) 0 }
     let s : State := w_lkp s (List.replicate k l ++ [l])
     let s : State := s.set (ctlEn objPage) (1)
     let s : State := w_obj s ({ s.obj with copies := [c] })
     decide (s.lookup k .obj = some l ∧ part = bits (beNat l.key) 22 1 ∧ index = bits (beNat l.key) 0 22 ∧
       s.cfgV l.vslot (ctlEn objPage) = 1 ∧ l.key.length = 4 ∧ l.tid ≤ 1 ∧ beNat l.key < 2 ^ 23 ∧ ¬ (part = 1 ∧ l.tid = 0) ∧
       index < s.objCapV l.vslot l.tid ∧ s.objFind l.vslot l.tid index = some c ∧ c.bad = false)) &&
    (let k : Nat := 1
     let s : State := base
     decide (s.lookup k .ecmp = none)) &&
    (let k : Nat := 1
     let s : State := base
     let l : Lookup := { wks := 3, ctx := 5, reg := 2, kind := .ecmp, tid := 1, key := [], vslot := 0, frame := 1, t := 0, iport := 0 }
     let l := { l with key := List.replicate 42 7 }
     let s : State := w_lkp s (List.replicate k l ++ [l])
     let s : State := s.set (ctlEn objPage) (1)
     decide (s.lookup k .ecmp = some l ∧ s.cfgV l.vslot (ctlEn objPage) = 1 ∧ 3 ≤ l.key.length ∧ l.key.length ≤ 42 ∧
       s.objFind l.vslot 2 (beNat (l.key.take 2)) = none)) &&
    (let k : Nat := 1
     let s : State := base
     let l : Lookup := { wks := 3, ctx := 5, reg := 2, kind := .ecmp, tid := 1, key := [], vslot := 0, frame := 1, t := 0, iport := 0 }
     let c : OCopy := { tid := 2, index := 0, logn := 6, buckets := List.replicate 64 (some 5) }
     let m : Word := 5
     let l := { l with key := [0, 0, 7] }
     let c := { c with bad := false }
     let s : State := w_lkp s (List.replicate k l ++ [l])
     let s : State := s.set (ctlEn objPage) (1)
     let s : State := w_obj s ({ s.obj with copies := [c] })
     let h : Word := s.ecmpHash l.vslot (l.key.drop 2)
     decide (s.lookup k .ecmp = some l ∧ s.cfgV l.vslot (ctlEn objPage) = 1 ∧ 3 ≤ l.key.length ∧ l.key.length ≤ 42 ∧
       s.objFind l.vslot 2 (beNat (l.key.take 2)) = some c ∧ c.bad = false ∧ h = s.ecmpHash l.vslot (l.key.drop 2) ∧
       c.buckets[h.toNat / 2 ^ (32 - c.logn)]? = some (some m))) &&
    (let i : Fin 5 := 1
     let s : State := base
     let s : State := w_obj s ({ s.obj with job := some {} })
     decide (s.reaches i OBJ_JOB_CMD = true ∧ s.obj.job.isSome = true)) &&
    (let i : Fin 5 := 1
     let n : BitVec 16 := 1
     let s : State := base
     let s : State := w_obj s ({ s.obj with job := none })
     decide (s.reaches i OBJ_JOB_CMD = true ∧ s.obj.job = none ∧ n ≠ 0)) &&
    (let i : Fin 5 := 1
     let s : State := base
     let s : State := w_obj s ({ s.obj with job := none })
     decide (s.reaches i OBJ_JOB_CMD = true ∧ s.obj.job = none)) &&
    (let i : Fin 5 := 1
     let s : State := base
     let s : State := w_obj s ({ s.obj with job := some {} })
     decide (s.reaches i OBJ_JOB_CMD = true ∧ s.obj.job.isSome = true)) &&
    (let s : State := base
     let s : State := w_obj s ({ s.obj with job := none })
     decide (s.obj.job = none))) = true := by
  decide +kernel

theorem witness_ObjectsAndGroups_2 :
(
    (let j : Job := { count := 9 }
     let r : List Byte := []
     let s : State := base
     let tid : Nat := byteAt r 3
     let index : Nat := leNat (bytesAt r 4 4)
     let s : State := w_obj s ({ s.obj with job := some j })
     decide (s.obj.job = some j ∧ tid = byteAt r 3 ∧ index = leNat (bytesAt r 4 4))) &&
    (let j : Job := { count := 9 }
     let r : List Byte := setB (setB (List.replicate 64 0) 3 3) 0 1
     let tid : Nat := byteAt r 3
     let index : Nat := 0
     let s : State := base
     let s : State := w_obj s ({ s.obj with job := some j })
     decide (s.obj.job = some j ∧ tid = byteAt r 3 ∧ index = leNat (bytesAt r 4 4) ∧ byteAt r 0 = 1 ∧ (tid = 2 ∨ tid = 3))) &&
    (let j : Job := { count := 9 }
     let r : List Byte := []
     let s : State := base
     let tid : Nat := byteAt r 3
     let index : Nat := leNat (bytesAt r 4 4)
     let r := setB r 0 (1)
     let j := { j with open0 := true }
     let s : State := w_obj s ({ s.obj with job := some j })
     let s : State := s.set (LDG_TXN_STAT_STATE j.init) 1
     decide (s.obj.job = some j ∧ tid = byteAt r 3 ∧ index = leNat (bytesAt r 4 4) ∧ s.objBadRec r [] = false ∧ byteAt r 0 = 1 ∧ tid < 2 ∧
       j.open0 = true ∧ s.txnState j.init = .opened ∧ s.cascadeRefuses j.init = false ∧ j.next + 1 < j.count ∧
       (s.obj.copies.any fun c => c.tid == tid && c.index == index) = false)) &&
    (let j : Job := { count := 9 }
     let r : List Byte := []
     let s : State := base
     let tid : Nat := byteAt r 3
     let index : Nat := leNat (bytesAt r 4 4)
     let r := setB r 0 (4)
     let s : State := w_obj s ({ s.obj with job := some j })
     decide (s.obj.job = some j ∧ tid = byteAt r 3 ∧ index = leNat (bytesAt r 4 4) ∧ s.objBadRec r [] = false ∧ byteAt r 0 = 4 ∧
       j.next + 1 < j.count ∧ (s.obj.copies.any fun c => c.tid == tid && c.index == index) = false))) = true := by
  decide +kernel

theorem witness_SearchesAnswerTheirRule_1 :
(
    (let k : Nat := 1
     let s : State := base
     decide (s.lookup k .acs = none)) &&
    (let k : Nat := 1
     let s : State := base
     let l : Lookup := { wks := 3, ctx := 5, reg := 2, kind := .acs, tid := 1, key := [], vslot := 0, frame := 1, t := 0, iport := 0 }
     let s : State := w_lkp s (List.replicate k l ++ [l])
     decide (s.lookup k .acs = some l ∧ s.cfgV l.vslot (ctlEn (acsPage 0)) ≠ 1)) &&
    (let k : Nat := 1
     let s : State := base
     let l : Lookup := { wks := 3, ctx := 5, reg := 2, kind := .acs, tid := 1, key := [], vslot := 0, frame := 1, t := 0, iport := 0 }
     let l := { l with tid := 63, wks := 63, key := List.replicate 19 7 }
     let s : State := ((((s.set (ACS_PROF_EN l.tid) 1).set (ACS_PROF_LIST0 l.tid) 63).set (ACS_PROF_L0_EN l.tid) 1).set (ACS_LIST_CFG_EN 63) 1).set (ACS_LIST_CFG_BLOCKS 63) 2
     let s : State := w_lkp s (List.replicate k l ++ [l])
     let s : State := s.set (ctlEn (acsPage 0)) (1)
     decide (s.lookup k .acs = some l ∧ s.cfgV l.vslot (ctlEn (acsPage 0)) = 1 ∧ l.tid < 64 ∧ s.profOn l.vslot l.tid = true ∧
       l.key.length ≠ 20 * acsG (s.cfgV l.vslot (ACS_PROF_WIDTH l.tid)))) &&
    (let k : Nat := 1
     let n : Nat := 63
     let q : Nat := 3
     let l : Lookup := { wks := 3, ctx := 5, reg := 2, kind := .acs, tid := 1, key := [], vslot := 0, frame := 1, t := 0, iport := 0 }
     let s : State := base
     let l := { l with tid := 63, wks := 63, key := List.replicate 20 7 }
     let s : State := ((((s.set (ACS_PROF_EN l.tid) 1).set (ACS_PROF_LIST0 l.tid) 63).set (ACS_PROF_L0_EN l.tid) 1).set (ACS_LIST_CFG_EN 63) 1).set (ACS_LIST_CFG_BLOCKS 63) 2
     let s : State := w_lkp s (List.replicate k l ++ [l])
     let s : State := s.set (ctlEn (acsPage 0)) (1)
     decide (s.lookup k .acs = some l ∧ q = quarterOf l.wks ∧ s.cfgV l.vslot (ctlEn (acsPage 0)) = 1 ∧ l.tid < 64 ∧ l.wks < 64 ∧
       s.profOn l.vslot l.tid = true ∧ l.key.length = 20 * acsG (s.cfgV l.vslot (ACS_PROF_WIDTH l.tid)) ∧ s.profLists l.vslot l.tid = [n] ∧
       ((∀ c ∈ s.acs.copies, c.list = n → c.verified l.key l.vslot = false)))) &&
    (let k : Nat := 1
     let n : Nat := 63
     let q : Nat := 3
     let l : Lookup := { wks := 3, ctx := 5, reg := 2, kind := .acs, tid := 1, key := [], vslot := 0, frame := 1, t := 0, iport := 0 }
     let s : State := base
     let c := ({ list := 63, pos := 5, copy := 0, value := List.replicate 20 7, mask := List.replicate 20 0xFF, action := 9, smask := 0xFFFF } : ACopy)
     let l := { l with tid := 63, wks := 63, key := List.replicate 20 7 }
     let s : State := ((((s.set (ACS_PROF_EN l.tid) 1).set (ACS_PROF_LIST0 l.tid) 63).set (ACS_PROF_L0_EN l.tid) 1).set (ACS_LIST_CFG_EN 63) 1).set (ACS_LIST_CFG_BLOCKS 63) 2
     let s : State := w_lkp s (List.replicate k l ++ [l])
     let s : State := s.set (ctlEn (acsPage 0)) (1)
     let s : State := w_acs s ({ s.acs with copies := [c] })
     decide (s.lookup k .acs = some l ∧ q = quarterOf l.wks ∧ s.cfgV l.vslot (ctlEn (acsPage 0)) = 1 ∧ l.tid < 64 ∧ l.wks < 64 ∧
       s.profOn l.vslot l.tid = true ∧ l.key.length = 20 * acsG (s.cfgV l.vslot (ACS_PROF_WIDTH l.tid)) ∧ s.profLists l.vslot l.tid = [n] ∧
       s.acs.copies.filter (fun x => x.list == n && x.verified l.key l.vslot) = [c] ∧ c.bad.contains q = false ∧
       ((∀ x ∈ s.acs.copies, x.list = n → x.pos = c.pos → x.copy = c.copy → x = c)) ∧
       (s.enabledBlocks l.vslot n l.key).contains (listBlock (s.listWord l.vslot n) c.pos c.copy) = true)) &&
    (let k : Nat := 1
     let n : Nat := 63
     let q : Nat := 3
     let l : Lookup := { wks := 3, ctx := 5, reg := 2, kind := .acs, tid := 1, key := [], vslot := 0, frame := 1, t := 0, iport := 0 }
     let s : State := base
     let p := 3
     let c := 0
     let l := { l with tid := 63, wks := 63, key := List.replicate 20 7 }
     let s : State := ((((s.set (ACS_PROF_EN l.tid) 1).set (ACS_PROF_LIST0 l.tid) 63).set (ACS_PROF_L0_EN l.tid) 1).set (ACS_LIST_CFG_EN 63) 1).set (ACS_LIST_CFG_BLOCKS 63) 2
     let s : State := w_lkp s (List.replicate k l ++ [l])
     let s : State := s.set (ctlEn (acsPage 0)) (1)
     decide (s.lookup k .acs = some l ∧ q = quarterOf l.wks ∧ s.cfgV l.vslot (ctlEn (acsPage 0)) = 1 ∧ l.tid < 64 ∧ l.wks < 64 ∧
       s.profOn l.vslot l.tid = true ∧ l.key.length = 20 * acsG (s.cfgV l.vslot (ACS_PROF_WIDTH l.tid)) ∧ s.profLists l.vslot l.tid = [n] ∧
       ((∀ x ∈ s.acs.copies, x.list = n → x.verified l.key l.vslot = false)) ∧ p < listPositions (s.listWord l.vslot n) ∧
       (s.enabledBlocks l.vslot n l.key).contains (listBlock (s.listWord l.vslot n) p c) = true)) &&
    (let q : Fin 4 := 3
     let s : State := base
     decide ((∀ r ∈ s.acs.rewrites, r.1.inst ≠ q))) &&
    (let q : Fin 4 := 3
     let s : State := base
     let r : AGroup × Bool := (⟨0, 1, 0, 0⟩, false)
     let rs : List (AGroup × Bool) := []
     let r := { r with 1 := { r.1 with inst := q } }
     let s : State := w_acs s ({ s.acs with rewrites := r :: rs })
     decide (s.acs.rewrites = r :: rs ∧ r.1.inst = q)) &&
    (let s : State := base
     let s : State := s.set ACS_SCRUB_CFG_EN (if (1) = 0 then 1 else 0)
     decide (s.get ACS_SCRUB_CFG_EN ≠ 1)) &&
    (let s : State := base
     let s : State := s.set ACS_SCRUB_CFG_EN (1)
     decide (s.get ACS_SCRUB_CFG_EN = 1)) &&
    (let s : State := base
     let s : State := s.set ACS_SCRUB_CFG_EN (1)
     decide (s.get ACS_SCRUB_CFG_EN = 1)) &&
    (let s : State := base
     let s : State := w_acs s ({ s.acs with stale := [] })
     decide (s.acs.stale = [])) &&
    (let s : State := base
     let i := (9 : Nat)
     let r := (s.acs.stale).tail
     let s : State := w_acs s ({ s.acs with stale := i :: r })
     match (s.acs.stale) with
     | [] => false
     | i :: _ =>
       let r := (s.acs.stale).tail
       decide (s.acs.stale = i :: r)) &&
    (let s : State := base
     decide ((∀ c ∈ s.acs.copies, c.bad = [])))) = true := by
  decide +kernel

theorem witness_SearchesAnswerTheirRule_2 :
(
    (let s : State := base
     let c := ({ list := 63, pos := 5, copy := 0, value := List.replicate 20 7, mask := List.replicate 20 0xFF, action := 9, bad := [0, 3], smask := 0xFFFF } : ACopy)
     let s : State := w_acs s ({ s.acs with copies := [c] })
     decide (s.acs.copies.filter (fun c => !c.bad.isEmpty) = [c] ∧ (List.range 4).any (fun q => !c.bad.contains q) = true)) &&
    (let s : State := base
     let c := ({ list := 63, pos := 5, copy := 0, value := List.replicate 20 7, mask := List.replicate 20 0xFF, action := 9, bad := [0, 1, 2, 3], smask := 0xFFFF } : ACopy)
     let s : State := w_acs s ({ s.acs with copies := [c] })
     decide (s.acs.copies.filter (fun c => !c.bad.isEmpty) = [c] ∧ (List.range 4).all (fun q => c.bad.contains q) = true)) &&
    (let i : Fin 5 := 1
     let s : State := base
     let s : State := w_acs s ({ s.acs with job := some {} })
     decide (s.reaches i ACS_JOB_CMD = true ∧ s.acs.job.isSome = true)) &&
    (let i : Fin 5 := 1
     let n : BitVec 16 := 1
     let s : State := base
     let s : State := w_acs s ({ s.acs with job := none })
     decide (s.reaches i ACS_JOB_CMD = true ∧ s.acs.job = none ∧ n ≠ 0)) &&
    (let i : Fin 5 := 1
     let s : State := base
     let s : State := w_acs s ({ s.acs with job := none })
     decide (s.reaches i ACS_JOB_CMD = true ∧ s.acs.job = none)) &&
    (let i : Fin 5 := 1
     let s : State := base
     let s : State := w_acs s ({ s.acs with job := some {} })
     decide (s.reaches i ACS_JOB_CMD = true ∧ s.acs.job.isSome = true)) &&
    (let s : State := base
     let s : State := w_acs s ({ s.acs with job := none })
     decide (s.acs.job = none)) &&
    (let j : Job := { count := 9 }
     let r : List Byte := []
     let s : State := base
     let l : Nat := byteAt r 3
     let p : Nat := leNat (bytesAt r 4 4)
     let s : State := w_acs s ({ s.acs with job := some j })
     decide (s.acs.job = some j ∧ l = byteAt r 3 ∧ p = leNat (bytesAt r 4 4))) &&
    (let j : Job := { count := 9 }
     let r : List Byte := setB (setB (List.replicate 256 0) 3 63) 4 5
     let s : State := base
     let l : Nat := byteAt r 3
     let p : Nat := leNat (bytesAt r 4 4)
     let r := setB r 0 (1)
     let j := { j with open0 := true }
     let s : State := w_acs s ({ s.acs with job := some j })
     let s : State := s.set (LDG_TXN_STAT_STATE j.init) 1
     let s : State := (((s.set (ACS_LIST_CFG_EN 63) 1).set (ACS_LIST_CFG_BLOCKS 63) 2))
     decide (s.acs.job = some j ∧ l = byteAt r 3 ∧ p = leNat (bytesAt r 4 4) ∧ s.acsBadRec r = false ∧ byteAt r 0 = 1 ∧ j.open0 = true ∧
       s.txnState j.init = .opened ∧ s.cascadeRefuses j.init = false ∧ j.next + 1 < j.count ∧
       (s.acs.copies.any fun c => c.list == l && c.pos == p) = false)) &&
    (let j : Job := { count := 9 }
     let r : List Byte := setB (setB (List.replicate 256 0) 3 63) 4 5
     let s : State := base
     let l : Nat := byteAt r 3
     let p : Nat := leNat (bytesAt r 4 4)
     let r := setB r 0 (3)
     let j := { j with open0 := true }
     let s : State := w_acs s ({ s.acs with job := some j })
     let s : State := s.set (LDG_TXN_STAT_STATE j.init) 1
     let s : State := (((s.set (ACS_LIST_CFG_EN 63) 1).set (ACS_LIST_CFG_BLOCKS 63) 2))
     decide (s.acs.job = some j ∧ l = byteAt r 3 ∧ p = leNat (bytesAt r 4 4) ∧ s.acsBadRec r = false ∧ byteAt r 0 = 3 ∧ j.open0 = true ∧
       s.txnState j.init = .opened ∧ s.cascadeRefuses j.init = false ∧ j.next + 1 < j.count ∧
       (s.acs.copies.any fun c => c.list == l && c.pos == p) = false))) = true := by
  decide +kernel

theorem witness_BuffersAreGrantedAndAudited :
(
    (let p : Fin 8 := 7
     let s : State := base
     let s : State := s.set BUF_STAT_INIT (0)
     decide ((s.get BUF_STAT_INIT = 0 ∨ s.winner p = none))) &&
    (let p : Fin 8 := 7
     let s : State := base
     let s : State := s.set BUF_STAT_INIT (1)
     let s : State := w_buf s ({ s.buf with reqs := [⟨15, 4, 16000, false⟩] })
     let s : State := s.set (BUF_POOL_FREE_FREE 7) 0
     let s : State := updFrame s (4) (fun f0 => { f0 with stage := .waitBuf })
     match (s.winner p) with
     | none => false
     | some q =>
       decide (s.get BUF_STAT_INIT = 1 ∧ s.winner p = some q ∧ s.poolFree p = 0)) &&
    (let p : Fin 8 := 7
     let s : State := base
     let q := (⟨15, 4, 16000, false⟩ : BufReq)
     let s : State := s.set BUF_STAT_INIT (1)
     let s : State := updFrame s (q.frame) (fun f0 => { f0 with stamped := false })
     let s : State := w_buf s ({ s.buf with reqs := [⟨15, 4, 16000, false⟩] })
     let s : State := s.set (BUF_POOL_FREE_FREE 7) 1
     let s : State := updFrame s (4) (fun f0 => { f0 with stage := .waitBuf })
     let s : State := (s.set (SYS_OVL_SHED_THR_THR_LO 0) 5)
     decide (s.get BUF_STAT_INIT = 1 ∧ s.winner p = some q ∧ s.poolFree p ≠ 0 ∧ s.headRefusal q = none ∧ q.requester < 16 ∧
       (s.frame q.frame).stamped = false)) &&
    (let p : Fin 8 := 7
     let s : State := base
     let q := (⟨15, 4, 16000, false⟩ : BufReq)
     let s : State := s.set BUF_STAT_INIT (1)
     let s : State := updFrame s (q.frame) (fun f0 => { f0 with stage := .waitBuf })
     let s : State := updFrame s (q.frame) (fun f0 => { f0 with reason := 0 })
     let s : State := w_buf s ({ s.buf with reqs := [⟨15, 4, 16000, false⟩] })
     let s : State := s.set (BUF_POOL_FREE_FREE 7) 1
     let s : State := updFrame s (4) (fun f0 => { f0 with stage := .waitBuf })
     let s : State := w_prt s ({ s.prt with hq := [(0, List.replicate 1024 9)] })
     decide (s.get BUF_STAT_INIT = 1 ∧ s.winner p = some q ∧ s.poolFree p ≠ 0 ∧ s.headRefusal q = some 0x06 ∧ q.requester < 16 ∧
       (s.frame q.frame).stage = .waitBuf ∧ (s.frame q.frame).reason = 0)) &&
    (let s : State := base
     let s : State := w_buf s ({ s.buf with fixed := false })
     decide ((s.buf.fixed = false ∨ s.get BUF_STAT_INIT = 1))) &&
    (let s : State := base
     let s : State := w_buf s ({ s.buf with fixed := true })
     let s : State := s.set BUF_STAT_INIT (0)
     decide (s.buf.fixed = true ∧ s.get BUF_STAT_INIT = 0)) &&
    (let f : Nat := 1
     let s : State := base
     decide ((s.frame f).spill ≠ .writing)) &&
    (let f : Nat := 1
     let s : State := base
     let h := (7, 3)
     let u := ({} : BufUnit)
     let s : State := updFrame s (f) (fun f0 => { f0 with spill := .writing })
     let s : State := updFrame s (f) (fun f0 => { f0 with buf := some h })
     let s : State := updFrame s (f) (fun f0 => { f0 with buf := some h })
     let s : State := w_buf s ({ s.buf with units := [(handle 7 3, some {})] })
     decide ((s.frame f).spill = .writing ∧ (s.frame f).buf = some h ∧ s.unit (handle h.1 h.2) = some u ∧ u.copies ≤ 1)) &&
    (let v : Fin 131072 := 131071
     let s : State := base
     decide ((∀ id ∈ s.voqQ v, (s.frame id).spill ≠ .writing ∧ (s.frame id).spill ≠ .spilled))) &&
    (let v : Fin 131072 := 0
     let s : State := base
     let id := 4
     let r := [5]
     let s : State := w_voq s ({ s.voq with q := Tbl.set (fun _ => []) s.voq.q v (id :: r) })
     let s : State := updFrame s (id) (fun f0 => { f0 with spill := .spilled })
     let s : State := (List.range 6).foldl (fun s h => (s.set (HBC_STAT_STATE h) 3).set (ctlEn (0xC0000 + 0x1000 * h)) 1) s
     decide (s.voqQ v = id :: r ∧ (s.frame id).spill = .spilled ∧ s.stacksUp = true)) &&
    (let s : State := base
     let s : State := s.set BUF_AUDIT_CFG_EN (0)
     decide (s.get BUF_AUDIT_CFG_EN = 0)) &&
    (let s : State := base
     let h : Nat := 1
     let x : BufUnit := {}
     let r : Tbl (Option BufUnit) := []
     let x := { x with eq := true }
     let s : State := s.set BUF_AUDIT_CFG_EN (1)
     let s : State := w_buf s ({ s.buf with units := (h, some x) :: r })
     decide (s.get BUF_AUDIT_CFG_EN = 1 ∧ s.buf.units = (h, some x) :: r ∧ s.buf.tallyAt ≤ h ∧ (x.eq = true ∨ s.leaked x.stamp = false))) &&
    (let s : State := base
     let h : Nat := 1
     let x : BufUnit := {}
     let r : Tbl (Option BufUnit) := []
     let x := { x with eq := false }
     let s : State := s.set BUF_AUDIT_CFG_EN (1)
     let s : State := w_buf s ({ s.buf with units := (h, some x) :: r })
     let s : State := s.set (BUF_AUDIT_STAT_EPOCH) (4095)
     let s : State := s.set (VOQ_AGE_AGE_MS) (1)
     decide (s.get BUF_AUDIT_CFG_EN = 1 ∧ s.buf.units = (h, some x) :: r ∧ s.buf.tallyAt ≤ h ∧ x.eq = false ∧ s.leaked x.stamp = true)) &&
    (let s : State := base
     let s : State := s.set BUF_AUDIT_CFG_EN (1)
     let s : State := w_buf s ({ s.buf with units := [] })
     let s : State := w_buf s ({ s.buf with blks := [] })
     decide (s.get BUF_AUDIT_CFG_EN = 1 ∧ s.buf.units = [] ∧ s.buf.blks = []))) = true := by
  decide +kernel

theorem witness_VirtualOutputQueuesFollowTheRules_1 :
(
    (let s : State := base
     let s : State := w_voq s ({ s.voq with enqQ := [] })
     decide (s.voq.enqQ = [])) &&
    (let id : Nat := 1
     let r : List Nat := []
     let s : State := base
     let s : State := w_voq s ({ s.voq with enqQ := id :: r })
     let s : State := updFrame s (id) (fun f0 => { f0 with reason := 0 })
     let s : State := updFrame s (id) (fun f0 => { f0 with fcs := some false })
     let s : State := updFrame s (id) (fun f0 => { f0 with stage := .voq })
     decide (s.voq.enqQ = id :: r ∧ (s.frame id).stage ≠ .done ∧ (s.frame id).reason = 0 ∧ (s.frame id).fcs = some false)) &&
    (let id : Nat := 1
     let r : List Nat := []
     let s : State := base
     let s : State := w_voq s ({ s.voq with enqQ := id :: r })
     let s : State := updFrame s (id) (fun f0 => { f0 with reason := 0 })
     let s : State := s.set (ctlEn voqPage) (1)
     let s : State := updFrame s (id) (fun f0 => { f0 with mcast := false })
     let s : State := updFrame s (id) (fun f0 => { f0 with stage := .voq })
     decide (s.voq.enqQ = id :: r ∧ (s.frame id).stage ≠ .done ∧ (s.frame id).reason = 0 ∧ (s.frame id).fcs ≠ some false ∧
       s.cfg (ctlEn voqPage) = 1 ∧ (s.frame id).mcast = false ∧ (s.frame id).voqid < mcBase ∧ s.voqDest (s.frame id).voqid = none)) &&
    (let id : Nat := 1
     let r : List Nat := []
     let s : State := base
     let s : State := w_voq s ({ s.voq with enqQ := id :: r })
     let s : State := updFrame s (id) (fun f0 => { f0 with reason := 0 })
     let s : State := s.set (ctlEn voqPage) (1)
     let s : State := updFrame s (id) (fun f0 => { f0 with mcast := false })
     let s : State := updFrame s (id) (fun f0 => { f0 with stage := .voq, ended := true, bytes := List.replicate 64 0 })
     let s : State := w_voq s ({ s.voq with dest := [(0, 0x80002800)] })
     let s : State := s.set (VOQ_PROF_LIM_LIM 0 0) 0
     match (s.voqDest (s.frame id).voqid) with
     | none => false
     | some d =>
       decide (s.voq.enqQ = id :: r ∧ (s.frame id).stage ≠ .done ∧ (s.frame id).reason = 0 ∧ (s.frame id).fcs ≠ some false ∧
         s.cfg (ctlEn voqPage) = 1 ∧ (s.frame id).mcast = false ∧ (s.frame id).voqid < mcBase ∧ s.voqDest (s.frame id).voqid = some d ∧
         s.admits (s.frame id).voqid d.prof (s.frame id) = false)) &&
    (let id : Nat := 1
     let r : List Nat := []
     let s : State := base
     let s : State := w_voq s ({ s.voq with enqQ := id :: r })
     let s : State := updFrame s (id) (fun f0 => { f0 with reason := 0 })
     let s : State := s.set (ctlEn voqPage) (1)
     let s : State := updFrame s (id) (fun f0 => { f0 with mcast := false })
     let s : State := updFrame s (id) (fun f0 => { f0 with stage := .voq, ended := true, bytes := List.replicate 64 0 })
     let s : State := w_voq s ({ s.voq with dest := [(0, 0x80002800)] })
     let s : State := s.set (VOQ_PROF_LIM_LIM 0 0) 9
     match (s.voqDest (s.frame id).voqid) with
     | none => false
     | some d =>
       decide (s.voq.enqQ = id :: r ∧ (s.frame id).stage ≠ .done ∧ (s.frame id).reason = 0 ∧ (s.frame id).fcs ≠ some false ∧
         s.cfg (ctlEn voqPage) = 1 ∧ (s.frame id).mcast = false ∧ (s.frame id).voqid < mcBase ∧ s.voqDest (s.frame id).voqid = some d ∧
         s.admits (s.frame id).voqid d.prof (s.frame id) = true ∧ s.wouldSpill (s.frame id).voqid id = false)) &&
    (let v : Fin 131072 := 131071
     let s : State := base
     let s : State := w_voq s ({ s.voq with q := Tbl.set (fun _ => []) s.voq.q v ([]) })
     decide ((s.voqQ v = [] ∨ s.voqDest v = none ∨ s.balance v ≤ 0))) &&
    (let v : Fin 131072 := 0
     let s : State := base
     let id := 4
     let r := [5]
     let s : State := w_voq s ({ s.voq with q := Tbl.set (fun _ => []) s.voq.q v (id :: r) })
     let s : State := updFrame s (id) (fun f0 => { f0 with spill := .none })
     let s : State := updFrame s (id) (fun f0 => { f0 with ended := true })
     let s : State := s.set (LDG_SLOT_STAT_GEN (s.frame id).vslot) (if ((s.frame id).gen) = 0 then 1 else 0)
     let s : State := updFrame s (id) (fun f0 => { f0 with stage := .voq })
     let s : State := updFrame s (id) (fun f0 => { f0 with reason := 0 })
     let s : State := w_voq s ({ s.voq with q := [(0, [4, 5])], bal := [(0, 7)], dest := [(0, 0x80002800)] })
     let s : State := updFrame s (4) (fun f0 => { f0 with stage := .voq, spill := .none, ended := true, bytes := List.replicate 64 7, gen := 0 })
     let s : State := s.set (LDG_SLOT_STAT_GEN 0) 1
     let s : State := s.set VOQ_AGE_AGE_MS 1000
     match (s.voqDest v) with
     | none => false
     | some d =>
       decide (s.voqQ v = id :: r ∧ s.voqDest v = some d ∧ 0 < s.balance v ∧ (s.frame id).spill = .none ∧ (s.frame id).ended = true ∧
         s.egressRoom (s.frame id) d id = true ∧ ((d.dev = s.ownDev ∨ s.transitFull = false)) ∧
         s.get (LDG_SLOT_STAT_GEN (s.frame id).vslot) ≠ (s.frame id).gen ∧ (s.frame id).stage = .voq ∧ (s.frame id).reason = 0)) &&
    (let v : Fin 131072 := 0
     let s : State := base
     let id := 4
     let r := [5]
     let s : State := w_voq s ({ s.voq with q := Tbl.set (fun _ => []) s.voq.q v (id :: r) })
     let s : State := updFrame s (id) (fun f0 => { f0 with spill := .none })
     let s : State := updFrame s (id) (fun f0 => { f0 with ended := true })
     let s : State := w_voq s ({ s.voq with q := [(0, [4, 5])], bal := [(0, 7)], dest := [(0, 0x80002805)] })
     let s : State := updFrame s (4) (fun f0 => { f0 with stage := .voq, spill := .none, ended := true, bytes := List.replicate 64 7, gen := 0 })
     let s : State := s.set VOQ_AGE_AGE_MS 1000
     match (s.voqDest v) with
     | none => false
     | some d =>
       decide (s.voqQ v = id :: r ∧ s.voqDest v = some d ∧ 0 < s.balance v ∧ (s.frame id).spill = .none ∧ (s.frame id).ended = true ∧
         s.egressRoom (s.frame id) d id = true ∧ ((d.dev = s.ownDev ∨ s.transitFull = false)) ∧ s.discardReason (s.frame id) d = none ∧
         (s.frame id).fcs ≠ some false ∧ d.dev ≠ s.ownDev)) &&
    (let v : Fin 131072 := 0
     let s : State := base
     let id := 4
     let r := [5]
     let s : State := w_voq s ({ s.voq with q := Tbl.set (fun _ => []) s.voq.q v (id :: r) })
     let s : State := updFrame s (id) (fun f0 => { f0 with spill := .none })
     let s : State := updFrame s (id) (fun f0 => { f0 with ended := true })
     let s : State := updFrame s (id) (fun f0 => { f0 with mcast := false })
     let s : State := w_voq s ({ s.voq with q := [(0, [4, 5])], bal := [(0, 7)], dest := [(0, 0x80002800)] })
     let s : State := updFrame s (4) (fun f0 => { f0 with stage := .voq, spill := .none, ended := true, bytes := List.replicate 64 7, gen := 0 })
     let s : State := s.set VOQ_AGE_AGE_MS 1000
     match (s.voqDest v) with
     | none => false
     | some d =>
       decide (s.voqQ v = id :: r ∧ s.voqDest v = some d ∧ 0 < s.balance v ∧ (s.frame id).spill = .none ∧ (s.frame id).ended = true ∧
         s.egressRoom (s.frame id) d id = true ∧ ((d.dev = s.ownDev ∨ s.transitFull = false)) ∧ s.discardReason (s.frame id) d = none ∧
         (s.frame id).fcs ≠ some false ∧ d.dev = s.ownDev ∧ (s.frame id).mcast = false)) &&
    (let v : Fin 131072 := 131071
     let s : State := base
     let s : State := w_voq s ({ s.voq with q := Tbl.set (fun _ => []) s.voq.q v ([]) })
     decide (s.voqQ v = [])) &&
    (let v : Fin 131072 := 131071
     let s : State := base
     let id := (5 : Nat)
     let r := (s.voqQ v).tail
     let s : State := w_voq s ({ s.voq with q := Tbl.set (fun _ => []) s.voq.q v (id :: r) })
     match (s.voqQ v) with
     | [] => false
     | id :: _ =>
       let r := (s.voqQ v).tail
       decide (s.voqQ v = id :: r ∧ s.ageUs (s.frame id) ≤ s.ageLimit)) &&
    (let v : Fin 131072 := 7
     let s : State := base
     let id := 4
     let i := 5
     let r := [6]
     let s : State := w_voq s ({ s.voq with q := Tbl.set (fun _ => []) s.voq.q v (id :: i :: r) })
     let s : State := updFrame s (id) (fun f0 => { f0 with stage := .voq })
     let s : State := updFrame s (id) (fun f0 => { f0 with reason := 0 })
     let s : State := updFrame s (4) (fun f0 => { f0 with etime := 2 ^ 22 - 5000 })
     let s : State := s.set (VOQ_AGE_AGE_MS) (1)
     let s : State := updFrame s (5) (fun f0 => { f0 with etime := 0 })
     decide (s.voqQ v = id :: i :: r ∧ s.ageLimit < s.ageUs (s.frame id) ∧ s.ageUs (s.frame i) ≤ s.ageLimit ∧ (s.frame id).stage = .voq ∧
       (s.frame id).reason = 0)) &&
    (let i : Fin 5 := 1
     let s : State := base
     let s : State := s.set VOQ_MAP_SEL_TBL (0)
     let s : State := s.set (VOQ_MAP_SEL_INDEX) (2 ^ 17 - 1)
     let d : Nat := s.get VOQ_MAP_SEL_INDEX
     let w : Word := s.rd VOQ_MAP_DATA &&& 0x81FFFFFF
     decide (s.reaches i VOQ_MAP_CMD = true ∧ s.get VOQ_MAP_SEL_TBL = 0 ∧ d = s.get VOQ_MAP_SEL_INDEX ∧ w = s.rd VOQ_MAP_DATA &&& 0x81FFFFFF ∧
       mcBase / s.qpd ≤ d)) &&
    (let i : Fin 5 := 1
     let s : State := base
     let s : State := s.set VOQ_MAP_SEL_TBL (0)
     let d : Nat := s.get VOQ_MAP_SEL_INDEX
     let w : Word := s.rd VOQ_MAP_DATA &&& 0x81FFFFFF
     decide (s.reaches i VOQ_MAP_CMD = true ∧ s.get VOQ_MAP_SEL_TBL = 0 ∧ d = s.get VOQ_MAP_SEL_INDEX ∧ w = s.rd VOQ_MAP_DATA &&& 0x81FFFFFF ∧
       d < mcBase / s.qpd))) = true := by
  decide +kernel

theorem witness_VirtualOutputQueuesFollowTheRules_2 :
(
    (let i : Fin 5 := 1
     let s : State := base
     let s : State := s.set VOQ_MAP_SEL_TBL (0)
     let s : State := s.set (VOQ_MAP_SEL_INDEX) (5)
     let s : State := s.wr VOQ_MAP_DATA 0x80000001
     let s : State := w_voq s ({ s.voq with q := [(8 * 5 + 7, [1])] })
     let d : Nat := s.get VOQ_MAP_SEL_INDEX
     let w : Word := s.rd VOQ_MAP_DATA &&& 0x81FFFFFF
     decide (s.reaches i VOQ_MAP_CMD = true ∧ s.get VOQ_MAP_SEL_TBL = 0 ∧ d = s.get VOQ_MAP_SEL_INDEX ∧ w = s.rd VOQ_MAP_DATA &&& 0x81FFFFFF ∧
       d < mcBase / s.qpd ∧ (s.descr d ^^^ w) &&& 0x800FFFFF ≠ 0 ∧ (∃ n, n < s.qpd ∧ s.voqQ (d * s.qpd + n) ≠ []))) &&
    (let i : Fin 5 := 1
     let s : State := base
     let s : State := s.set VOQ_MAP_SEL_TBL (0)
     let d : Nat := s.get VOQ_MAP_SEL_INDEX
     let w : Word := s.rd VOQ_MAP_DATA &&& 0x81FFFFFF
     decide (s.reaches i VOQ_MAP_CMD = true ∧ s.get VOQ_MAP_SEL_TBL = 0 ∧ d = s.get VOQ_MAP_SEL_INDEX ∧ w = s.rd VOQ_MAP_DATA &&& 0x81FFFFFF ∧
       d < mcBase / s.qpd ∧ ((∀ n, n < s.qpd → s.voqQ (d * s.qpd + n) = [])) ∧
       ((∀ p ∈ s.voq.dest, p.1 ≠ d → entryValid p.2 = true → p.2 &&& 0xFFFFF ≠ w &&& 0xFFFFF))))) = true := by
  decide +kernel

theorem witness_StacksServeAndRefresh_1 :
(
    (let h : Fin 6 := 5
     let s : State := base
     let s : State := w_hbc s ({ s.hbc with q := Tbl.set (fun _ => []) s.hbc.q h ([]) })
     decide (s.hq h = [])) &&
    (let h : Fin 6 := 5
     let s : State := base
     let s : State := w_hbc s ({ s.hbc with q := Tbl.set (fun _ => []) s.hbc.q h ([]) })
     decide (s.hAvail h = false ∧ s.hq h = [])) &&
    (let h : Fin 6 := 5
     let s : State := base
     let s : State := w_hbc s ({ s.hbc with q := [(5, [({ cls := .p, addr := 0xFFFFF, } : HReq), ({ cls := .x, addr := 0xFFFFF, write := some [1] } : HReq)])] })
     let s : State := s.set (HBC_ARB_X_RES h) (1)
     match ((s.hq h).find? (fun q => q.cls == .x)) with
     | none => false
     | some r =>
       decide ((s.hq h).find? (fun q => q.cls == .x) = some r ∧ s.hServed h .x < s.cfg (HBC_ARB_X_RES h))) &&
    (let h : Fin 6 := 5
     let s : State := base
     let s : State := w_hbc s ({ s.hbc with q := [(5, [({ cls := .x, addr := 0xFFFFF, write := none } : HReq), ({ cls := .p, addr := 0xFFFFF, write := some [1] } : HReq)])] })
     let s : State := s.set (HBC_ARB_X_RES h) (0)
     match ((s.hq h).find? (fun q => q.cls == .p)) with
     | none => false
     | some r =>
       decide ((s.hq h).find? (fun q => q.cls == .p) = some r ∧ ((∀ q ∈ s.hq h, q.cls = .p ∨ q.cls = .x)) ∧
         s.cfg (HBC_ARB_X_RES h) ≤ s.hServed h .x)) &&
    (let h : Fin 6 := 5
     let s : State := base
     let r := ({ cls := .p, addr := 0xFFFFF, write := some [1] } : HReq)
     let d := [1]
     let s : State := w_hbc s ({ s.hbc with q := Tbl.set (fun _ => []) s.hbc.q h ([r]) })
     decide (s.hq h = [r] ∧ r.cls = .p ∧ r.parity = 0 ∧ r.write = some d ∧ d.length ≤ 256 - r.addr % 256)) &&
    (let h : Fin 6 := 5
     let s : State := base
     let r := ({ cls := .c, addr := 0xFFFFF, ecc := .corrected } : HReq)
     let s : State := w_hbc s ({ s.hbc with q := Tbl.set (fun _ => []) s.hbc.q h ([r]) })
     decide (s.hq h = [r] ∧ r.parity = 0 ∧ r.write = none ∧ r.cls ≠ .x ∧ ((r.cls = .d → s.hServed h .d < s.cfg (HBC_ARB_D_MAX h))) ∧
       r.addr < hbmEnd ∧ r.ecc = .corrected)) &&
    (let h : Fin 6 := 5
     let s : State := base
     let r := ({ cls := .c, addr := 0xFFFFF, ecc := .uncorrectable } : HReq)
     let s : State := w_hbc s ({ s.hbc with q := Tbl.set (fun _ => []) s.hbc.q h ([r]) })
     decide (s.hq h = [r] ∧ r.parity = 0 ∧ r.write = none ∧ r.cls ≠ .x ∧ ((r.cls = .d → s.hServed h .d < s.cfg (HBC_ARB_D_MAX h))) ∧
       r.addr < hbmEnd ∧ r.ecc = .uncorrectable)) &&
    (let h : Fin 6 := 5
     let p : Fin 64 := 63
     let b : Fin 48 := 47
     let s : State := base
     let s : State := w_hbc s ({ s.hbc with q := [(5, [{ cls := .c, addr := 256 * (6 * (64 * 47 + 63) + 5) }])] })
     decide ((∃ r ∈ s.hq h, hbmPc r.addr = p ∧ hbmBank r.addr = b))) &&
    (let h : Fin 6 := 5
     let p : Fin 64 := 63
     let b : Fin 48 := 47
     let s : State := base
     decide ((∀ r ∈ s.hq h, ¬ (hbmPc r.addr = p ∧ hbmBank r.addr = b)))) &&
    (let h : Fin 6 := 5
     let s : State := base
     decide (s.hRefreshes h = false)) &&
    (let h : Fin 6 := 5
     let s : State := base
     decide (s.hRefreshes h = false)) &&
    (let h : Fin 6 := 5
     let p : Fin 64 := 63
     let s : State := base
     let s : State := (s.set (HBC_STAT_STATE h) 3)
     decide (s.hRefreshes h = true ∧ (s.hpc h p).debt < s.postpone h)) &&
    (let h : Fin 6 := 5
     let p : Fin 64 := 63
     let s : State := base
     let s : State := (s.set (HBC_STAT_STATE h) 3)
     let s : State := w_hbc s { s.hbc with pc := Tbl.set (fun _ => {}) s.hbc.pc (64 * h + p) { s.hpc h p with debt := 99 } }
     decide (s.hRefreshes h = true ∧ s.postpone h ≤ (s.hpc h p).debt)) &&
    (let h : Fin 6 := 5
     let p : Fin 64 := 63
     let s : State := base
     let s : State := w_hbc s ({ s.hbc with pc := Tbl.set (fun _ => {}) s.hbc.pc (64 * h + p) { s.hpc h p with pd := false } })
     let s : State := w_hbc s ({ s.hbc with pc := Tbl.set (fun _ => {}) s.hbc.pc (64 * h + p) { s.hpc h p with debt := 1 } })
     let s : State := (s.set (HBC_STAT_STATE h) 3)
     decide (s.hRefreshes h = true ∧ s.hqueued h p = false ∧ (s.hpc h p).pd = false ∧ (s.hpc h p).debt ≠ 0))) = true := by
  decide +kernel

theorem witness_StacksServeAndRefresh_2 :
(
    (let h : Fin 6 := 5
     let p : Fin 64 := 63
     let s : State := base
     let s : State := s.set (HBC_CFG_PD_EN h) (0)
     decide ((s.cfg (HBC_CFG_PD_EN h) = 0 ∨ s.hqueued h p = true))) &&
    (let h : Fin 6 := 5
     let p : Fin 64 := 63
     let s : State := base
     let s : State := s.set (HBC_CFG_PD_EN h) (1)
     let s : State := (s.set (HBC_STAT_STATE h) 3)
     decide (s.cfg (HBC_CFG_PD_EN h) = 1 ∧ s.hRefreshes h = true ∧ s.hqueued h p = false ∧
       max 1 (s.cfg (HBC_CFG_PD_TIMER h)) * 10 ≤ s.now - (s.hpc h p).last)) &&
    (let h : Fin 6 := 5
     let s : State := base
     decide (s.hState h ≠ 3)) &&
    (let h : Fin 6 := 5
     let s : State := base
     let s : State := s.set (HBC_STAT_STATE h) (3)
     decide (s.hState h = 3 ∧ 100000000 ≤ s.now - Tbl.get (fun _ => 0) s.hbc.eyeAt h.val)) &&
    (let h : Fin 6 := 5
     let s : State := base
     let s : State := s.set (HBC_SCRUB_EN h) (0)
     decide ((s.get (HBC_SCRUB_EN h) = 0 ∨ s.hState h ≠ 3))) &&
    (let h : Fin 6 := 5
     let s : State := base
     let s : State := s.set (HBC_SCRUB_EN h) (1)
     let s : State := s.set (HBC_STAT_STATE h) (3)
     decide (s.get (HBC_SCRUB_EN h) = 1 ∧ s.hState h = 3))) = true := by
  decide +kernel

theorem witness_StacksFollowTheirStates_1 :
(
    (let i : Fin 5 := 1
     let h : Fin 6 := 5
     let s : State := base
     let s : State := s.set (HBC_STAT_STATE h) (0)
     decide (s.reaches i (HBC_CMD h) = true ∧ (s.hState h = 0 ∨ s.hState h = 7 ∨ (s.hState h = 3 ∧ s.cfg (ctlEn (hbcPage h)) = 0)))) &&
    (let i : Fin 5 := 1
     let h : Fin 6 := 5
     let s : State := base
     let s : State := (s.set (HBC_STAT_STATE h) 3)
     let s : State := s.set (ctlEn (hbcPage h)) (1)
     decide (s.reaches i (HBC_CMD h) = true ∧ (¬ (s.hState h = 0 ∨ s.hState h = 7 ∨ (s.hState h = 3 ∧ s.cfg (ctlEn (hbcPage h)) = 0))))) &&
    (let i : Fin 5 := 1
     let h : Fin 6 := 5
     let s : State := base
     let s : State := s.set (HBC_STAT_STATE h) (3)
     let s : State := s.set (ctlEn (hbcPage h)) (0)
     decide (s.reaches i (HBC_CMD h) = true ∧ s.hState h = 3 ∧ s.cfg (ctlEn (hbcPage h)) = 0)) &&
    (let i : Fin 5 := 1
     let h : Fin 6 := 5
     let s : State := base
     decide (s.reaches i (HBC_CMD h) = true ∧ (s.hState h ≠ 3 ∨ s.cfg (ctlEn (hbcPage h)) = 1))) &&
    (let i : Fin 5 := 1
     let h : Fin 6 := 5
     let s : State := base
     let s : State := s.set (HBC_STAT_STATE h) (3)
     let s : State := w_hbc s ({ s.hbc with q := Tbl.set (fun _ => []) s.hbc.q h ([]) })
     decide (s.reaches i (HBC_CMD h) = true ∧ (s.hState h = 3 ∨ s.hState h = 6) ∧ s.hq h = [])) &&
    (let i : Fin 5 := 1
     let h : Fin 6 := 5
     let s : State := base
     decide (s.reaches i (HBC_CMD h) = true ∧ s.hState h ≠ 3 ∧ s.hState h ≠ 6)) &&
    (let i : Fin 5 := 1
     let h : Fin 6 := 5
     let s : State := base
     let s : State := s.set (HBC_STAT_STATE h) (5)
     let s : State := w_safe s (false)
     let s : State := w_aon s ({ s.aon with only := false })
     decide (s.reaches i (HBC_CMD h) = true ∧ s.hState h = 5 ∧ s.safe = false ∧ s.aon.only = false ∧
       Tbl.get (fun _ => false) s.hbc.retrain h.val = false)) &&
    (let i : Fin 5 := 1
     let h : Fin 6 := 5
     let s : State := base
     let s : State := s.set (HBC_STAT_STATE h) (5)
     let s : State := w_safe s (true)
     decide (s.reaches i (HBC_CMD h) = true ∧ s.hState h = 5 ∧ (s.safe = true ∨ s.aon.only = true))) &&
    (let i : Fin 5 := 1
     let h : Fin 6 := 5
     let s : State := base
     decide (s.reaches i (HBC_CMD h) = true ∧ s.hState h ≠ 5)) &&
    (let h : Fin 6 := 5
     let s : State := base
     decide (s.hState h ≠ 1)) &&
    (let h : Fin 6 := 5
     let s : State := base
     let s : State := s.set (HBC_STAT_STATE h) (1)
     decide (s.hState h = 1)) &&
    (let h : Fin 6 := 5
     let s : State := base
     decide (s.hState h ≠ 4)) &&
    (let h : Fin 6 := 5
     let s : State := base
     let s : State := s.set (HBC_STAT_STATE h) (4)
     decide (s.hState h = 4)) &&
    (let h : Fin 6 := 5
     let s : State := base
     decide (s.hState h ≠ 2))) = true := by
  decide +kernel

theorem witness_StacksFollowTheirStates_2 :
(
    (let h : Fin 6 := 5
     let s : State := base
     let s : State := s.set (HBC_STAT_STATE h) (2)
     decide (s.hState h = 2 ∧ s.srefCause h = false)) &&
    (let h : Fin 6 := 5
     let s : State := base
     decide (s.hState h ≠ 6)) &&
    (let h : Fin 6 := 5
     let s : State := base
     let s : State := s.set (HBC_STAT_STATE h) (6)
     decide (s.hState h = 6)) &&
    (let h : Fin 6 := 5
     let s : State := base
     decide ((s.hState h ≠ 5 ∨ s.srefCause h = true))) &&
    (let h : Fin 6 := 5
     let s : State := base
     let s : State := s.set (HBC_STAT_STATE h) (5)
     let s : State := w_hbc s ({ s.hbc with retrain := [(5, true)] })
     decide (s.hState h = 5 ∧ Tbl.get (fun _ => false) s.hbc.retrain h.val = true ∧ s.srefCause h = false))) = true := by
  decide +kernel

theorem witness_PorterChoosesAndSends_1 :
(
    (let p : Fin 256 := 255
     let s : State := base
     decide ((∀ x : Fin 16, ∀ id ∈ s.eqQ (eqKey p x), (s.frame id).fcs ≠ some false) ∧ (s.porterOn p = false ∨ (s.sending p).isSome = true))) &&
    (let p : Fin 256 := 255
     let s : State := base
     decide ((∀ x : Fin 16, ∀ id ∈ s.eqQ (eqKey p x), (s.frame id).fcs ≠ some false) ∧ (s.porterOn p = false ∨ (s.sending p).isSome = true))) &&
    (let p : Fin 256 := 255
     let s : State := base
     let s : State := ((s.set (ctlEn schPage) 1).set (ctlEn (schPage + 0x1000 * (1 + p / 16))) 1).set (SCH_PORT_RATE_RATE (p / 16) (p % 16)) 100000
     decide ((∀ x : Fin 16, ∀ id ∈ s.eqQ (eqKey p x), (s.frame id).fcs ≠ some false) ∧ s.porterOn p = true ∧ s.sending p = none ∧
       (∀ x : Fin 16, s.eligible p x = false))) &&
    (let p : Fin 256 := 255
     let s : State := base
     let x : Fin 4 := 0
     let id : Nat := 1
     let r : List Nat := []
     let s : State := w_sch s ({ s.sch with eq := Tbl.set (fun _ => []) s.sch.eq (eqKey p x) (id :: r) })
     let s : State := ((s.set (ctlEn schPage) 1).set (ctlEn (schPage + 0x1000 * (1 + p / 16))) 1).set (SCH_PORT_RATE_RATE (p / 16) (p % 16)) 100000
     let s : State := s.set (SCH_PORT_CFG_PROF (p / 16) (p % 16)) (1)
     let s : State := w_sch s ({ s.sch with eq := [(eqKey p 0, id :: r)] })
     let s : State := w_sch s ({ s.sch with tok := [(eqKey 255 0, 10 ^ 12), (portShp 255, 10 ^ 12)] })
     decide ((∀ x : Fin 16, ∀ id ∈ s.eqQ (eqKey p x), (s.frame id).fcs ≠ some false) ∧ s.porterOn p = true ∧ s.sending p = none ∧
       s.profS p = true ∧ s.eligible p x = true ∧ ((∀ y : Fin 4, y < x → s.eligible p y = false)) ∧ s.eqQ (eqKey p x) = id :: r)) &&
    (let p : Fin 258 := 257
     let s : State := base
     decide (s.sending p = none)) &&
    (let p : Fin 258 := 257
     let s : State := base
     let id := 4
     let s : State := updFrame s (id) (fun f0 => { f0 with ended := false })
     let s : State := w_sch s ({ s.sch with busy := [(257, some 4)] })
     let s : State := updFrame s 4 (fun f0 => { f0 with stage := .transmit, ended := false, bytes := List.replicate 64 0 })
     decide (s.sending p = some id ∧ (s.frame id).ended = false)) &&
    (let s : State := base
     let id := 4
     let s : State := updFrame s (id) (fun f0 => { f0 with ended := true })
     let p : Fin 258 := 256
     let s : State := w_sch s ({ s.sch with busy := [(256, some 4)] })
     let s : State := updFrame s 4 (fun f0 => { f0 with stage := .transmit, ended := true, bytes := List.replicate 64 0 })
     decide (s.sending p = some id ∧ (s.frame id).ended = true ∧ p.val ≠ 257)) &&
    (let id : Nat := 4
     let s : State := base
     let s : State := updFrame s (id) (fun f0 => { f0 with ended := true })
     let s : State := w_sch s ({ s.sch with busy := [(257, some 4)] })
     let s : State := updFrame s 4 (fun f0 => { f0 with stage := .transmit, ended := true, bytes := List.replicate 64 0 })
     decide (s.sending 257 = some id ∧ (s.frame id).ended = true)) &&
    (let p : Fin 256 := 255
     let s : State := base
     decide (Tbl.get (fun _ => none) s.sch.gatePend p.val = none)) &&
    (let p : Fin 256 := 255
     let s : State := base
     let t0 := 5
     let s : State := w_sch s ({ s.sch with gatePend := [(255, some 5)] })
     let l := s.cfg (SCH_PORT_CFG_GATE_LIST (p / 16) (p % 16))
     decide (Tbl.get (fun _ => none) s.sch.gatePend p.val = some t0 ∧ l = s.cfg (SCH_PORT_CFG_GATE_LIST (p / 16) (p % 16)) ∧
       s.tbNs < s.listStart p l t0)) &&
    (let p : Fin 256 := 255
     let s : State := base
     let t0 := 0
     let s : State := w_sch s ({ s.sch with gatePend := [(255, some 0)] })
     let l := s.cfg (SCH_PORT_CFG_GATE_LIST (p / 16) (p % 16))
     decide (Tbl.get (fun _ => none) s.sch.gatePend p.val = some t0 ∧ l = s.cfg (SCH_PORT_CFG_GATE_LIST (p / 16) (p % 16)) ∧
       s.listStart p l t0 ≤ s.tbNs)) &&
    (let i : Fin 5 := 1
     let s : State := base
     let s : State := s.set (SCH_GATE_SEL_PORT) (255)
     let s : State := s.set (SCH_GATE_SEL_LIST) (1)
     let s : State := s.set (SCH_PORT_STAT_LIST_PEND 15 15) (1)
     let s : State := s.set (SCH_PORT_CFG_GATE_LIST 15 15) (1)
     decide (s.reaches i SCH_GATE_CMD = true ∧ s.listBusy (s.get SCH_GATE_SEL_PORT) (s.get SCH_GATE_SEL_LIST) = true)) &&
    (let i : Fin 5 := 1
     let s : State := base
     decide (s.reaches i SCH_GATE_CMD = true ∧ s.listBusy (s.get SCH_GATE_SEL_PORT) (s.get SCH_GATE_SEL_LIST) = false)) &&
    (let i : Fin 5 := 1
     let s : State := base
     decide (s.reaches i SCH_GATE_CMD = true))) = true := by
  decide +kernel

theorem witness_PorterChoosesAndSends_2 :
(
    (let s : State := base
     let s : State := s.set SCH_SMP_CFG_EN (0)
     decide (s.cfg SCH_SMP_CFG_EN = 0)) &&
    (let s : State := base
     let s : State := s.set SCH_SMP_CFG_EN (1)
     decide (s.cfg SCH_SMP_CFG_EN = 1)) &&
    (let i : Fin 5 := 1
     let q : Fin 4096 := 4095
     let s : State := base
     let x : Smp := Tbl.get (fun _ => {}) s.sch.smpLast q.val
     decide (s.reaches i SCH_SMP_SEL = true ∧ x = Tbl.get (fun _ => {}) s.sch.smpLast q.val))) = true := by
  decide +kernel

theorem witness_CreditsAndPolicers_1 :
(
    (let s : State := base
     let s : State := w_sch s ({ s.sch with reports := [] })
     decide (s.sch.reports = [])) &&
    (let s : State := base
     let p := 255
     let c := 7
     let on := true
     let r := [(3, 1, false)]
     let s : State := w_sch s ({ s.sch with reports := (p, c, on) :: r })
     decide (s.sch.reports = (p, c, on) :: r)) &&
    (let s : State := base
     let s : State := w_sch s ({ s.sch with credits := [] })
     decide (s.sch.credits = [])) &&
    (let s : State := base
     let v := 131071
     let n := 5
     let r := [(3, 9)]
     let s : State := w_sch s ({ s.sch with credits := (v, n) :: r })
     let s : State := w_voq s ({ s.voq with q := [(131071, [4])] })
     decide (s.sch.credits = (v, n) :: r ∧ s.voqQ v ≠ [])) &&
    (let s : State := base
     let v := 131071
     let n := 5
     let r := [(3, 9)]
     let s : State := w_sch s ({ s.sch with credits := (v, n) :: r })
     let s : State := w_voq s ({ s.voq with q := Tbl.set (fun _ => []) s.voq.q v ([]) })
     decide (s.sch.credits = (v, n) :: r ∧ s.voqQ v = [])) &&
    (let d : Fin 2048 := 2047
     let p : Fin 512 := 511
     let c : Fin 8 := 7
     let s : State := base
     decide ((Tbl.get (fun _ => none) s.sch.flows (flowKey d p c) = none ∨ d.val = s.ownDev))) &&
    (let d : Fin 2048 := 2047
     let p : Fin 512 := 511
     let c : Fin 8 := 7
     let s : State := base
     let t0 := 10 ^ 12 - 100
     let s : State := w_sch s ({ s.sch with flows := [(flowKey d p c, some (10 ^ 12 - 100))] })
     decide (Tbl.get (fun _ => none) s.sch.flows (flowKey d p c) = some t0 ∧ d.val ≠ s.ownDev ∧ s.now - t0 < 200000)) &&
    (let d : Fin 2048 := 2047
     let p : Fin 512 := 511
     let c : Fin 8 := 7
     let s : State := base
     let t0 := 1000
     let s : State := w_sch s ({ s.sch with flows := [(flowKey d p c, some 1000)] })
     decide (Tbl.get (fun _ => none) s.sch.flows (flowKey d p c) = some t0 ∧ d.val ≠ s.ownDev ∧ 200000 ≤ s.now - t0)) &&
    (let s : State := base
     let s : State := w_sch s ({ s.sch with flows := [] })
     decide (s.sch.flows = [])) &&
    (let p : Fin 256 := 255
     let c : Fin 8 := 0
     let v : Nat := 0
     let t0 : Nat := 1
     let s : State := base
     let s : State := w_sch s ({ s.sch with flows := [(flowKey s.ownDev p c, some t0)] })
     let s : State := s.set (SCH_PORT_CFG_CR_MODE (p / 16) (p % 16)) (0)
     let s : State := ((s.set (ctlEn schPage) 1).set (ctlEn (schPage + 0x1000 * (1 + p / 16))) 1).set (SCH_PORT_RATE_RATE (p / 16) (p % 16)) 100000
     let s : State := ((s.set (PRT_PORT_STAT_UP (p / 16) (p % 16)) 1).set (SCH_PORT_RATE_RATE (p / 16) (p % 16)) 100000).set SCH_CRED_CFG_SIZE_KB 1
     let s : State := w_voq s ({ s.voq with dest := [(0, 0x80000000 + BitVec.ofNat 32 (255 * 2048))] })
     let s : State := w_sch s ({ s.sch with acc := [(255, 9000)] })
     let a : Nat := Tbl.get (fun _ => 0) s.sch.acc p.val + s.creditRate p
     decide (s.sch.flows = [(flowKey s.ownDev p c, some t0)] ∧ s.porterOn p = true ∧ s.creditStop p = false ∧
       s.cfg (SCH_PORT_CFG_CR_MODE (p / 16) (p % 16)) = 0 ∧ s.voqOfFlow s.ownDev p c = some v ∧
       a = Tbl.get (fun _ => 0) s.sch.acc p.val + s.creditRate p ∧ s.creditKb * 102400 ≤ a ∧ a < 2 * (s.creditKb * 102400))) &&
    (let x : Policer := { tc := 5, tx := 5 }
     let b : Nat := 5
     decide (bit x.ctl 1 = false ∧ b ≤ x.tc ∧ b ≤ x.tx)) &&
    (let x : Policer := { tc := 4, tx := 5 }
     let b : Nat := 5
     decide (bit x.ctl 1 = false ∧ x.tc < b ∧ b ≤ x.tx)) &&
    (let x : Policer := {}
     let b : Nat := 1
     decide (bit x.ctl 1 = false ∧ x.tx < b)) &&
    (let x : Policer := {}
     decide (bit x.ctl 1 = false))) = true := by
  decide +kernel

theorem witness_CreditsAndPolicers_2 :
(
    (let k : Nat := 1
     let s : State := base
     decide (s.lookup k .police = none)) &&
    (let k : Nat := 1
     let s : State := base
     let l : Lookup := { wks := 3, ctx := 5, reg := 2, kind := .police, tid := 1, key := [], vslot := 0, frame := 1, t := 0, iport := 0 }
     let s : State := w_lkp s (List.replicate k l ++ [l])
     let s : State := s.set (ctlEn schPage) (if (1) = 0 then 1 else 0)
     decide (s.lookup k .police = some l ∧ s.get (ctlEn schPage) ≠ 1)) &&
    (let k : Nat := 1
     let s : State := base
     let l : Lookup := { wks := 3, ctx := 5, reg := 2, kind := .police, tid := 1, key := [], vslot := 0, frame := 1, t := 0, iport := 0 }
     let s : State := w_lkp s (List.replicate k l ++ [l])
     let s : State := s.set (ctlEn schPage) (1)
     decide (s.lookup k .police = some l ∧ s.get (ctlEn schPage) = 1 ∧ (l.key.length ≠ 2 ∨ 1 < l.tid))) &&
    (let k : Nat := 1
     let s : State := base
     let l : Lookup := { wks := 3, ctx := 5, reg := 2, kind := .police, tid := 1, key := [], vslot := 0, frame := 1, t := 0, iport := 0 }
     let l := { l with key := List.replicate (2) 0 }
     let i : Nat := l.wks / 16 * 16384 + beNat l.key
     let s : State := w_lkp s (List.replicate k l ++ [l])
     let s : State := s.set (ctlEn schPage) (1)
     let x : Policer := s.policer i
     let c : Nat × Policer := (x.refill s.tbNs).colour ((max 1 ((l.len : Int) + sgn 8 (bits x.ctl 8 8))).toNat * 100) (if l.tid = 1 then min 2 l.dp else 0)
     decide (s.lookup k .police = some l ∧ s.get (ctlEn schPage) = 1 ∧ l.key.length = 2 ∧ beNat l.key < 2 ^ 14 ∧ l.tid ≤ 1 ∧
       i = l.wks / 16 * 16384 + beNat l.key ∧ x = s.policer i ∧ x.bad = false ∧
       c = (x.refill s.tbNs).colour ((max 1 ((l.len : Int) + sgn 8 (bits x.ctl 8 8))).toNat * 100) (if l.tid = 1 then min 2 l.dp else 0) ∧
       bit x.ctl 0 = false)) &&
    (let k : Nat := 1
     let s : State := base
     let l : Lookup := { wks := 3, ctx := 5, reg := 2, kind := .police, tid := 1, key := [], vslot := 0, frame := 1, t := 0, iport := 0 }
     let l := { l with key := List.replicate (2) 0 }
     let i : Nat := l.wks / 16 * 16384 + beNat l.key
     let s : State := w_lkp s (List.replicate k l ++ [l])
     let s : State := s.set (ctlEn schPage) (1)
     let s : State := w_sch s ({ s.sch with pol := [(3 / 16 * 16384, { ctl := 1, tc := 9 })] })
     let x : Policer := s.policer i
     let c : Nat × Policer := (x.refill s.tbNs).colour ((max 1 ((l.len : Int) + sgn 8 (bits x.ctl 8 8))).toNat * 100) (if l.tid = 1 then min 2 l.dp else 0)
     decide (s.lookup k .police = some l ∧ s.get (ctlEn schPage) = 1 ∧ l.key.length = 2 ∧ beNat l.key < 2 ^ 14 ∧ l.tid ≤ 1 ∧
       i = l.wks / 16 * 16384 + beNat l.key ∧ x = s.policer i ∧ x.bad = false ∧
       c = (x.refill s.tbNs).colour ((max 1 ((l.len : Int) + sgn 8 (bits x.ctl 8 8))).toNat * 100) (if l.tid = 1 then min 2 l.dp else 0) ∧
       bit x.ctl 0 = true)) &&
    (let k : Nat := 1
     let s : State := base
     let l : Lookup := { wks := 3, ctx := 5, reg := 2, kind := .police, tid := 1, key := [], vslot := 0, frame := 1, t := 0, iport := 0 }
     let l := { l with key := List.replicate (2) 0 }
     let i : Nat := l.wks / 16 * 16384 + beNat l.key
     let s : State := w_lkp s (List.replicate k l ++ [l])
     let s : State := s.set (ctlEn schPage) (1)
     let x : Policer := s.policer i
     let c : Nat × Policer := (x.refill s.tbNs).colour ((max 1 ((l.len : Int) + sgn 8 (bits x.ctl 8 8))).toNat * 100) (if l.tid = 1 then min 2 l.dp else 0)
     decide (s.lookup k .police = some l ∧ s.get (ctlEn schPage) = 1 ∧ l.key.length = 2 ∧ beNat l.key < 2 ^ 14 ∧ l.tid ≤ 1 ∧
       i = l.wks / 16 * 16384 + beNat l.key ∧ x = s.policer i ∧ x.bad = false ∧
       c = (x.refill s.tbNs).colour ((max 1 ((l.len : Int) + sgn 8 (bits x.ctl 8 8))).toNat * 100) (if l.tid = 1 then min 2 l.dp else 0))) &&
    (let i : Fin 5 := 1
     let s : State := base
     decide (s.reaches i SCH_POL_CMD = true)) &&
    (let i : Fin 5 := 1
     let s : State := base
     let x := s.policer (s.get SCH_POL_SEL_QUARTER * 16384 + s.get SCH_POL_SEL_INDEX)
     decide (s.reaches i SCH_POL_CMD = true ∧ x = s.policer (s.get SCH_POL_SEL_QUARTER * 16384 + s.get SCH_POL_SEL_INDEX)))) = true := by
  decide +kernel

theorem witness_OverloadIsRecorded :
(
    (let b : Fin 256 := 255
     let n : Nat := 0
     let s : State := base
     let w : Bool := false
     let q : Nat := Tbl.get (fun _ => 0) s.xmt.bankQ b.val
     decide (q = Tbl.get (fun _ => 0) s.xmt.bankQ b.val ∧ q + n ≤ 32 ∧ w = false ∧ q + n = 0)) &&
    (let b : Fin 256 := 255
     let n : Nat := 1
     let s : State := base
     let w : Bool := false
     let q : Nat := Tbl.get (fun _ => 0) s.xmt.bankQ b.val
     decide (q = Tbl.get (fun _ => 0) s.xmt.bankQ b.val ∧ q + n ≤ 32 ∧ (w = false ∧ q + n ≠ 0 ∨ w = true ∧ q + n ≠ 0 ∧
       Tbl.get (fun _ => false) s.xmt.bankLast b.val = true))) &&
    (let b : Fin 256 := 255
     let n : Nat := 1
     let s : State := base
     let q : Nat := Tbl.get (fun _ => 0) s.xmt.bankQ b.val
     let w : Bool := true ∧ (q + n = 0 ∨ Tbl.get (fun _ => false) s.xmt.bankLast b.val = false)
     decide (q = Tbl.get (fun _ => 0) s.xmt.bankQ b.val ∧ q + n ≤ 32 ∧ (w = true ∧
       (q + n = 0 ∨ Tbl.get (fun _ => false) s.xmt.bankLast b.val = false)))) &&
    (let b : Fin 256 := 255
     let n : Nat := 33
     let s : State := base
     let q : Nat := Tbl.get (fun _ => 0) s.xmt.bankQ b.val
     decide (q = Tbl.get (fun _ => 0) s.xmt.bankQ b.val ∧ 32 < q + n)) &&
    (let i : Fin 5 := 1
     let c : Fin 8 := 7
     let s : State := base
     decide (s.reaches i (SYS_OVL_PUNT c) = true))) = true := by
  decide +kernel

theorem witness_RingsAndEntries_1 :
(
    (let n : Fin 2048 := 2047
     let w : Word := 0
     let s : State := base
     let r : SRing := s.sring n
     decide (s.resetting hifPage = false ∧ r = s.sring n ∧
       (bits w.toNat 16 16 ≠ n ∨ r.en = false ∨ r.size - r.fill < (bits w.toNat 0 16 + 2 ^ 16 - r.tail) % 2 ^ 16))) &&
    (let n : Fin 2048 := 2047
     let w : Word := 2047 * 65536 + 64
     let s : State := base
     let s : State := w_hif s ({ s.hif with sr := Tbl.set (fun _ => {}) s.hif.sr n { s.sring n with en := true } })
     let s : State := w_hif s ({ s.hif with sr := Tbl.set (fun _ => {}) s.hif.sr (n) { s.sring (n) with en := true, logsz := 6 } })
     let r : SRing := s.sring n
     decide (s.resetting hifPage = false ∧ r = s.sring n ∧ bits w.toNat 16 16 = n ∧ r.en = true ∧
       (bits w.toNat 0 16 + 2 ^ 16 - r.tail) % 2 ^ 16 ≤ r.size - r.fill)) &&
    (let n : Fin 2048 := 2047
     let w : Word := 0
     let s : State := base
     let r : CRing := s.cring n
     decide (s.resetting hifPage = false ∧ r = s.cring n ∧
       (bits w.toNat 16 16 ≠ n ∨ r.en = false ∨ r.fill < (bits w.toNat 0 16 + 2 ^ 16 - r.head) % 2 ^ 16))) &&
    (let n : Fin 2048 := 2047
     let w : Word := 2047 * 65536 + 7
     let s : State := base
     let s : State := w_hif s ({ s.hif with cr := Tbl.set (fun _ => {}) s.hif.cr n { s.cring n with en := true } })
     let s : State := w_hif s ({ s.hif with tsQ := [] })
     let s : State := w_hif s ({ s.hif with cr := Tbl.set (fun _ => {}) s.hif.cr (n) { s.cring (n) with en := true, logsz := 6, tail := 7 } })
     let r : CRing := s.cring n
     decide (s.resetting hifPage = false ∧ r = s.cring n ∧ bits w.toNat 16 16 = n ∧ r.en = true ∧
       (bits w.toNat 0 16 + 2 ^ 16 - r.head) % 2 ^ 16 ≤ r.fill ∧ s.hif.tsQ = [])) &&
    (let i : Fin 5 := 1
     let s : State := base
     let s : State := s.set HIF_RING_SEL_CQ (0)
     let s : State := w_hif s ({ s.hif with tsQ := [] })
     let n : Nat := s.get HIF_RING_SEL_INDEX
     let s : State := w_hif s ({ s.hif with sr := Tbl.set (fun _ => {}) s.hif.sr n { s.sring n with en := false } })
     let s : State := (s.wr (HIF_RING_DATA 2) 0x7FF001B).wr (HIF_RING_DATA 0) 0x1000
     let s : State := w_hif s ({ s.hif with cr := Tbl.set (fun _ => {}) s.hif.cr (2047) { s.cring (2047) with en := true, logsz := 6 } })
     let n : Nat := s.get HIF_RING_SEL_INDEX
     let o : SRing := s.sring n
     decide (s.reaches i HIF_RING_CMD = true ∧ s.get HIF_RING_SEL_CQ = 0 ∧ n = s.get HIF_RING_SEL_INDEX ∧ o = s.sring n ∧ s.hif.tsQ = [] ∧
       o.en = false ∧ (s.ringSub o).en = true ∧ (s.ringSub o).inject = false ∧ logszOk (s.ringSub o).logsz = true ∧
       (s.cring (s.ringSub o).cq).en = true)) &&
    (let i : Fin 5 := 1
     let s : State := base
     let s : State := s.set HIF_RING_SEL_CQ (0)
     let s : State := w_hif s ({ s.hif with tsQ := [] })
     let n : Nat := s.get HIF_RING_SEL_INDEX
     let s : State := w_hif s ({ s.hif with sr := Tbl.set (fun _ => {}) s.hif.sr n { s.sring n with en := true } })
     let s : State := (s.wr (HIF_RING_DATA 2) 0x7FF001B).wr (HIF_RING_DATA 0) 0x1000
     let n : Nat := s.get HIF_RING_SEL_INDEX
     let o : SRing := s.sring n
     decide (s.reaches i HIF_RING_CMD = true ∧ s.get HIF_RING_SEL_CQ = 0 ∧ n = s.get HIF_RING_SEL_INDEX ∧ o = s.sring n ∧ s.hif.tsQ = [] ∧
       o.en = true ∧ ((s.ringSub o).base ≠ o.base ∨ (s.ringSub o).logsz ≠ o.logsz ∨ (s.ringSub o).cq ≠ o.cq))) &&
    (let i : Fin 5 := 1
     let s : State := base
     let s : State := s.set HIF_RING_SEL_CQ (0)
     let s : State := w_hif s ({ s.hif with tsQ := [] })
     let n : Nat := s.get HIF_RING_SEL_INDEX
     let s : State := w_hif s ({ s.hif with sr := Tbl.set (fun _ => {}) s.hif.sr n { s.sring n with en := false } })
     let n : Nat := s.get HIF_RING_SEL_INDEX
     let o : SRing := s.sring n
     decide (s.reaches i HIF_RING_CMD = true ∧ s.get HIF_RING_SEL_CQ = 0 ∧ n = s.get HIF_RING_SEL_INDEX ∧ o = s.sring n ∧ s.hif.tsQ = [] ∧
       o.en = false ∧ logszOk (s.ringSub o).logsz = false)) &&
    (let i : Fin 5 := 1
     let s : State := base
     let s : State := s.set HIF_RING_SEL_CQ (0)
     let s : State := w_hif s ({ s.hif with tsQ := [] })
     let n : Nat := s.get HIF_RING_SEL_INDEX
     let o : SRing := s.sring n
     decide (s.reaches i HIF_RING_CMD = true ∧ s.get HIF_RING_SEL_CQ = 0 ∧ n = s.get HIF_RING_SEL_INDEX ∧ o = s.sring n ∧ s.hif.tsQ = [])) &&
    (let e : Fin 16 := 15
     let s : State := base
     let s : State := s.set (ctlEn hifPage) (0)
     decide ((s.get (ctlEn hifPage) = 0 ∨ (∀ x ∈ s.hif.sr, x.2.eng = e → s.fetchable x.2 = false)))) &&
    (let e : Fin 16 := 15
     let s : State := base
     let n : Nat := 2047
     let s : State := s.set (ctlEn hifPage) (1)
     let s : State := w_hif s ({ s.hif with sr := Tbl.set (fun _ => {}) s.hif.sr (n) { s.sring (n) with en := true, eng := 15, inject := true, tail := 3, logsz := 6, credit := 5, cq := 2047, burst := 2 } })
     let s : State := w_hif s ({ s.hif with cr := Tbl.set (fun _ => {}) s.hif.cr (2047) { s.cring (2047) with en := true, logsz := 6 } })
     let r : SRing := s.sring n
     let k : Nat := (if r.inject = true then min (min (min 64 (max 1 r.burst)) r.fill) (s.cring r.cq).permits else min (min (min (min 64 (max 1 r.burst)) r.fill) (s.cring r.cq).permits) (16 - r.cached))
     decide (s.get (ctlEn hifPage) = 1 ∧ s.nextRing e = some n ∧ r = s.sring n ∧
       k = (if r.inject = true then min (min (min 64 (max 1 r.burst)) r.fill) (s.cring r.cq).permits else min (min (min (min 64 (max 1 r.burst)) r.fill) (s.cring r.cq).permits) (16 - r.cached)))) &&
    (let n : Fin 2048 := 2047
     let s : State := base
     let s : State := w_hif s ({ s.hif with sr := Tbl.set (fun _ => {}) s.hif.sr n { s.sring n with fetched := [] } })
     decide ((s.sring n).fetched = [])) &&
    (let n : Fin 2048 := 2047
     let x : Fetch := ⟨0, true, 0, 0⟩
     let l : List Fetch := []
     let s : State := base
     let s : State := w_hif s ({ s.hif with sr := Tbl.set (fun _ => {}) s.hif.sr n { s.sring n with fetched := x :: l } })
     let s : State := w_hif s ({ s.hif with sr := Tbl.set (fun _ => {}) s.hif.sr n { s.sring n with cache := [] } })
     decide ((s.sring n).fetched = x :: l ∧ (s.sring n).cache = [])) &&
    (let n : Fin 2048 := 2047
     let x : Fetch := ⟨0, true, 0, 0⟩
     let l : List Fetch := []
     let b : List Byte := setB (setB (setB (List.replicate 32 0) 0 1) 2 60) 8 64
     let s : State := base
     let x := { x with inject := true }
     let s : State := w_hif s ({ s.hif with sr := Tbl.set (fun _ => {}) s.hif.sr n { s.sring n with fetched := x :: l } })
     decide ((s.sring n).fetched = x :: l ∧ x.inject = true ∧ injectOk (bytesAt b 0 32) = true)) &&
    (let n : Fin 2048 := 2047
     let x : Fetch := ⟨0, true, 0, 0⟩
     let l : List Fetch := []
     let b : List Byte := []
     let s : State := base
     let x := { x with inject := true }
     let s : State := w_hif s ({ s.hif with sr := Tbl.set (fun _ => {}) s.hif.sr n { s.sring n with fetched := x :: l } })
     decide ((s.sring n).fetched = x :: l ∧ x.inject = true ∧ injectOk (bytesAt b 0 32) = false))) = true := by
  decide +kernel

theorem witness_RingsAndEntries_2 :
(
    (let n : Fin 2048 := 2047
     let x : Fetch := ⟨0, true, 0, 0⟩
     let l : List Fetch := []
     let b : List Byte := setB (setB (List.replicate 32 0) 0 2) 2 64
     let s : State := base
     let x := { x with inject := false }
     let s : State := w_hif s ({ s.hif with sr := Tbl.set (fun _ => {}) s.hif.sr n { s.sring n with fetched := x :: l } })
     let s : State := w_hif s ({ s.hif with sr := Tbl.set (fun _ => {}) s.hif.sr n { s.sring n with en := true } })
     decide ((s.sring n).fetched = x :: l ∧ x.inject = false ∧ rxbufOk (bytesAt b 0 32) = true ∧ (s.sring n).en = true)) &&
    (let s : State := base
     decide ((∀ x ∈ s.hif.injects, (s.frame x.frame).buf = none))) &&
    (let x : Inject := ⟨0, 0, 0, setB (setB (setB (List.replicate 32 0) 0 1) 2 60) 8 64, 4⟩
     let s : State := base
     let s : State := w_hif s ({ s.hif with injects := [x] })
     let s : State := updFrame s 4 (fun f0 => { f0 with buf := some (7, 3), stage := .waitBuf })
     let s : State := w_buf s ({ s.buf with units := [(handle 7 3, some {})] })
     decide (s.hif.injects = [x] ∧ (s.frame x.frame).buf.isSome = true ∧ entryIndir x.entry = false)) &&
    (let x : Inject := ⟨0, 0, 0, setB (setB (setB (List.replicate 32 0) 0 1) 2 60) 8 64, 4⟩
     let s : State := base
     let s : State := w_hif s ({ s.hif with injects := [x] })
     let s : State := updFrame s 4 (fun f0 => { f0 with buf := some (7, 3), stage := .waitBuf })
     let s : State := w_buf s ({ s.buf with units := [(handle 7 3, some {})] })
     decide (s.hif.injects = [x] ∧ (s.frame x.frame).buf.isSome = true ∧ entryIndir x.entry = false))) = true := by
  decide +kernel

theorem witness_PuntRecordsAndLink_1 :
(
    (let s : State := base
     let s : State := w_sch s ({ s.sch with eq := Tbl.set (fun _ => []) s.sch.eq hostQ ([]) })
     decide (s.eqQ hostQ = [])) &&
    (let s : State := base
     let s : State := w_sch s ({ s.sch with eq := Tbl.set (fun _ => []) s.sch.eq hostQ ([]) })
     decide (s.eqQ hostQ = [])) &&
    (let id : Nat := 1
     let q : List Nat := []
     let idx : Nat := 5
     let e : List Byte := setB (List.replicate 32 0) 2 64
     let l : List (Nat × List Byte) := []
     let s : State := base
     let s : State := w_sch s ({ s.sch with eq := Tbl.set (fun _ => []) s.sch.eq hostQ (id :: q) })
     let n : Nat := s.get (HIF_PUNT_MAP_RING ((s.frame id).tc % 8))
     let s : State := w_hif s ({ s.hif with sr := Tbl.set (fun _ => {}) s.hif.sr n { s.sring n with cache := (idx, e) :: l } })
     let s : State := updFrame s (id) (fun f0 => { f0 with punted := 0 })
     let s : State := (List.range 8).foldl (fun s t => s.set (HIF_PUNT_MAP_RING t) 2047) (s.set (ctlEn 0x60000) 1)
     let s : State := w_hif s ({ s.hif with sr := Tbl.set (fun _ => {}) s.hif.sr (2047) { s.sring (2047) with en := true, inject := false, cq := 2047, cache := [(5, setB (List.replicate 32 0) 2 64)] } })
     let s : State := w_hif s ({ s.hif with cr := Tbl.set (fun _ => {}) s.hif.cr (2047) { s.cring (2047) with en := true, logsz := 6 } })
     let n : Nat := s.get (HIF_PUNT_MAP_RING ((s.frame id).tc % 8))
     decide (s.eqQ hostQ = id :: q ∧ (∀ i ∈ s.eqQ hostQ, (s.frame i).fcs ≠ some false) ∧ n = s.get (HIF_PUNT_MAP_RING ((s.frame id).tc % 8)) ∧
       s.hostPortUp = true ∧ (s.sring n).cache = (idx, e) :: l ∧ (s.cring (s.sring n).cq).canTake = true ∧ (s.frame id).punted = 0 ∧
       (s.frame id).txBody.length ≤ entryLen e)) &&
    (let id : Nat := 1
     let q : List Nat := []
     let s : State := base
     let s : State := w_sch s ({ s.sch with eq := Tbl.set (fun _ => []) s.sch.eq hostQ (id :: q) })
     let n : Nat := s.get (HIF_PUNT_MAP_RING ((s.frame id).tc % 8))
     let s : State := w_hif s ({ s.hif with sr := Tbl.set (fun _ => {}) s.hif.sr n { s.sring n with cache := [] } })
     let n : Nat := s.get (HIF_PUNT_MAP_RING ((s.frame id).tc % 8))
     decide (s.eqQ hostQ = id :: q ∧ (∀ i ∈ s.eqQ hostQ, (s.frame i).fcs ≠ some false) ∧ n = s.get (HIF_PUNT_MAP_RING ((s.frame id).tc % 8)) ∧
       ((s.sring n).cache = [] ∨ s.hostPortUp = false))) &&
    (let id : Nat := 1
     let q : List Nat := []
     let s : State := base
     let s : State := w_sch s ({ s.sch with eq := Tbl.set (fun _ => []) s.sch.eq hostQ (id :: q) })
     let s : State := (List.range 8).foldl (fun s t => s.set (HIF_PUNT_MAP_RING t) 2047) (s.set (ctlEn 0x60000) 1)
     let s : State := w_hif s ({ s.hif with sr := Tbl.set (fun _ => {}) s.hif.sr (2047) { s.sring (2047) with en := true, inject := false, cq := 2047, cache := [(5, setB (List.replicate 32 0) 2 64)] } })
     let s : State := w_hif s ({ s.hif with cr := Tbl.set (fun _ => {}) s.hif.cr (2047) { s.cring (2047) with en := true, logsz := 6 } })
     let n : Nat := s.get (HIF_PUNT_MAP_RING ((s.frame id).tc % 8))
     decide (s.eqQ hostQ = id :: q ∧ (∀ i ∈ s.eqQ hostQ, (s.frame i).fcs ≠ some false) ∧ n = s.get (HIF_PUNT_MAP_RING ((s.frame id).tc % 8)) ∧
       s.hostPortUp = true)) &&
    (let id : Nat := 1
     let q : List Nat := []
     let s : State := base
     let s : State := w_sch s ({ s.sch with eq := Tbl.set (fun _ => []) s.sch.eq hostQ (id :: q) })
     let n : Nat := s.get (HIF_PUNT_MAP_RING ((s.frame id).tc % 8))
     decide (s.eqQ hostQ = id :: q ∧ (∀ i ∈ s.eqQ hostQ, (s.frame i).fcs ≠ some false) ∧ n = s.get (HIF_PUNT_MAP_RING ((s.frame id).tc % 8)) ∧
       s.hostPortUp = false)) &&
    (let c : Fin 2048 := 2047
     let s : State := base
     let s : State := w_hif s ({ s.hif with cr := Tbl.set (fun _ => {}) s.hif.cr c { s.cring c with hold := [] } })
     let r : CRing := s.cring c
     decide (r = s.cring c ∧ (r.hold = [] ∨ s.get (ctlEn hifPage) = 0 ∨ r.free = 0))) &&
    (let c : Fin 2048 := 2047
     let s : State := base
     let r : CRing := s.cring c
     let l := (r.hold).tail
     let x := ([1] : List Byte)
     let s : State := w_hif s ({ s.hif with cr := Tbl.set (fun _ => {}) s.hif.cr c { s.cring c with hold := x :: l } })
     let s : State := s.set (ctlEn hifPage) (1)
     let s : State := w_hif s ({ s.hif with tsQ := [] })
     let r : CRing := s.cring c
     match (r.hold) with
     | [] => false
     | x :: _ =>
       let l := (r.hold).tail
       decide (r = s.cring c ∧ r.hold = x :: l ∧ s.get (ctlEn hifPage) = 1 ∧ r.free ≠ 0 ∧ s.hif.tsQ = [])) &&
    (let c : Fin 2048 := 2047
     let s : State := base
     let r : CRing := s.cring c
     let l := (r.hold).tail
     let x := ([1] : List Byte)
     let s : State := w_hif s ({ s.hif with cr := Tbl.set (fun _ => {}) s.hif.cr c { s.cring c with hold := x :: l } })
     let s : State := s.set (ctlEn hifPage) (1)
     let s : State := w_hif s ({ s.hif with tsQ := [] })
     let r : CRing := s.cring c
     match (r.hold) with
     | [] => false
     | x :: _ =>
       let l := (r.hold).tail
       decide (r = s.cring c ∧ r.hold = x :: l ∧ s.get (ctlEn hifPage) = 1 ∧ r.free ≠ 0 ∧ s.hif.tsQ = [])) &&
    (let c : Fin 2048 := 2047
     let s : State := base
     let s : State := s.set (ctlEn hifPage) (0)
     let r : CRing := s.cring c
     decide (r = s.cring c ∧ (s.get (ctlEn hifPage) = 0 ∨ r.wbDue = false))) &&
    (let c : Fin 2048 := 2047
     let s : State := base
     let s : State := s.set (ctlEn hifPage) (1)
     let s : State := w_hif s ({ s.hif with cr := Tbl.set (fun _ => {}) s.hif.cr c { s.cring c with wbDue := true } })
     let r : CRing := s.cring c
     decide (r = s.cring c ∧ s.get (ctlEn hifPage) = 1 ∧ r.wbDue = true)) &&
    (let c : Fin 2048 := 2047
     let s : State := base
     let t0 := 5
     let l := []
     let s : State := w_hif s ({ s.hif with cr := Tbl.set (fun _ => {}) s.hif.cr c { s.cring c with born := t0 :: l } })
     let s : State := w_hif s ({ s.hif with cr := Tbl.set (fun _ => {}) s.hif.cr (c) { s.cring (c) with timer := 1, logsz := 6, tail := 1, born := [5] } })
     let r : CRing := s.cring c
     decide (r = s.cring c ∧ r.born = t0 :: l ∧ r.timer ≠ 0 ∧ r.fill ≠ 0 ∧ r.timer * 1000 ≤ s.now - t0 ∧ r.r < 32)) &&
    (let s : State := base
     let s : State := w_held s (true)
     decide (s.held = true)) &&
    (let s : State := base
     let s : State := w_held s (false)
     decide (s.held = false))) = true := by
  decide +kernel

theorem witness_PuntRecordsAndLink_2 :
(
    (let s : State := base
     let s : State := s.set HIF_LINK_STAT_SPEED (0)
     decide (s.get HIF_LINK_STAT_SPEED = 0)) &&
    (let s : State := base
     let s : State := s.set HIF_LINK_STAT_SPEED (if (0) = 0 then 1 else 0)
     decide (s.get HIF_LINK_STAT_SPEED ≠ 0))) = true := by
  decide +kernel

theorem witness_InterruptsAreDeliveredOnce_1 :
(
    (let s : State := base
     decide (s.icuMsgs = [])) &&
    (let n : Nat := 4095
     let lvl : Bool := true
     let l : List (Nat × Bool) := []
     let s : State := base
     let s : State := w_icuMsgs s ([(4095, true)])
     let x : ISrc := s.isrc n
     decide (s.icuMsgs = (n, lvl) :: l ∧ x = s.isrc n)) &&
    (let i : Fin 5 := 1
     let n : Fin 4096 := 4095
     let s : State := base
     let x : ISrc := s.isrc n
     decide (s.reaches i ICU_PEND_SET = true ∧ x = s.isrc n)) &&
    (let i : Fin 5 := 1
     let n : Fin 4096 := 4095
     let s : State := base
     let x : ISrc := s.isrc n
     decide (s.reaches i ICU_PEND_SET = true ∧ x = s.isrc n)) &&
    (let i : Fin 5 := 1
     let s : State := base
     let n : Nat := s.get ICU_SRC_SEL_SRC
     let x : ISrc := s.isrc n
     decide (s.reaches i ICU_SRC_CFG = true ∧ n = s.get ICU_SRC_SEL_SRC ∧ x = s.isrc n)) &&
    (let k : Nat := 256
     let n : Nat := 5
     let s : State := base
     let s : State := w_icu s ({ s.icu with src := [(5, { en := true, prio := 3, tgt := 256, p := true }), (4095, { en := true, prio := 3, tgt := 256, p := true })] })
     decide (Tbl.wf (fun _ => ({} : ISrc)) s.icu.src = true ∧ s.candidate k = some n)) &&
    (let k : Nat := 256
     let n : Nat := 5
     let s : State := base
     let m := 4095
     let s : State := w_icu s ({ s.icu with src := [(5, { en := true, prio := 3, tgt := 256, p := true }), (4095, { en := true, prio := 3, tgt := 256, p := true })] })
     decide (Tbl.wf (fun _ => ({} : ISrc)) s.icu.src = true ∧ s.candidate k = some n ∧ (s.isrc m).candidate k = true)) &&
    (let k : Nat := 256
     let n : Nat := 5
     let s : State := base
     let m := 4095
     let s : State := w_icu s ({ s.icu with src := [(5, { en := true, prio := 3, tgt := 256, p := true }), (4095, { en := true, prio := 3, tgt := 256, p := true })] })
     decide (Tbl.wf (fun _ => ({} : ISrc)) s.icu.src = true ∧ s.candidate k = some n ∧ (s.isrc m).candidate k = true)) &&
    (let k : Fin 257 := 256
     let s : State := base
     let y : ITgt := s.itgt k
     decide (y = s.itgt k ∧
       (s.candidate k = none ∨ s.get (ctlEn icuPage) = 0 ∨ y.msgOut = true ∨ y.insvc.isSome = true ∨ y.sample.isSome = true ∨ (k.val ≠ 256 ∧
       (y.mask = true ∨ y.sleep = true ∨ s.get HIF_LINK_STAT_LPM ≠ 0)) ∨ (k.val = 256 ∧ s.aon.fast = false)))) &&
    (let k : Fin 257 := 256
     let s : State := base
     let s : State := s.set (ctlEn icuPage) (1)
     let s : State := w_icu s ({ s.icu with tgt := Tbl.set (fun _ => {}) s.icu.tgt k { s.itgt k with msgOut := false } })
     let s : State := w_icu s ({ s.icu with tgt := Tbl.set (fun _ => {}) s.icu.tgt k { s.itgt k with insvc := none } })
     let s : State := w_icu s ({ s.icu with tgt := Tbl.set (fun _ => {}) s.icu.tgt k { s.itgt k with sample := none } })
     let s : State := w_icu s ({ s.icu with tgt := Tbl.set (fun _ => {}) s.icu.tgt k { s.itgt k with sleep := false } })
     let s : State := s.set HIF_LINK_STAT_LPM (0)
     let s : State := w_icu s ({ s.icu with src := [(5, { en := true, prio := 3, tgt := 256, p := true })] })
     let s : State := w_aon s ({ s.aon with fast := true })
     let y : ITgt := s.itgt k
     match (s.candidate k) with
     | none => false
     | some n =>
       decide (y = s.itgt k ∧ s.candidate k = some n ∧ s.get (ctlEn icuPage) = 1 ∧ y.msgOut = false ∧ y.insvc = none ∧ y.sample = none ∧
         ((k.val = 256 → s.aon.fast = true)) ∧ ((k.val ≠ 256 → y.mask = false ∧ y.sleep = false ∧ s.get HIF_LINK_STAT_LPM = 0)))) &&
    (let k : Fin 257 := 256
     let s : State := base
     let l : List (Fin 4096) := [5]
     let m : List (Fin 257) := []
     let y : ITgt := s.itgt k
     decide (y = s.itgt k ∧ (l ≠ [] ∨ m ≠ []))) &&
    (let i : Fin 5 := 1
     let k : Fin 257 := 256
     let s : State := base
     let s : State := w_icu s ({ s.icu with tgt := Tbl.set (fun _ => {}) s.icu.tgt k { s.itgt k with insvc := none } })
     let s : State := w_icu s ({ s.icu with src := [(5, { en := true, prio := 3, tgt := k.val, p := true })] })
     let y : ITgt := s.itgt k
     match (s.candidate k) with
     | none => false
     | some n =>
       decide (s.reaches i (if k.val = 256 then ICU_ISL_CLAIM else ICU_CLAIM k.val) = true ∧ y = s.itgt k ∧ y.insvc = none ∧
         s.candidate k = some n)) &&
    (let i : Fin 5 := 1
     let k : Fin 257 := 256
     let s : State := base
     let y : ITgt := s.itgt k
     decide (s.reaches i (if k.val = 256 then ICU_ISL_CLAIM else ICU_CLAIM k.val) = true ∧ y = s.itgt k ∧
       (y.insvc.isSome = true ∨ s.candidate k = none))) &&
    (let i : Fin 5 := 1
     let k : Fin 257 := 256
     let n : Fin 4096 := 4095
     let s : State := base
     let s : State := w_icu s ({ s.icu with tgt := Tbl.set (fun _ => {}) s.icu.tgt k { s.itgt k with insvc := some n.val } })
     let y : ITgt := s.itgt k
     decide (s.reaches i (if k.val = 256 then ICU_ISL_EOI else ICU_EOI k.val) = true ∧ y = s.itgt k ∧ y.insvc = some n.val))) = true := by
  decide +kernel

theorem witness_InterruptsAreDeliveredOnce_2 :
(
    (let i : Fin 5 := 1
     let k : Fin 257 := 256
     let n : Fin 4096 := 4095
     let s : State := base
     let y : ITgt := s.itgt k
     decide (s.reaches i (if k.val = 256 then ICU_ISL_EOI else ICU_EOI k.val) = true ∧ y = s.itgt k ∧ y.insvc ≠ some n.val)) &&
    (let k : Fin 257 := 256
     let s : State := base
     let s : State := w_icu s ({ s.icu with tgt := Tbl.set (fun _ => {}) s.icu.tgt k { s.itgt k with sample := none } })
     decide ((s.itgt k).sample = none)) &&
    (let k : Fin 257 := 256
     let s : State := base
     let n := (64 : Nat)
     let s : State := w_icu s ({ s.icu with tgt := Tbl.set (fun _ => {}) s.icu.tgt k { s.itgt k with sample := some n } })
     match ((s.itgt k).sample) with
     | none => false
     | some n =>
       let pg := blockBase (n / 64) + 0x1000 * (n % 64)
       decide ((s.itgt k).sample = some n ∧ n < 0x600 ∧ n % 64 < blockPages (n / 64) ∧ pg = blockBase (n / 64) + 0x1000 * (n % 64))) &&
    (let k : Fin 257 := 256
     let s : State := base
     decide ((s.candidate k = none ∨ (k.val ≠ 256 ∧ (s.itgt k).mask = false ∧ (s.itgt k).sleep = false) ∨ (k.val = 256 ∧
       s.aon.fast = true)))) &&
    (let k : Fin 257 := 256
     let s : State := base
     let s : State := w_aon s ({ s.aon with fast := false })
     let s : State := s.set SEC_STAT_ISLAND_OK (1)
     let s : State := w_icu s ({ s.icu with src := [(5, { en := true, prio := 3, tgt := 256, p := true })] })
     decide (k.val = 256 ∧ s.aon.fast = false ∧ (s.candidate 256).isSome = true ∧ s.get SEC_STAT_ISLAND_OK = 1)) &&
    (let k : Fin 257 := 255
     let s : State := base
     let s : State := w_icu s ({ s.icu with tgt := Tbl.set (fun _ => {}) s.icu.tgt k { s.itgt k with mask := true } })
     let s : State := s.set HIF_LINK_STAT_DSTATE (3)
     let s : State := w_hif s ({ s.hif with pmeEn := true })
     let s : State := w_icu s ({ s.icu with src := [(5, { en := true, prio := 3, tgt := k.val, p := true })] })
     decide (k.val ≠ 256 ∧ ((s.itgt k).mask = true ∨ (s.itgt k).sleep = true) ∧ (s.candidate k).isSome = true ∧
       s.get HIF_LINK_STAT_DSTATE = 3 ∧ s.hif.pmeEn = true))) = true := by
  decide +kernel

theorem witness_CountersCountTheirSelection_1 :
(
    (let s : State := base
     let s : State := w_reports s ([])
     decide (s.reports = [])) &&
    (let e : CEvent := .fault 3 0
     let l : List CEvent := []
     let s : State := base
     let s : State := w_reports s (e :: l)
     let s : State := s.set (ctlEn cntPage) (if (1) = 0 then 1 else 0)
     decide (s.reports = e :: l ∧ s.cfg (ctlEn cntPage) ≠ 1)) &&
    (let e : CEvent := .fault 3 0
     let l : List CEvent := []
     let s : State := base
     let s : State := w_reports s (e :: l)
     let s : State := s.set (ctlEn cntPage) (1)
     decide (s.reports = e :: l ∧ s.cfg (ctlEn cntPage) = 1 ∧ Tbl.wf (fun _ => ({} : Prog)) s.cnt.prog = true)) &&
    (let s : State := base
     let s : State := s.set (ctlEn cntPage) (1)
     decide (s.cfg (ctlEn cntPage) = 1 ∧ Tbl.wf (fun _ => ({} : Prog)) s.cnt.prog = true)) &&
    (let i : Fin 5 := 1
     let s : State := base
     let n : Nat := s.get CNT_SEL_INDEX
     decide (s.reaches i CNT_CMD = true ∧ n = s.get CNT_SEL_INDEX)) &&
    (let i : Fin 5 := 1
     let s : State := base
     let x : Prog := s.prog (s.get CNT_SEL_INDEX)
     decide (s.reaches i CNT_CMD = true ∧ x = s.prog (s.get CNT_SEL_INDEX))) &&
    (let k : Nat := 1
     let s : State := base
     decide (s.lookup k .count = none)) &&
    (let k : Nat := 1
     let l : Lookup := { wks := 3, ctx := 5, reg := 2, kind := .count, tid := 1, key := [], vslot := 0, frame := 1, t := 0, iport := 0 }
     let s : State := base
     let w : Nat := beNat (bytesAt l.key 0 2)
     let s : State := w_lkp s (List.replicate k l ++ [l])
     let s : State := s.set (ctlEn cntPage) (if (1) = 0 then 1 else 0)
     let x : Prog := s.prog w
     decide (s.lookup k .count = some l ∧ w = beNat (bytesAt l.key 0 2) ∧ x = s.prog w ∧ s.cfg (ctlEn cntPage) ≠ 1)) &&
    (let k : Nat := 1
     let l : Lookup := { wks := 3, ctx := 5, reg := 2, kind := .count, tid := 1, key := [], vslot := 0, frame := 1, t := 0, iport := 0 }
     let s : State := base
     let w : Nat := beNat (bytesAt l.key 0 2)
     let s : State := w_lkp s (List.replicate k l ++ [l])
     let s : State := s.set (ctlEn cntPage) (1)
     let x : Prog := s.prog w
     decide (s.lookup k .count = some l ∧ w = beNat (bytesAt l.key 0 2) ∧ x = s.prog w ∧ s.cfg (ctlEn cntPage) = 1 ∧
       (l.key.length ≠ 4 ∨ l.tid ≠ 0 ∨ 4096 ≤ w))) &&
    (let k : Nat := 1
     let l : Lookup := { wks := 3, ctx := 5, reg := 2, kind := .count, tid := 1, key := [], vslot := 0, frame := 1, t := 0, iport := 0 }
     let s : State := base
     let w : Nat := beNat (bytesAt l.key 0 2)
     let l := { l with key := List.replicate (4) 0 }
     let l := { l with tid := 0 }
     let s : State := w_lkp s (List.replicate k l ++ [l])
     let s : State := s.set (ctlEn cntPage) (1)
     let x : Prog := s.prog w
     decide (s.lookup k .count = some l ∧ w = beNat (bytesAt l.key 0 2) ∧ x = s.prog w ∧ s.cfg (ctlEn cntPage) = 1 ∧ l.key.length = 4 ∧
       l.tid = 0 ∧ w < 4096 ∧ (x.type ≠ 4 ∨ x.mode = 0))) &&
    (let k : Nat := 1
     let l : Lookup := { wks := 3, ctx := 5, reg := 2, kind := .count, tid := 1, key := [], vslot := 0, frame := 1, t := 0, iport := 0 }
     let s : State := base
     let l := { l with key := List.replicate (4) 0 }
     let l := { l with tid := 0 }
     let s : State := w_lkp s (List.replicate k l ++ [l])
     let s : State := s.set (ctlEn cntPage) (1)
     let l := { l with key := setB (setB l.key 1 255) 0 15 }
     let s : State := w_lkp s (List.replicate k l ++ [l])
     let s : State := w_cnt s ({ s.cnt with prog := [(4095, { cfg0 := 0x11 })] })
     let w : Nat := beNat (bytesAt l.key 0 2)
     let x : Prog := s.prog w
     decide (s.lookup k .count = some l ∧ w = beNat (bytesAt l.key 0 2) ∧ x = s.prog w ∧ s.cfg (ctlEn cntPage) = 1 ∧ l.key.length = 4 ∧
       l.tid = 0 ∧ w < 4096 ∧ x.type = 4 ∧ x.mode ≠ 0)) &&
    (let p : Fin 4096 := 4095
     let w : Fin 1024 := 1022
     let s : State := base
     let v : Nat := s.pageCount p (w.val / 2)
     decide (v = s.pageCount p (w.val / 2) ∧ w.val % 2 = 0)) &&
    (let p : Fin 4096 := 4095
     let w : Fin 1024 := 1022
     let s : State := base
     let v : Nat := s.pageCount p (w.val / 2)
     decide (v = s.pageCount p (w.val / 2) ∧ w.val % 2 = 0)) &&
    (let p : Fin 4096 := 4095
     let w : Fin 1024 := 1023
     let s : State := base
     let c := 9
     let s : State := w_cnt s ({ s.cnt with pageCap := [(4095, some (511, 9))] })
     let v : Nat := s.pageCount p (w.val / 2)
     decide (v = s.pageCount p (w.val / 2) ∧ w.val % 2 = 1 ∧ Tbl.get (fun _ => none) s.cnt.pageCap p = some (w.val / 2, c)))) = true := by
  decide +kernel

theorem witness_CountersCountTheirSelection_2 :
(
    (let p : Fin 4096 := 4095
     let w : Fin 1024 := 1023
     let s : State := base
     let v : Nat := s.pageCount p (w.val / 2)
     decide (v = s.pageCount p (w.val / 2) ∧ w.val % 2 = 1 ∧ Tbl.get (fun _ => none) s.cnt.pageCap p = none)) &&
    (let p : Fin 4096 := 255
     let w : Fin 1024 := 31
     let s : State := base
     let s : State := w_cnt s ({ s.cnt with prog := [(4095, { value := 77, sat := true })] })
     let v : Nat := s.pageCount p (w.val / 2)
     decide (v = s.pageCount p (w.val / 2) ∧ p.val < 256 ∧ w.val < 32)) &&
    (let p : Fin 4096 := 4095
     let w : Fin 1024 := 1023
     let s : State := base
     let v : Nat := s.pageCount p (w.val / 2)
     decide (v = s.pageCount p (w.val / 2) ∧ 515 ≤ p.val))) = true := by
  decide +kernel

theorem witness_DumpsAndCapturesAreWritten_1 :
(
    (let s : State := base
     let s : State := s.set (ctlEn cntPage) (if (1) = 0 then 1 else 0)
     decide ((s.cfg (ctlEn cntPage) ≠ 1 ∨ s.get CNT_DUMP_CFG_EN ≠ 1 ∨ s.tb.ns % (s.dumpMs * 1000000) ≠ 0))) &&
    (let s : State := base
     let s : State := s.set (ctlEn cntPage) (1)
     let s : State := s.set CNT_DUMP_CFG_EN (1)
     let s : State := w_cnt s ({ s.cnt with dump := some ⟨4096, 1, true⟩ })
     decide (s.cfg (ctlEn cntPage) = 1 ∧ s.get CNT_DUMP_CFG_EN = 1 ∧ s.tb.ns % (s.dumpMs * 1000000) = 0 ∧ s.cnt.dump.isSome = true)) &&
    (let s : State := base
     let s : State := s.set (ctlEn cntPage) (1)
     let s : State := s.set CNT_DUMP_CFG_EN (1)
     let s : State := w_cnt s ({ s.cnt with dump := none })
     let s : State := s.set CNT_DUMP_CFG_DEST (1)
     let s : State := s.set CNT_DUMP_NSLOT_NSLOT (0)
     decide (s.cfg (ctlEn cntPage) = 1 ∧ s.get CNT_DUMP_CFG_EN = 1 ∧ s.tb.ns % (s.dumpMs * 1000000) = 0 ∧ s.cnt.dump = none ∧
       ((s.get CNT_DUMP_CFG_DEST = 1 ∧ s.get CNT_DUMP_NSLOT_NSLOT = 0) ∨ (s.get CNT_DUMP_CFG_DEST ≠ 1 ∧ s.stacksUp = false)))) &&
    (let s : State := base
     let seq := 1
     let s : State := s.set (ctlEn cntPage) (1)
     let s : State := s.set CNT_DUMP_CFG_EN (1)
     let s : State := w_cnt s ({ s.cnt with dump := none })
     let s : State := s.set CNT_DUMP_CFG_DEST (1)
     let s : State := s.set (CNT_DUMP_NSLOT_NSLOT) (7)
     let n := s.get CNT_DUMP_NSLOT_NSLOT
     let at0 := (s.rd CNT_DUMP_ADDR_LO).toNat / 4096 * 4096 + 2 ^ 32 * (s.rd CNT_DUMP_ADDR_HI).toNat + seq % n * 0x44000
     decide (s.cfg (ctlEn cntPage) = 1 ∧ s.get CNT_DUMP_CFG_EN = 1 ∧ s.tb.ns % (s.dumpMs * 1000000) = 0 ∧ s.cnt.dump = none ∧
       seq = nextSeq s.cnt.seq ∧ s.get CNT_DUMP_CFG_DEST = 1 ∧ n = s.get CNT_DUMP_NSLOT_NSLOT ∧ n ≠ 0 ∧
       at0 = (s.rd CNT_DUMP_ADDR_LO).toNat / 4096 * 4096 + 2 ^ 32 * (s.rd CNT_DUMP_ADDR_HI).toNat + seq % n * 0x44000)) &&
    (let s : State := base
     let seq := 6
     let s : State := s.set (ctlEn cntPage) (1)
     let s : State := s.set CNT_DUMP_CFG_EN (1)
     let s : State := w_cnt s ({ s.cnt with dump := none })
     let s : State := s.set CNT_DUMP_CFG_DEST (if (1) = 0 then 1 else 0)
     let s : State := w_cnt s ({ s.cnt with seq := 5 })
     let s : State := s.set (HBC_REGION_CFG_STAT_U) (3)
     let s : State := (List.range 6).foldl (fun s h => (s.set (HBC_STAT_STATE h) 3).set (ctlEn (0xC0000 + 0x1000 * h)) 1) s
     let n := s.cfg HBC_REGION_CFG_STAT_U * 0x4000000 / 0x44000
     let at0 := s.dumpBase + seq % n * 0x44000
     decide (s.cfg (ctlEn cntPage) = 1 ∧ s.get CNT_DUMP_CFG_EN = 1 ∧ s.tb.ns % (s.dumpMs * 1000000) = 0 ∧ s.cnt.dump = none ∧
       seq = nextSeq s.cnt.seq ∧ s.get CNT_DUMP_CFG_DEST ≠ 1 ∧ n = s.cfg HBC_REGION_CFG_STAT_U * 0x4000000 / 0x44000 ∧ n ≠ 0 ∧
       s.stacksUp = true ∧ at0 = s.dumpBase + seq % n * 0x44000)) &&
    (let s : State := base
     let s : State := w_cnt s ({ s.cnt with dump := none })
     decide (s.cnt.dump = none)) &&
    (let d : Dump := ⟨4096, 1, true⟩
     let s : State := base
     let d := { d with host := true }
     let s : State := w_cnt s ({ s.cnt with dump := some d })
     decide (s.cnt.dump = some d ∧ d.host = true)) &&
    (let d : Dump := ⟨4096, 1, true⟩
     let s : State := base
     let d := { d with host := true }
     let s : State := w_cnt s ({ s.cnt with dump := some d })
     decide (s.cnt.dump = some d ∧ d.host = true)) &&
    (let d : Dump := ⟨4096, 1, true⟩
     let s : State := base
     let d := { d with host := false }
     let s : State := w_cnt s ({ s.cnt with dump := some d })
     let s : State := (List.range 6).foldl (fun s h => (s.set (HBC_STAT_STATE h) 3).set (ctlEn (0xC0000 + 0x1000 * h)) 1) s
     decide (s.cnt.dump = some d ∧ d.host = false ∧ s.stacksUp = true)) &&
    (let s : State := base
     let s : State := w_capEv s ([])
     decide (s.capEv = [])) &&
    (let e : CapEvent := ⟨none, 5, false, {}, [], 7⟩
     let l : List CapEvent := []
     let s : State := base
     let s : State := w_capEv s (e :: l)
     let s : State := s.set (ctlEn capPage) (if (1) = 0 then 1 else 0)
     decide (s.capEv = e :: l ∧ s.cfg (ctlEn capPage) ≠ 1)) &&
    (let e : CapEvent := ⟨none, 5, false, {}, [], 7⟩
     let l : List CapEvent := []
     let s : State := base
     let i := 15
     let s : State := w_capEv s (e :: l)
     let s : State := s.set (ctlEn capPage) (1)
     let s : State := s.set (CAP_TRIG_LIM_MAXREC i) (if (0) = 0 then 1 else 0)
     let s : State := (s.set (CAP_TRIG_CFG_TYPE i) 2).set (CAP_TRIG_CFG_REASON i) 5
     let s : State := s.set (CAP_TRIG_LIM_MAXREC i) (2)
     let s : State := w_cap s ({ s.cap with per := [(15, (0, 0, 2))] })
     let us := max 1 (s.get (CAP_TRIG_LIM_PERIOD_US i))
     let p := Tbl.get (fun _ => (0, 0, 0)) s.cap.per i
     let n := (if p.1 = e.t / 1000000000 ∧ p.2.1 = e.t % 1000000000 / 1000 / us then p.2.2 else 0)
     decide (s.capEv = e :: l ∧ s.cfg (ctlEn capPage) = 1 ∧ i < 16 ∧ s.trigTakes i e = true ∧ ((∀ j, j < i → s.trigTakes j e = false)) ∧
       us = max 1 (s.get (CAP_TRIG_LIM_PERIOD_US i)) ∧ p = Tbl.get (fun _ => (0, 0, 0)) s.cap.per i ∧ n = (if p.1 = e.t / 1000000000 ∧
       p.2.1 = e.t % 1000000000 / 1000 / us then p.2.2 else 0) ∧ s.get (CAP_TRIG_LIM_MAXREC i) ≠ 0 ∧ s.get (CAP_TRIG_LIM_MAXREC i) ≤ n)) &&
    (let e : CapEvent := ⟨none, 5, false, {}, [], 7⟩
     let l : List CapEvent := []
     let s : State := base
     let i := 15
     let s : State := w_capEv s (e :: l)
     let s : State := s.set (ctlEn capPage) (1)
     let s : State := s.set (CAP_TRIG_LIM_MAXREC i) (0)
     let s : State := (s.set (CAP_TRIG_CFG_TYPE i) 2).set (CAP_TRIG_CFG_REASON i) 5
     let s : State := w_cap s ({ s.cap with q := List.replicate 4096 [] })
     let us := max 1 (s.get (CAP_TRIG_LIM_PERIOD_US i))
     let p := Tbl.get (fun _ => (0, 0, 0)) s.cap.per i
     let n := (if p.1 = e.t / 1000000000 ∧ p.2.1 = e.t % 1000000000 / 1000 / us then p.2.2 else 0)
     decide (s.capEv = e :: l ∧ s.cfg (ctlEn capPage) = 1 ∧ i < 16 ∧ s.trigTakes i e = true ∧ ((∀ j, j < i → s.trigTakes j e = false)) ∧
       us = max 1 (s.get (CAP_TRIG_LIM_PERIOD_US i)) ∧ p = Tbl.get (fun _ => (0, 0, 0)) s.cap.per i ∧ n = (if p.1 = e.t / 1000000000 ∧
       p.2.1 = e.t % 1000000000 / 1000 / us then p.2.2 else 0) ∧ (s.get (CAP_TRIG_LIM_MAXREC i) = 0 ∨ n < s.get (CAP_TRIG_LIM_MAXREC i)) ∧
       (4096 ≤ s.cap.q.length ∨ s.capUnits = 0))) &&
    (let e : CapEvent := ⟨none, 5, false, {}, [], 7⟩
     let l : List CapEvent := []
     let s : State := base
     let i := 15
     let s : State := w_capEv s (e :: l)
     let s : State := s.set (ctlEn capPage) (1)
     let s : State := s.set (CAP_TRIG_LIM_MAXREC i) (0)
     let s : State := (s.set (CAP_TRIG_CFG_TYPE i) 2).set (CAP_TRIG_CFG_REASON i) 5
     let s : State := s.set (HBC_REGION_CFG_CAP_U) (3)
     let us := max 1 (s.get (CAP_TRIG_LIM_PERIOD_US i))
     let p := Tbl.get (fun _ => (0, 0, 0)) s.cap.per i
     let n := (if p.1 = e.t / 1000000000 ∧ p.2.1 = e.t % 1000000000 / 1000 / us then p.2.2 else 0)
     decide (s.capEv = e :: l ∧ s.cfg (ctlEn capPage) = 1 ∧ i < 16 ∧ s.trigTakes i e = true ∧ ((∀ j, j < i → s.trigTakes j e = false)) ∧
       us = max 1 (s.get (CAP_TRIG_LIM_PERIOD_US i)) ∧ p = Tbl.get (fun _ => (0, 0, 0)) s.cap.per i ∧ n = (if p.1 = e.t / 1000000000 ∧
       p.2.1 = e.t % 1000000000 / 1000 / us then p.2.2 else 0) ∧ (s.get (CAP_TRIG_LIM_MAXREC i) = 0 ∨ n < s.get (CAP_TRIG_LIM_MAXREC i)) ∧
       s.cap.q.length < 4096 ∧ s.capUnits ≠ 0))) = true := by
  decide +kernel

theorem witness_DumpsAndCapturesAreWritten_2 :
(
    (let s : State := base
     let s : State := w_cap s ({ s.cap with q := [] })
     decide (s.cap.q = [])) &&
    (let b : List Byte := []
     let l : List (List Byte) := []
     let s : State := base
     let k : Nat := b.length / 32
     let s : State := w_cap s ({ s.cap with q := b :: l })
     let n : Nat := s.capUnits
     let w : Nat := s.get CAP_WR_OFF
     decide (s.cap.q = b :: l ∧ n = s.capUnits ∧ w = s.get CAP_WR_OFF ∧ k = b.length / 32)) &&
    (let b : List Byte := []
     let l : List (List Byte) := []
     let s : State := base
     let k : Nat := b.length / 32
     let s : State := w_cap s ({ s.cap with q := b :: l })
     let n : Nat := s.capUnits
     let w : Nat := s.get CAP_WR_OFF
     decide (s.cap.q = b :: l ∧ n = s.capUnits ∧ w = s.get CAP_WR_OFF ∧ k = b.length / 32 ∧
       (n = 0 ∨ s.stacksUp = false ∨ (s.get CAP_CFG_FULL = 0 ∧ n - s.capUsed < k)))) &&
    (let b : List Byte := List.replicate 64 3
     let l : List (List Byte) := []
     let s : State := base
     let k : Nat := b.length / 32
     let s : State := w_cap s ({ s.cap with q := b :: l })
     let s : State := s.set CAP_CFG_FULL (1)
     let s : State := w_cap s ({ s.cap with lost := false })
     let s : State := s.set (HBC_REGION_CFG_CAP_U) (3)
     let s : State := (List.range 6).foldl (fun s h => (s.set (HBC_STAT_STATE h) 3).set (ctlEn (0xC0000 + 0x1000 * h)) 1) s
     let n : Nat := s.capUnits
     let w : Nat := s.get CAP_WR_OFF
     decide (s.cap.q = b :: l ∧ n = s.capUnits ∧ w = s.get CAP_WR_OFF ∧ k = b.length / 32 ∧ n ≠ 0 ∧ s.stacksUp = true ∧
       (s.get CAP_CFG_FULL = 1 ∨ k ≤ n - s.capUsed) ∧ k ≤ n - w ∧ s.cap.lost = false))) = true := by
  decide +kernel

theorem witness_TimeReadsCaptureOneCycle :
(
    (let i : Fin 5 := 1
     let s : State := base
     decide (s.reaches i TIM_NOW_NS = true)) &&
    (let i : Fin 5 := 1
     let s : State := base
     decide (s.reaches i TIM_PPS_IN_NS = true)) &&
    (let i : Fin 5 := 1
     let k : Fin 3 := 2
     let a : Nat := TIM_PPS_IN_SLO
     let s : State := base
     let cur : Word := s.rd TIM_PPS_IN_SLO
     decide (((k = 0 ∧ a = TIM_NOW_SLO ∧ cur = BitVec.ofNat 32 s.tb.sec) ∨ (k = 1 ∧ a = TIM_NOW_SHI ∧
       cur = BitVec.ofNat 32 (s.tb.sec / 2 ^ 32 + s.tb.frac / 2 ^ 24 * 2 ^ 16)) ∨ (k = 2 ∧ a = TIM_PPS_IN_SLO ∧ cur = s.rd TIM_PPS_IN_SLO)) ∧
       s.reaches i a = true)) &&
    (let i : Fin 5 := 1
     let addr : BitVec 27 := 4448
     let s : State := base
     decide (addr.toNat % 4 = 0 ∧ s.reaches i addr.toNat = true ∧ pairOf addr.toNat ≠ .plain ∧ blockOf addr.toNat ≠ 7)) &&
    (let i : Fin 5 := 1
     let addr : BitVec 27 := 4448
     let s : State := base
     decide (addr.toNat % 4 = 0 ∧ s.reaches i addr.toNat = true ∧ pairOf addr.toNat ≠ .plain ∧ blockOf addr.toNat ≠ 7))) = true := by
  decide +kernel

theorem witness_TheTimeBaseIsKept_1 :
(
    (let s : State := base
     let s : State := w_pending s ([])
     decide (s.pending = [])) &&
    (let i : Fin 5 := 1
     let s : State := base
     decide (s.reaches i TIM_CMD = true ∧ (s.rd TIM_ARG_NS).toNat ≤ 999999999)) &&
    (let i : Fin 5 := 1
     let s : State := base
     let s : State := s.wr TIM_ARG_NS 0x3B9ACA00
     decide (s.reaches i TIM_CMD = true ∧ 999999999 < (s.rd TIM_ARG_NS).toNat)) &&
    (let i : Fin 5 := 1
     let s : State := base
     let s : State := s.wr TIM_ARG_NS 0xFFFFFFFF
     let n : Int := (s.tbFull : Int) + sgn 32 (s.rd TIM_ARG_NS).toNat * 2 ^ 40
     decide (s.reaches i TIM_CMD = true ∧ n = (s.tbFull : Int) + sgn 32 (s.rd TIM_ARG_NS).toNat * 2 ^ 40 ∧ n < 0)) &&
    (let i : Fin 5 := 1
     let s : State := base
     let n : Int := (s.tbFull : Int) + sgn 32 (s.rd TIM_ARG_NS).toNat * 2 ^ 40
     decide (s.reaches i TIM_CMD = true ∧ n = (s.tbFull : Int) + sgn 32 (s.rd TIM_ARG_NS).toNat * 2 ^ 40 ∧ 0 ≤ n)) &&
    (let s : State := base
     let s : State := s.set TIM_STAT_LOCKED (0)
     decide (s.get TIM_STAT_LOCKED = 0)) &&
    (let s : State := base
     let s : State := s.set TIM_STAT_LOCKED (1)
     decide (s.get TIM_STAT_LOCKED = 1)) &&
    (let s : State := base
     let s : State := s.set TIM_PPS_CFG_IN_EN (0)
     decide (s.get TIM_PPS_CFG_IN_EN = 0)) &&
    (let s : State := base
     let n : Nat := 2
     let s : State := s.set TIM_PPS_CFG_IN_EN (1)
     let s : State := w_tb s (⟨0, 5, 0⟩)
     let s : State := s.set (TIM_PPS_OFS_IN_DLY) (3)
     decide (s.get TIM_PPS_CFG_IN_EN = 1 ∧ (n : Int) = (s.tbNs : Int) - sgn 16 (s.get TIM_PPS_OFS_IN_DLY))) &&
    (let s : State := base
     let s : State := s.set (ctlEn timPage) 0
     decide ((s.timOn = false ∨ s.get TIM_PPS_CFG_OUT_EN = 0))) &&
    (let s : State := base
     let s : State := s.set (ctlEn timPage) 1
     let s : State := s.set TIM_PPS_CFG_OUT_EN (1)
     let s : State := w_tim s ({ s.tim with pps := none })
     decide (s.timOn = true ∧ s.get TIM_PPS_CFG_OUT_EN = 1 ∧ s.tim.pps = none ∧
       ((s.tbNs : Int) - sgn 16 (s.get TIM_PPS_OFS_OUT_OFS)) % 1000000000 = 0)) &&
    (let s : State := base
     let t0 := 1
     let s : State := s.set (ctlEn timPage) 1
     let s : State := s.set TIM_PPS_CFG_OUT_EN (1)
     let s : State := w_tim s ({ s.tim with pps := some 1 })
     let s : State := w_tb s (⟨0, 999000002, 0⟩)
     decide (s.timOn = true ∧ s.get TIM_PPS_CFG_OUT_EN = 1 ∧ s.tim.pps = some t0 ∧
       t0 + min 999 (max 1 (s.get TIM_PPS_CFG_WIDTH_MS)) * 1000000 ≤ s.tbNs)) &&
    (let s : State := base
     let s : State := s.set (ctlEn timPage) 1
     let s : State := s.set TIM_PPS_CFG_OUT_EN (1)
     let t0 := (0 : Nat)
     let s : State := w_tim s ({ s.tim with pps := some t0 })
     match (s.tim.pps) with
     | none => false
     | some t0 =>
       decide (s.timOn = true ∧ s.get TIM_PPS_CFG_OUT_EN = 1 ∧ s.tim.pps = some t0 ∧
         s.tbNs < t0 + min 999 (max 1 (s.get TIM_PPS_CFG_WIDTH_MS)) * 1000000)) &&
    (let n : Fin 2 := 1
     let lost : Bool := true
     let s : State := base
     decide ((s.synceEn n = false ∨ (lost = false ∧ s.synceUp n = true) ∨ s.get (synceSq n) = 1)))) = true := by
  decide +kernel

theorem witness_TheTimeBaseIsKept_2 :
(
    (let n : Fin 2 := 1
     let s : State := base
     let lost : Bool := true
     let s : State := s.set (synceSq n) (0)
     let s : State := s.set (if n.val = 0 then TIM_SYNCE_EN0 else TIM_SYNCE_EN1) 1
     decide (s.synceEn n = true ∧ (lost = true ∨ s.synceUp n = false) ∧ s.get (synceSq n) = 0)) &&
    (let n : Fin 2 := 1
     let s : State := base
     decide (s.synceUp n = false)) &&
    (let n : Fin 2 := 1
     let s : State := base
     let s : State := (s.set (PRT_PORT_STAT_UP 0 0) 1).set (PRT_SLICE_MODE_MODE 0) 1
     decide (s.synceUp n = true)) &&
    (let s : State := base
     let s : State := s.set (ctlEn timPage) 0
     decide ((s.timOn = false ∨ s.timRole = 0 ∨ s.now - s.tim.sentAt < s.timeUs * 1000))) &&
    (let s : State := base
     let d := 15
     let s : State := s.set (ctlEn timPage) 1
     let s : State := s.set TIM_CFG_ROLE 2
     let s : State := s.set (TIM_STAT_DEPTH) (15)
     decide (s.timOn = true ∧ ((s.timRole = 1 ∧ d = 0) ∨ (s.timRole = 2 ∧ d = min 15 (s.get TIM_STAT_DEPTH + 1))) ∧
       s.timeUs * 1000 ≤ s.now - s.tim.sentAt)) &&
    (let s : State := base
     let s : State := s.set (ctlEn timPage) 0
     decide ((s.timOn = false ∨ s.timRole ≠ 2 ∨ s.get TIM_STAT_HOLDOVER = 1 ∨ s.now - s.tim.lastAt < 1000000))) &&
    (let s : State := base
     let s : State := s.set (ctlEn timPage) 1
     let s : State := s.set TIM_STAT_HOLDOVER (0)
     let s : State := s.set TIM_CFG_ROLE 2
     decide (s.timOn = true ∧ s.timRole = 2 ∧ s.get TIM_STAT_HOLDOVER = 0 ∧ 1000000 ≤ s.now - s.tim.lastAt)) &&
    (let m : CtlMsg := ⟨3, 0, 0, List.replicate 16 0⟩
     let l : List CtlMsg := []
     let s : State := base
     let s : State := w_cly s ({ s.cly with inbox := m :: l })
     decide (s.cly.inbox = m :: l ∧ byteAt m.b 0 ≠ 4)) &&
    (let m : CtlMsg := ⟨3, 0, 0, List.replicate 16 0⟩
     let l : List CtlMsg := []
     let s : State := base
     let m := { m with b := setB m.b 0 (4) }
     let s : State := w_cly s ({ s.cly with inbox := m :: l })
     let s : State := s.set (ctlEn timPage) 0
     decide (s.cly.inbox = m :: l ∧ byteAt m.b 0 = 4 ∧ (s.timOn = false ∨ s.timRole ≠ 2))) &&
    (let m : CtlMsg := ⟨3, 0, 0, List.replicate 16 0⟩
     let l : List CtlMsg := []
     let s : State := base
     let m := { m with b := setB m.b 0 (4) }
     let s : State := w_cly s ({ s.cly with inbox := m :: l })
     let s : State := s.set (ctlEn timPage) 1
     let s : State := s.set TIM_CFG_ROLE 2
     let s' : State := { s with tim := { s.tim with heard := Tbl.set (fun _ => none) s.tim.heard m.link (some (byteAt m.b 1 % 16, s.now)), lastAt := s.now } }
     let e : Int := (((leNat (bytesAt m.b 8 6) * 1000000000 + leNat (bytesAt m.b 4 4)) * 2 ^ 16 + leNat (bytesAt m.b 2 2) + s.get (CLY_LINK_DLY_DLY (m.link / 32) (m.link % 32)) * 256 : Nat) : Int) - (m.t * 2 ^ 16 : Nat)
     decide (s.cly.inbox = m :: l ∧ byteAt m.b 0 = 4 ∧ s.timOn = true ∧ s.timRole = 2 ∧
       s' = { s with tim := { s.tim with heard := Tbl.set (fun _ => none) s.tim.heard m.link (some (byteAt m.b 1 % 16, s.now)), lastAt := s.now } } ∧
       e = (((leNat (bytesAt m.b 8 6) * 1000000000 + leNat (bytesAt m.b 4 4)) * 2 ^ 16 + leNat (bytesAt m.b 2 2) + s.get (CLY_LINK_DLY_DLY (m.link / 32) (m.link % 32)) * 256 : Nat) : Int) - (m.t * 2 ^ 16 : Nat) ∧
       s'.timeLink ≠ some m.link)) &&
    (let m : CtlMsg := ⟨3, 0, 0, List.replicate 16 0⟩
     let l : List CtlMsg := []
     let s : State := base
     let m := { m with t := 9, b := setB m.b 4 200 }
     let m := { m with b := setB m.b 0 (4) }
     let s : State := w_cly s ({ s.cly with inbox := m :: l })
     let s : State := s.set (ctlEn timPage) 1
     let s : State := s.set TIM_CFG_ROLE 2
     let s : State := s.set (CLY_LINK_STAT_STATE (m.link / 32) (m.link % 32)) 3
     let s : State := s.set TIM_CFG_STEP_THR 5
     let s' : State := { s with tim := { s.tim with heard := Tbl.set (fun _ => none) s.tim.heard m.link (some (byteAt m.b 1 % 16, s.now)), lastAt := s.now } }
     let e : Int := (((leNat (bytesAt m.b 8 6) * 1000000000 + leNat (bytesAt m.b 4 4)) * 2 ^ 16 + leNat (bytesAt m.b 2 2) + s.get (CLY_LINK_DLY_DLY (m.link / 32) (m.link % 32)) * 256 : Nat) : Int) - (m.t * 2 ^ 16 : Nat)
     decide (s.cly.inbox = m :: l ∧ byteAt m.b 0 = 4 ∧ s.timOn = true ∧ s.timRole = 2 ∧
       s' = { s with tim := { s.tim with heard := Tbl.set (fun _ => none) s.tim.heard m.link (some (byteAt m.b 1 % 16, s.now)), lastAt := s.now } } ∧
       e = (((leNat (bytesAt m.b 8 6) * 1000000000 + leNat (bytesAt m.b 4 4)) * 2 ^ 16 + leNat (bytesAt m.b 2 2) + s.get (CLY_LINK_DLY_DLY (m.link / 32) (m.link % 32)) * 256 : Nat) : Int) - (m.t * 2 ^ 16 : Nat) ∧
       s'.timeLink = some m.link ∧ s.get TIM_CFG_STEP_THR * 65536 < e.natAbs ∧ 0 ≤ (s.tbFull : Int) + e * 2 ^ 24)) &&
    (let m : CtlMsg := ⟨3, 0, 0, List.replicate 16 0⟩
     let l : List CtlMsg := []
     let s : State := base
     let m := { m with b := setB m.b 0 (4) }
     let s : State := w_cly s ({ s.cly with inbox := m :: l })
     let s : State := s.set (ctlEn timPage) 1
     let s : State := s.set TIM_CFG_ROLE 2
     let s : State := s.set (CLY_LINK_STAT_STATE (m.link / 32) (m.link % 32)) 3
     let s' : State := { s with tim := { s.tim with heard := Tbl.set (fun _ => none) s.tim.heard m.link (some (byteAt m.b 1 % 16, s.now)), lastAt := s.now } }
     let e : Int := (((leNat (bytesAt m.b 8 6) * 1000000000 + leNat (bytesAt m.b 4 4)) * 2 ^ 16 + leNat (bytesAt m.b 2 2) + s.get (CLY_LINK_DLY_DLY (m.link / 32) (m.link % 32)) * 256 : Nat) : Int) - (m.t * 2 ^ 16 : Nat)
     decide (s.cly.inbox = m :: l ∧ byteAt m.b 0 = 4 ∧ s.timOn = true ∧ s.timRole = 2 ∧
       s' = { s with tim := { s.tim with heard := Tbl.set (fun _ => none) s.tim.heard m.link (some (byteAt m.b 1 % 16, s.now)), lastAt := s.now } } ∧
       e = (((leNat (bytesAt m.b 8 6) * 1000000000 + leNat (bytesAt m.b 4 4)) * 2 ^ 16 + leNat (bytesAt m.b 2 2) + s.get (CLY_LINK_DLY_DLY (m.link / 32) (m.link % 32)) * 256 : Nat) : Int) - (m.t * 2 ^ 16 : Nat) ∧
       s'.timeLink = some m.link ∧ e.natAbs ≤ s.get TIM_CFG_STEP_THR * 65536))) = true := by
  decide +kernel

theorem witness_RaisesAreRecordedAndReactedTo :
(
    (let s : State := base
     let s : State := w_raises s ([])
     decide (s.raises = [])) &&
    (let r1 : Raise := ⟨70, 0, 0, 0, 0, 0, 0, 0⟩
     let r2 : Raise := ⟨69, 0, 0, 0, 0, 0, 0, 0⟩
     let l : List Raise := []
     let s : State := base
     let s : State := w_raises s (r1 :: r2 :: l)
     decide (s.raises = r1 :: r2 :: l ∧ s.raiseBefore r2 r1 = true ∧ r2.src / 64 < 24)) &&
    (let r : Raise := ⟨1536, 0, 0, 0, 0, 0, 0, 0⟩
     let l : List Raise := []
     let s : State := base
     let s : State := w_raises s (r :: l)
     decide (s.raises = r :: l ∧ 24 ≤ r.src / 64)) &&
    (let r : Raise := ⟨70, 0, 1, 2, 3, 4, 5, 6⟩
     let l : List Raise := []
     let s : State := base
     let s : State := w_raises s (r :: l)
     decide (s.raises = r :: l)) &&
    (let r : Raise := ⟨70, 0, 1, 2, 3, 4, 5, 6⟩
     let l : List Raise := []
     let s : State := base
     let b : Nat := r.src / 64
     let pg : Nat := blockBase b + 0x1000 * r.inst
     let s : State := w_raises s (r :: l)
     let p := (0 : Nat)
     let s : State := w_flt s ({ s.flt with chipPend := some p })
     let x : FltSrc := s.fsrc r.src
     match (s.flt.chipPend) with
     | none => false
     | some p =>
       decide (s.raises = r :: l ∧ b = r.src / 64 ∧ b < 24 ∧ x = s.fsrc r.src ∧ pg = blockBase b + 0x1000 * r.inst ∧
         s.flt.chipPend = some p)) &&
    (let r : Raise := ⟨70, 0, 1, 2, 3, 4, 5, 6⟩
     let l : List Raise := []
     let s : State := base
     let b : Nat := r.src / 64
     let pg : Nat := blockBase b + 0x1000 * r.inst
     let s : State := w_raises s (r :: l)
     let s : State := w_flt s ({ s.flt with chipPend := none })
     let s : State := w_flt s ({ s.flt with src := Tbl.set (fun _ => {}) s.flt.src r.src { s.fsrc r.src with react := 6 } })
     let x : FltSrc := s.fsrc r.src
     decide (s.raises = r :: l ∧ b = r.src / 64 ∧ b < 24 ∧ x = s.fsrc r.src ∧ pg = blockBase b + 0x1000 * r.inst ∧ s.flt.chipPend = none ∧
       x.reaction b = 6)) &&
    (let r : Raise := ⟨70, 0, 1, 2, 3, 4, 5, 6⟩
     let l : List Raise := []
     let s : State := base
     let b : Nat := r.src / 64
     let pg : Nat := blockBase b + 0x1000 * r.inst
     let s : State := w_raises s (r :: l)
     let s : State := w_flt s ({ s.flt with chipPend := none })
     let s : State := w_flt s ({ s.flt with src := Tbl.set (fun _ => {}) s.flt.src r.src { s.fsrc r.src with ireact := 0 } })
     let s : State := w_flt s ({ s.flt with src := Tbl.set (fun _ => {}) s.flt.src r.src { s.fsrc r.src with noShadow := false } })
     let s : State := w_flt s ({ s.flt with shadows := [({ blk := b, page := 7, seq := 99, since := 0 } : Shadow)] })
     let x : FltSrc := s.fsrc r.src
     match (s.shadowOf b) with
     | none => false
     | some sh =>
       decide (s.raises = r :: l ∧ b = r.src / 64 ∧ b < 24 ∧ x = s.fsrc r.src ∧ pg = blockBase b + 0x1000 * r.inst ∧ s.flt.chipPend = none ∧
         x.reaction b ≠ 6 ∧ x.ireact = 0 ∧ x.noShadow = false ∧ s.shadowOf b = some sh)) &&
    (let r : Raise := ⟨70, 0, 1, 2, 3, 4, 5, 6⟩
     let l : List Raise := []
     let s : State := base
     let b : Nat := r.src / 64
     let pg : Nat := blockBase b + 0x1000 * r.inst
     let s : State := w_raises s (r :: l)
     let s : State := w_flt s ({ s.flt with chipPend := none })
     let s : State := w_flt s ({ s.flt with src := Tbl.set (fun _ => {}) s.flt.src r.src { s.fsrc r.src with escN := 0 } })
     let s : State := w_flt s ({ s.flt with src := Tbl.set (fun _ => {}) s.flt.src r.src { s.fsrc r.src with ireact := 5, react := 1, seq := 8 } })
     let x : FltSrc := s.fsrc r.src
     decide (s.raises = r :: l ∧ b = r.src / 64 ∧ b < 24 ∧ x = s.fsrc r.src ∧ pg = blockBase b + 0x1000 * r.inst ∧ s.flt.chipPend = none ∧
       x.ireact ≠ 0 ∧ x.reaction b ≤ x.ireact ∧ (x.escN = 0 ∨ min 15 (x.repeats + 1) < x.escN ∨ x.escalation b ≤ x.ireact) ∧ x.reaction b ≠ 6)) &&
    (let r : Raise := ⟨70, 0, 1, 2, 3, 4, 5, 6⟩
     let l : List Raise := []
     let s : State := base
     let b : Nat := r.src / 64
     let pg : Nat := blockBase b + 0x1000 * r.inst
     let s : State := w_raises s (r :: l)
     let s : State := w_flt s ({ s.flt with chipPend := none })
     let s : State := w_flt s ({ s.flt with src := Tbl.set (fun _ => {}) s.flt.src r.src { s.fsrc r.src with ireact := 0 } })
     let s : State := w_flt s ({ s.flt with src := Tbl.set (fun _ => {}) s.flt.src r.src { s.fsrc r.src with noShadow := true } })
     let s : State := s.set (ctlEn fltPage) (0)
     let x : FltSrc := s.fsrc r.src
     let c := (if x.ireact = 0 ∨ x.ireact < x.reaction b then x.reaction b else x.escalation b)
     decide (s.raises = r :: l ∧ b = r.src / 64 ∧ b < 24 ∧ x = s.fsrc r.src ∧ pg = blockBase b + 0x1000 * r.inst ∧ s.flt.chipPend = none ∧
       ((x.ireact = 0 ∧ (x.noShadow = true ∨ s.shadowOf b = none)) ∨ (x.ireact ≠ 0 ∧ x.ireact < x.reaction b) ∨ (x.ireact ≠ 0 ∧
       x.reaction b ≤ x.ireact ∧ x.escN ≠ 0 ∧ x.escN ≤ min 15 (x.repeats + 1) ∧ x.ireact < x.escalation b ∧ x.escalation b ≠ 6)) ∧
       x.reaction b ≠ 6 ∧ (c = (if x.ireact = 0 ∨ x.ireact < x.reaction b then x.reaction b else x.escalation b)) ∧
       (s.get (ctlEn fltPage) = 0 ∨ c = 0))) &&
    (let r : Raise := ⟨70, 0, 1, 2, 3, 4, 5, 6⟩
     let l : List Raise := []
     let s : State := base
     let b : Nat := r.src / 64
     let pg : Nat := blockBase b + 0x1000 * r.inst
     let s : State := w_raises s (r :: l)
     let s : State := w_flt s ({ s.flt with chipPend := none })
     let s : State := w_flt s ({ s.flt with src := Tbl.set (fun _ => {}) s.flt.src r.src { s.fsrc r.src with ireact := 0 } })
     let s : State := w_flt s ({ s.flt with src := Tbl.set (fun _ => {}) s.flt.src r.src { s.fsrc r.src with noShadow := true } })
     let s : State := s.set (ctlEn fltPage) (1)
     let s : State := w_flt s ({ s.flt with src := Tbl.set (fun _ => {}) s.flt.src r.src { s.fsrc r.src with react := 1 } })
     let x : FltSrc := s.fsrc r.src
     let c := (if x.ireact = 0 ∨ x.ireact < x.reaction b then x.reaction b else x.escalation b)
     decide (s.raises = r :: l ∧ b = r.src / 64 ∧ b < 24 ∧ x = s.fsrc r.src ∧ pg = blockBase b + 0x1000 * r.inst ∧ s.flt.chipPend = none ∧
       ((x.ireact = 0 ∧ (x.noShadow = true ∨ s.shadowOf b = none)) ∨ (x.ireact ≠ 0 ∧ x.ireact < x.reaction b) ∨ (x.ireact ≠ 0 ∧
       x.reaction b ≤ x.ireact ∧ x.escN ≠ 0 ∧ x.escN ≤ min 15 (x.repeats + 1) ∧ x.ireact < x.escalation b ∧ x.escalation b ≠ 6)) ∧
       x.reaction b ≠ 6 ∧ (c = (if x.ireact = 0 ∨ x.ireact < x.reaction b then x.reaction b else x.escalation b)) ∧ s.get (ctlEn fltPage) = 1 ∧
       c = 1)) &&
    (let r : Raise := ⟨70, 0, 1, 2, 3, 4, 5, 6⟩
     let l : List Raise := []
     let s : State := base
     let b : Nat := r.src / 64
     let pg : Nat := blockBase b + 0x1000 * r.inst
     let s : State := w_raises s (r :: l)
     let s : State := w_flt s ({ s.flt with chipPend := none })
     let s : State := w_flt s ({ s.flt with src := Tbl.set (fun _ => {}) s.flt.src r.src { s.fsrc r.src with ireact := 0 } })
     let s : State := w_flt s ({ s.flt with src := Tbl.set (fun _ => {}) s.flt.src r.src { s.fsrc r.src with noShadow := true } })
     let s : State := s.set (ctlEn fltPage) (1)
     let s : State := w_flt s ({ s.flt with src := Tbl.set (fun _ => {}) s.flt.src r.src { s.fsrc r.src with react := 2 } })
     let x : FltSrc := s.fsrc r.src
     let c := (if x.ireact = 0 ∨ x.ireact < x.reaction b then x.reaction b else x.escalation b)
     decide (s.raises = r :: l ∧ b = r.src / 64 ∧ b < 24 ∧ x = s.fsrc r.src ∧ pg = blockBase b + 0x1000 * r.inst ∧ s.flt.chipPend = none ∧
       ((x.ireact = 0 ∧ (x.noShadow = true ∨ s.shadowOf b = none)) ∨ (x.ireact ≠ 0 ∧ x.ireact < x.reaction b) ∨ (x.ireact ≠ 0 ∧
       x.reaction b ≤ x.ireact ∧ x.escN ≠ 0 ∧ x.escN ≤ min 15 (x.repeats + 1) ∧ x.ireact < x.escalation b ∧ x.escalation b ≠ 6)) ∧
       x.reaction b ≠ 6 ∧ (c = (if x.ireact = 0 ∨ x.ireact < x.reaction b then x.reaction b else x.escalation b)) ∧ s.get (ctlEn fltPage) = 1 ∧
       c = 2)) &&
    (let r : Raise := ⟨70, 0, 1, 2, 3, 4, 5, 6⟩
     let l : List Raise := []
     let s : State := base
     let b : Nat := r.src / 64
     let pg : Nat := blockBase b + 0x1000 * r.inst
     let s : State := w_raises s (r :: l)
     let s : State := w_flt s ({ s.flt with chipPend := none })
     let s : State := w_flt s ({ s.flt with src := Tbl.set (fun _ => {}) s.flt.src r.src { s.fsrc r.src with ireact := 0 } })
     let s : State := w_flt s ({ s.flt with src := Tbl.set (fun _ => {}) s.flt.src r.src { s.fsrc r.src with noShadow := true } })
     let s : State := s.set (ctlEn fltPage) (1)
     let s : State := w_flt s ({ s.flt with src := Tbl.set (fun _ => {}) s.flt.src r.src { s.fsrc r.src with react := 3 } })
     let x : FltSrc := s.fsrc r.src
     let c := (if x.ireact = 0 ∨ x.ireact < x.reaction b then x.reaction b else x.escalation b)
     decide (s.raises = r :: l ∧ b = r.src / 64 ∧ b < 24 ∧ x = s.fsrc r.src ∧ pg = blockBase b + 0x1000 * r.inst ∧ s.flt.chipPend = none ∧
       ((x.ireact = 0 ∧ (x.noShadow = true ∨ s.shadowOf b = none)) ∨ (x.ireact ≠ 0 ∧ x.ireact < x.reaction b) ∨ (x.ireact ≠ 0 ∧
       x.reaction b ≤ x.ireact ∧ x.escN ≠ 0 ∧ x.escN ≤ min 15 (x.repeats + 1) ∧ x.ireact < x.escalation b ∧ x.escalation b ≠ 6)) ∧
       x.reaction b ≠ 6 ∧ (c = (if x.ireact = 0 ∨ x.ireact < x.reaction b then x.reaction b else x.escalation b)) ∧ s.get (ctlEn fltPage) = 1 ∧
       c = 3 ∧ s.resetting pg = false ∧ (resetPages b r.inst).any s.resetting = false ∧ b ≠ 19)) &&
    (let r : Raise := ⟨70, 0, 1, 2, 3, 4, 5, 6⟩
     let l : List Raise := []
     let s : State := base
     let b : Nat := r.src / 64
     let pg : Nat := blockBase b + 0x1000 * r.inst
     let s : State := w_raises s (r :: l)
     let s : State := w_flt s ({ s.flt with chipPend := none })
     let s : State := w_flt s ({ s.flt with src := Tbl.set (fun _ => {}) s.flt.src r.src { s.fsrc r.src with ireact := 0 } })
     let s : State := w_flt s ({ s.flt with src := Tbl.set (fun _ => {}) s.flt.src r.src { s.fsrc r.src with noShadow := true } })
     let s : State := s.set (ctlEn fltPage) (1)
     let s : State := w_flt s ({ s.flt with src := Tbl.set (fun _ => {}) s.flt.src r.src { s.fsrc r.src with react := 4 } })
     let x : FltSrc := s.fsrc r.src
     let c := (if x.ireact = 0 ∨ x.ireact < x.reaction b then x.reaction b else x.escalation b)
     decide (s.raises = r :: l ∧ b = r.src / 64 ∧ b < 24 ∧ x = s.fsrc r.src ∧ pg = blockBase b + 0x1000 * r.inst ∧ s.flt.chipPend = none ∧
       ((x.ireact = 0 ∧ (x.noShadow = true ∨ s.shadowOf b = none)) ∨ (x.ireact ≠ 0 ∧ x.ireact < x.reaction b) ∨ (x.ireact ≠ 0 ∧
       x.reaction b ≤ x.ireact ∧ x.escN ≠ 0 ∧ x.escN ≤ min 15 (x.repeats + 1) ∧ x.ireact < x.escalation b ∧ x.escalation b ≠ 6)) ∧
       x.reaction b ≠ 6 ∧ (c = (if x.ireact = 0 ∨ x.ireact < x.reaction b then x.reaction b else x.escalation b)) ∧ s.get (ctlEn fltPage) = 1 ∧
       4 ≤ c ∧ c ≤ 5))) = true := by
  decide +kernel

theorem witness_FaultCommandsEndReactions :
(
    (let s : State := base
     decide (((∀ x ∈ s.flt.shadows, ∀ d, x.done = some d → s.now < d + s.shadowUs * 1000)))) &&
    (let s : State := base
     let s : State := w_flt s ({ s.flt with shadows := [{ blk := 9, page := 7, seq := 99, since := 0, done := some 5 }] })
     match (s.flt.shadows) with
     | [] => false
     | x :: _ =>
       let l := (s.flt.shadows).tail
       match (x.done) with
       | none => false
       | some d =>
         decide (s.flt.shadows = x :: l ∧ x.done = some d ∧ d + s.shadowUs * 1000 ≤ s.now)) &&
    (let i : Fin 5 := 1
     let s : State := base
     decide (s.reaches i FLT_NMT = true)) &&
    (let i : Fin 5 := 1
     let s : State := base
     let s : State := w_safe s (true)
     decide (s.reaches i FLT_PIN = true ∧ s.safe = true)) &&
    (let i : Fin 5 := 1
     let s : State := base
     let s : State := w_safe s (false)
     decide (s.reaches i FLT_PIN = true ∧ s.safe = false)) &&
    (let i : Fin 5 := 1
     let s : State := base
     let s : State := w_safe s (false)
     decide (s.reaches i FLT_PIN = true ∧ (s.safe = false ∨ s.aon.conds ≠ []))) &&
    (let i : Fin 5 := 1
     let s : State := base
     let s : State := w_safe s (true)
     let s : State := w_aon s ({ s.aon with conds := [] })
     decide (s.reaches i FLT_PIN = true ∧ s.safe = true ∧ s.aon.conds = [])) &&
    (let i : Fin 5 := 1
     let s : State := base
     decide (s.reaches i FLT_FIRST_CTL = true)) &&
    (let i : Fin 5 := 1
     let w : Word := 0
     let s : State := base
     let n : Nat := w.toNat % 256
     let ws : List Word := Tbl.get (fun _ => []) s.flt.recs n
     decide (s.reaches i FLT_REC_SEL = true ∧ n = w.toNat % 256 ∧ ws = Tbl.get (fun _ => []) s.flt.recs n)) &&
    (let i : Fin 5 := 1
     let w : Word := 0
     let s : State := base
     let n : Nat := w.toNat % 256
     let ws : List Word := Tbl.get (fun _ => []) s.flt.recs n
     decide (s.reaches i FLT_REC_SEL = true ∧ n = w.toNat % 256 ∧ ws = Tbl.get (fun _ => []) s.flt.recs n))) = true := by
  decide +kernel

theorem witness_TheIslandKeepsItsTargets_1 :
(
    (let s : State := base
     let s : State := w_aon s ({ s.aon with tickAt := s.now })
     decide (s.now - s.aon.tickAt < 640 * max 1 (s.get AON_CFG_TICK))) &&
    (let s : State := base
     decide (640 * max 1 (s.get AON_CFG_TICK) ≤ s.now - s.aon.tickAt)) &&
    (let s : State := base
     decide (640 * max 1 (s.get AON_CFG_TICK) ≤ s.now - s.aon.tickAt)) &&
    (let s : State := base
     let s : State := w_aon s ({ s.aon with only := true })
     let q : Nat := (s.aon.starts.filter fun x => decide (s.now < x + 10000)).length
     decide (q = (s.aon.starts.filter fun x => decide (s.now < x + 10000)).length ∧
       (s.aon.only = true ∨ min 4 (max 1 (s.get AON_CFG_WAKE_MAX)) ≤ q ∨ s.nextWake = none))) &&
    (let s : State := base
     let n := 63
     let last := false
     let s : State := w_aon s ({ s.aon with only := false })
     let s : State := (s.set CST_STAT_STATE 0).set (WKS_STAT_STATE 63) 0
     let s : State := w_aon s ({ s.aon with cstWake := [63] })
     let q : Nat := (s.aon.starts.filter fun x => decide (s.now < x + 10000)).length
     decide (q = (s.aon.starts.filter fun x => decide (s.now < x + 10000)).length ∧ s.aon.only = false ∧
       q < min 4 (max 1 (s.get AON_CFG_WAKE_MAX)) ∧ s.nextWake = some (n, last))) &&
    (let s : State := base
     let l := (s.aon.cstWake).tail
     let n := (63 : Nat)
     let s : State := w_aon s ({ s.aon with cstWake := n :: l })
     let q : Nat := (s.aon.starts.filter fun x => decide (s.now < x + 10000)).length
     match (s.aon.cstWake) with
     | [] => false
     | n :: _ =>
       let l := (s.aon.cstWake).tail
       decide (q = (s.aon.starts.filter fun x => decide (s.now < x + 10000)).length ∧ s.aon.cstWake = n :: l ∧ s.wakeable n = true ∧
         s.sliceFree n = true)) &&
    (let s : State := base
     let n := 63
     let last := false
     let s : State := (s.set CST_STAT_STATE 0).set (WKS_STAT_STATE 63) 0
     let s : State := w_aon s ({ s.aon with cstWake := [63] })
     let q : Nat := (s.aon.starts.filter fun x => decide (s.now < x + 10000)).length
     decide (q = (s.aon.starts.filter fun x => decide (s.now < x + 10000)).length ∧ s.nextWake = some (n, last))) &&
    (let s : State := base
     let n := 63
     let last := false
     let s : State := (s.set CST_STAT_STATE 0).set (WKS_STAT_STATE 63) 0
     let s : State := w_aon s ({ s.aon with cstWake := [63] })
     let q : Nat := (s.aon.starts.filter fun x => decide (s.now < x + 10000)).length
     decide (q = (s.aon.starts.filter fun x => decide (s.now < x + 10000)).length ∧ s.nextWake = some (n, last))) &&
    (let w : Fin 64 := 63
     let s : State := base
     decide ((s.wksState w ≠ 1 ∨ s.now - Tbl.get (fun _ => 0) s.wks.wakeAt w.val < 20000))) &&
    (let w : Fin 64 := 63
     let s : State := base
     let s : State := s.set (WKS_STAT_STATE w) (1)
     let s : State := s.set CST_STAT_STATE (0)
     decide (s.wksState w = 1 ∧ 20000 ≤ s.now - Tbl.get (fun _ => 0) s.wks.wakeAt w.val ∧ s.get CST_STAT_STATE = 0)) &&
    (let sl : Fin 16 := 15
     let s : State := base
     decide (s.levelChange sl = none)) &&
    (let sl : Fin 16 := 15
     let s : State := base
     let l := 4
     let due := 10 ^ 12 + 5
     let s : State := w_aon s ({ s.aon with change := [(15, some (4, s.now + 5))] })
     decide (s.levelChange sl = some (l, due) ∧ s.now < due)) &&
    (let sl : Fin 16 := 15
     let s : State := base
     let l := 4
     let due := 10 ^ 12
     let s : State := w_aon s ({ s.aon with change := [(15, some (4, s.now))] })
     let s : State := w_aon s ({ s.aon with ltgt := [(15, 4)] })
     decide (s.levelChange sl = some (l, due) ∧ due ≤ s.now ∧ l ≤ 5 ∧ s.levelTarget sl = l)) &&
    (let s : State := base
     let s : State := w_aon s ({ s.aon with cperAt := s.now })
     decide (s.now - s.aon.cperAt < 1000000 * max 1 (s.get AON_COOL_SP_CPER_MS)))) = true := by
  decide +kernel

theorem witness_TheIslandKeepsItsTargets_2 :
(
    (let s : State := base
     let s : State := s.set (ctlEn aonPage) (0)
     decide (1000000 * max 1 (s.get AON_COOL_SP_CPER_MS) ≤ s.now - s.aon.cperAt ∧ (s.get (ctlEn aonPage) = 0 ∨ s.get AON_CFG_COOL_EN = 0))) &&
    (let s : State := base
     let s : State := s.set (ctlEn aonPage) (1)
     let s : State := s.set AON_CFG_COOL_EN (1)
     let e : Int := (s.get (AON_CH_VAL_F (s.get AON_COOL_CTL_CH)) : Int) - s.get AON_COOL_SP_SP
     let u : Int := ((s.get AON_COOL_CTL_KP : Int) * e) / 16 + s.aon.integ / 256 + ((s.get AON_FF_KFF * s.powerSum / 2 ^ 14 : Nat) : Int) + s.get AON_COOL_LIM_DBASE
     decide (1000000 * max 1 (s.get AON_COOL_SP_CPER_MS) ≤ s.now - s.aon.cperAt ∧ s.get (ctlEn aonPage) = 1 ∧ s.get AON_CFG_COOL_EN = 1 ∧
       e = (s.get (AON_CH_VAL_F (s.get AON_COOL_CTL_CH)) : Int) - s.get AON_COOL_SP_SP ∧
       u = ((s.get AON_COOL_CTL_KP : Int) * e) / 16 + s.aon.integ / 256 + ((s.get AON_FF_KFF * s.powerSum / 2 ^ 14 : Nat) : Int) + s.get AON_COOL_LIM_DBASE ∧
       -4096 ≤ u ∧ u ≤ 4095)) &&
    (let k : Fin 4 := 3
     let n : Nat := 1
     let s : State := base
     let rpm : Nat := n * 240 / (s.get (AON_TACH_CFG_PPR_at k) + 1)
     decide (rpm = n * 240 / (s.get (AON_TACH_CFG_PPR_at k) + 1))) &&
    (let k : Fin 26 := 25
     let v : BitVec 16 := 1
     let s : State := base
     let c : Nat × Nat := (if k.val < 20 then (2, k.val) else (3, k.val - 20))
     let s : State := s.set (AON_TSAFE_HBM) (1)
     let s : State := w_aon s ({ s.aon with high := [(25, 1)] })
     let thr : Nat := (if k.val < 20 then s.get AON_TSAFE_DIE else s.get AON_TSAFE_HBM)
     decide (thr = (if k.val < 20 then s.get AON_TSAFE_DIE else s.get AON_TSAFE_HBM) ∧
       c = (if k.val < 20 then (2, k.val) else (3, k.val - 20)) ∧ thr ≤ v.toNat ∧ 1 ≤ Tbl.get (fun _ => 0) s.aon.high k.val ∧ c ∉ s.aon.conds)) &&
    (let k : Fin 26 := 25
     let v : BitVec 16 := 1
     let s : State := base
     let c : Nat × Nat := (if k.val < 20 then (2, k.val) else (3, k.val - 20))
     let s : State := s.set (AON_TSAFE_HBM) (2)
     let s : State := w_aon s ({ s.aon with low := [(25, 1)] })
     let thr : Nat := (if k.val < 20 then s.get AON_TSAFE_DIE else s.get AON_TSAFE_HBM)
     decide (thr = (if k.val < 20 then s.get AON_TSAFE_DIE else s.get AON_TSAFE_HBM) ∧
       c = (if k.val < 20 then (2, k.val) else (3, k.val - 20)) ∧ v.toNat < thr ∧ 1 ≤ Tbl.get (fun _ => 0) s.aon.low k.val)) &&
    (let k : Fin 26 := 25
     let v : BitVec 16 := 1
     let s : State := base
     let c : Nat × Nat := (if k.val < 20 then (2, k.val) else (3, k.val - 20))
     let thr : Nat := (if k.val < 20 then s.get AON_TSAFE_DIE else s.get AON_TSAFE_HBM)
     decide (thr = (if k.val < 20 then s.get AON_TSAFE_DIE else s.get AON_TSAFE_HBM) ∧
       c = (if k.val < 20 then (2, k.val) else (3, k.val - 20)) ∧ ((thr ≤ v.toNat ∧
       Tbl.get (fun _ => 0) s.aon.high k.val = 0) ∨ (v.toNat < thr ∧ Tbl.get (fun _ => 0) s.aon.low k.val = 0)))) &&
    (let k : Fin 26 := 25
     let s : State := base
     let c : Nat × Nat := (if k.val < 20 then (2, k.val) else (3, k.val - 20))
     let s : State := w_aon s ({ s.aon with tempAt := [(25, s.now)] })
     let thr : Nat := (if k.val < 20 then s.get AON_TSAFE_DIE else s.get AON_TSAFE_HBM)
     decide (thr = (if k.val < 20 then s.get AON_TSAFE_DIE else s.get AON_TSAFE_HBM) ∧
       c = (if k.val < 20 then (2, k.val) else (3, k.val - 20)) ∧ s.now - Tbl.get (fun _ => 0) s.aon.tempAt k.val < 1000000)) &&
    (let k : Fin 26 := 25
     let s : State := base
     let c : Nat × Nat := (if k.val < 20 then (2, k.val) else (3, k.val - 20))
     let thr : Nat := (if k.val < 20 then s.get AON_TSAFE_DIE else s.get AON_TSAFE_HBM)
     decide (thr = (if k.val < 20 then s.get AON_TSAFE_DIE else s.get AON_TSAFE_HBM) ∧
       c = (if k.val < 20 then (2, k.val) else (3, k.val - 20)) ∧ 1000000 ≤ s.now - Tbl.get (fun _ => 0) s.aon.tempAt k.val)) &&
    (let i : Fin 5 := 1
     let s : State := base
     let sl : Fin 16 := 15
     let s : State := s.set (PRT_SLICE_MODE_MODE sl) (if (0) = 0 then 1 else 0)
     decide (s.reaches i AON_CMD = true ∧ s.get (PRT_SLICE_MODE_MODE sl) ≠ 0)) &&
    (let i : Fin 5 := 1
     let s : State := base
     decide (s.reaches i AON_CMD = true ∧ (∀ sl : Fin 16, s.get (PRT_SLICE_MODE_MODE sl) = 0))) &&
    (let i : Fin 5 := 1
     let s : State := base
     decide (s.reaches i AON_CMD = true)) &&
    (let s : State := base
     let s : State := w_aon s ({ s.aon with only := false })
     decide (s.aon.only = false)) &&
    (let s : State := base
     let s : State := w_aon s ({ s.aon with only := true })
     decide (s.aon.only = true)) &&
    (let s : State := base
     let s : State := s.set (FLT_NMT_PEND) (1)
     decide (((s.candidate 256).isSome = true ∨ s.get FLT_NMT_PEND = 1 ∨ (∃ r : Fin 128, bit (s.rd (AON_RULE_HELD (r / 32))).toNat (r % 32) = true ∧
       s.cfg (AON_RULE2_ACT r) = 7))))) = true := by
  decide +kernel

theorem witness_TheIslandKeepsItsTargets_3 :
    (let s : State := base
     let s : State := s.set FLT_NMT_PEND (0)
     decide (s.candidate 256 = none ∧ s.get FLT_NMT_PEND = 0 ∧
       ((∀ r : Fin 128, bit (s.rd (AON_RULE_HELD (r / 32))).toNat (r % 32) = true → s.cfg (AON_RULE2_ACT r) ≠ 7)))) = true := by
  decide +kernel

theorem witness_OnlyCheckedImagesRun_1 :
(
    (let i : Fin 5 := 1
     let s : State := base
     let s : State := s.set SEC_STAT_BUSY (1)
     decide (s.reaches i SEC_CMD = true ∧ s.get SEC_STAT_BUSY = 1)) &&
    (let i : Fin 5 := 1
     let s : State := base
     let p := (Sys2Proof.Machine.execAttest i, 2)
     let s : State := s.set SEC_STAT_BUSY (0)
     let s : State := s.set (ctlEn secPage) (0)
     decide (s.reaches i SEC_CMD = true ∧ s.get SEC_STAT_BUSY = 0 ∧
       (s.get (ctlEn secPage) = 0 ∨ s.get SEC_STAT_STATE ≠ (if p.2 = 5 then 3 else 2)))) &&
    (let i : Fin 5 := 1
     let s : State := base
     let p := (Sys2Proof.Machine.execRecover i, 5)
     let s : State := s.set SEC_STAT_BUSY (0)
     let s : State := s.set (ctlEn secPage) (1)
     let s : State := s.set SEC_STAT_STATE ((if p.2 = 5 then 3 else 2))
     let s : State := s.set SEC_SRC_LEN_LEN (if (0) = 0 then 1 else 0)
     decide (s.reaches i SEC_CMD = true ∧ s.get SEC_STAT_BUSY = 0 ∧ s.get (ctlEn secPage) = 1 ∧
       s.get SEC_STAT_STATE = (if p.2 = 5 then 3 else 2) ∧ (p.2 = 1 ∨ p.2 = 5) ∧ s.get SEC_SRC_LEN_LEN ≠ 0)) &&
    (let i : Fin 5 := 1
     let s : State := base
     let p := (Sys2Proof.Machine.execSecLoad i, 1)
     let s : State := s.set SEC_STAT_BUSY (0)
     let s : State := s.set (ctlEn secPage) (1)
     let s : State := s.set SEC_STAT_STATE ((if p.2 = 5 then 3 else 2))
     let s : State := s.set SEC_SRC_LEN_LEN (0)
     decide (s.reaches i SEC_CMD = true ∧ s.get SEC_STAT_BUSY = 0 ∧ s.get (ctlEn secPage) = 1 ∧
       s.get SEC_STAT_STATE = (if p.2 = 5 then 3 else 2) ∧ (p.2 = 1 ∨ p.2 = 5) ∧ s.get SEC_SRC_LEN_LEN = 0)) &&
    (let i : Fin 5 := 1
     let s : State := base
     let p := (Sys2Proof.Machine.execAttest i, 2)
     let s : State := s.set SEC_STAT_BUSY (0)
     let s : State := s.set (ctlEn secPage) (1)
     let s : State := s.set SEC_STAT_STATE ((if p.2 = 5 then 3 else 2))
     decide (s.reaches i SEC_CMD = true ∧ s.get SEC_STAT_BUSY = 0 ∧ s.get (ctlEn secPage) = 1 ∧
       s.get SEC_STAT_STATE = (if p.2 = 5 then 3 else 2) ∧ p.2 = 2)) &&
    (let i : Fin 5 := 1
     let s : State := base
     let p := (Sys2Proof.Machine.execSvnAdvance i, 3)
     let s : State := s.set SEC_STAT_BUSY (0)
     let s : State := s.set (ctlEn secPage) (1)
     let s : State := s.set SEC_STAT_STATE ((if p.2 = 5 then 3 else 2))
     let s : State := s.set SEC_SVN_ARG_ARG 65
     let s : State := w_sec s ({ s.sec with svn := some 0 })
     let v := s.get SEC_SVN_ARG_ARG
     decide (s.reaches i SEC_CMD = true ∧ s.get SEC_STAT_BUSY = 0 ∧ s.get (ctlEn secPage) = 1 ∧
       s.get SEC_STAT_STATE = (if p.2 = 5 then 3 else 2) ∧ p.2 = 3 ∧ v = s.get SEC_SVN_ARG_ARG ∧
       (v ≤ s.svn ∨ 64 < v ∨ (s.sec.boot.map SecImg.svn).getD 0 < v))) &&
    (let i : Fin 5 := 1
     let s : State := base
     let p := (Sys2Proof.Machine.execSvnAdvance i, 3)
     let s : State := s.set SEC_STAT_BUSY (0)
     let s : State := s.set (ctlEn secPage) (1)
     let s : State := s.set SEC_STAT_STATE ((if p.2 = 5 then 3 else 2))
     let s : State := s.set SEC_SVN_ARG_ARG 64
     let s : State := w_sec s ({ s.sec with svn := some 63, boot := some { svn := 64 } })
     let v := s.get SEC_SVN_ARG_ARG
     decide (s.reaches i SEC_CMD = true ∧ s.get SEC_STAT_BUSY = 0 ∧ s.get (ctlEn secPage) = 1 ∧
       s.get SEC_STAT_STATE = (if p.2 = 5 then 3 else 2) ∧ p.2 = 3 ∧ v = s.get SEC_SVN_ARG_ARG ∧ s.svn < v ∧ v ≤ 64 ∧
       v ≤ (s.sec.boot.map SecImg.svn).getD 0)) &&
    (let i : Fin 5 := 1
     let s : State := base
     let p := (Sys2Proof.Machine.execRevoke i, 4)
     let s : State := s.set SEC_STAT_BUSY (0)
     let s : State := s.set (ctlEn secPage) (1)
     let s : State := s.set SEC_STAT_STATE ((if p.2 = 5 then 3 else 2))
     let s : State := s.set SEC_SVN_ARG_ARG 3
     let s : State := w_sec s ({ s.sec with boot := some { slot := 3 } })
     let v := s.get SEC_SVN_ARG_ARG % 4
     decide (s.reaches i SEC_CMD = true ∧ s.get SEC_STAT_BUSY = 0 ∧ s.get (ctlEn secPage) = 1 ∧
       s.get SEC_STAT_STATE = (if p.2 = 5 then 3 else 2) ∧ p.2 = 4 ∧ v = s.get SEC_SVN_ARG_ARG % 4 ∧
       (s.sec.boot.map SecImg.slot = some v ∨ (∀ j, j < 4 → j = v ∨ bit s.revokedSlots j = true)))) &&
    (let s : State := base
     decide (s.sec.cmd ≠ 3 ∧ s.sec.cmd ≠ 4)) &&
    (let s : State := base
     let s : State := w_sec s ({ s.sec with cmd := 3 })
     let s : State := w_sec s ({ s.sec with svn := some 63, arg := 64 })
     decide (s.sec.cmd = 3 ∧ s.sec.arg ≤ 64 ∧ s.fuseSvn < s.sec.arg)) &&
    (let s : State := base
     let s : State := w_sec s ({ s.sec with cmd := 4 })
     decide (s.sec.cmd = 4)) &&
    (let s : State := base
     decide (((s.sec.cmd ≠ 1 ∨ s.sec.graphPend.isSome = true)) ∧ s.sec.cmd ≠ 5)) &&
    (let l : List Byte := contFor 3 ([1])
     let s : State := base
     let s : State := w_sec s ({ s.sec with cmd := 1 })
     let s : State := w_sec s ({ s.sec with graphPend := none })
     let s : State := w_sec s ({ s.sec with len := l.length, cmd := 1, svn := some 64 })
     let k : Nat := 4
     let b : List Byte := bytesAt l 0 s.sec.len
     let cause : Nat := s.verify k b
     decide (b = bytesAt l 0 s.sec.len ∧ ((s.sec.cmd = 1 ∧ s.sec.graphPend = none ∧ k = (if contKind b = 2 then 2 else 4)) ∨ (s.sec.cmd = 5 ∧
       k = 1)) ∧ cause = s.verify k b ∧ cause ≠ 0)) &&
    (let s : State := base
     let s : State := w_sec s ({ s.sec with cmd := 1 })
     let s : State := w_sec s ({ s.sec with graphPend := none })
     decide (((s.sec.cmd = 1 ∧ s.sec.graphPend = none) ∨ s.sec.cmd = 5)))) = true := by
  decide +kernel

theorem witness_OnlyCheckedImagesRun_2 :
(
    (let s : State := base
     decide (s.sec.cmd ≠ 2)) &&
    (let s : State := base
     let s : State := w_sec s ({ s.sec with cmd := 2 })
     decide (s.sec.cmd = 2)) &&
    (let s : State := base
     let s : State := w_held s (true)
     decide ((s.held = true ∨ 2 ≤ s.get SEC_STAT_STATE))) &&
    (let s : State := base
     let ke : Bool := true
     let s : State := w_held s (false)
     let s : State := s.set SEC_STAT_STATE (0)
     decide (s.held = false ∧ s.get SEC_STAT_STATE = 0 ∧ ke = true)) &&
    (let d0 : Fetched := .bytes []
     let d1 : Fetched := .bytes []
     let s : State := base
     let ke : Bool := false
     let s : State := w_held s (false)
     let s : State := s.set SEC_STAT_STATE (0)
     decide (s.held = false ∧ s.get SEC_STAT_STATE = 0 ∧ ke = false ∧ dirOk d0 = false ∧ dirOk d1 = false)) &&
    (let s : State := base
     let s : State := w_held s (false)
     let s : State := s.set SEC_STAT_STATE (1)
     decide (s.held = false ∧ s.get SEC_STAT_STATE = 1))) = true := by
  decide +kernel

end Sys2Proof.Tests
end

