-- ==== Sys2Proof/Proofs/Doom.lean ====
section
/-! PROOF. What dooming a transaction writes and what it leaves alone, and the time-out of an OPEN one (02 R42, R45, R49). -/

namespace Sys2Proof.Machine

open Reg

/-! ### What the Ledger holds for an initiator -/

@[simp] theorem State.set_txn (s : State) (f : Fld) (v j : Nat) : (s.set f v).txn j = s.txn j := rfl

@[simp] theorem State.setTxnState_txn (s : State) (i : Nat) (t : TxnState) (j : Nat) : (s.setTxnState i t).txn j = s.txn j := rfl

@[simp] theorem State.setTxnResult_txn (s : State) (i : Nat) (r : TxnResult) (j : Nat) : (s.setTxnResult i r).txn j = s.txn j := rfl

@[simp] theorem State.setInt_txn (s : State) (pg b j : Nat) : (s.setInt pg b).txn j = s.txn j := by
  simp only [State.setInt, State.withIrq]
  split <;> rfl

@[simp] theorem State.setTxn_txn_self (s : State) (i : Nat) (x : Txn) : (s.setTxn i x).txn i = x := Tbl.get_set_self _ _ _ _

theorem State.setTxn_txn_ne (s : State) (i j : Nat) (x : Txn) (h : j ≠ i) : (s.setTxn i x).txn j = s.txn j :=
  Tbl.get_set_ne _ _ _ _ _ h

/-! ### Discarding the staged changes (02 R42, 11 R253) -/

/-- The words are discarded from the Ledger's tables; no register is written. -/
@[simp] theorem State.discardTxn_regs (s : State) (i : Nat) : (s.discardTxn i).regs = s.regs := rfl

@[simp] theorem State.discardTxn_txn_self (s : State) (i : Nat) :
    (s.discardTxn i).txn i = { s.txn i with staged := [], gmem := [] } :=
  State.setTxn_txn_self s i _

theorem State.discardTxn_txn_ne (s : State) (i j : Nat) (h : j ≠ i) : (s.discardTxn i).txn j = s.txn j :=
  State.setTxn_txn_ne s i j _ h

/-! ### LDG_TXN_STAT -/

@[simp] theorem State.txnState_setTxnState (s : State) (i : Nat) (t : TxnState) : (s.setTxnState i t).txnState i = t := by
  have hget : (s.setTxnState i t).get (LDG_TXN_STAT_STATE i) = t.code % 2 ^ 3 :=
    State.get_set_self s (LDG_TXN_STAT_STATE i) _ (by simp [LDG_TXN_STAT_STATE])
  rw [State.txnState, hget]
  cases t <;> rfl

/-- STATE and RESULT are apart in LDG_TXN_STAT. -/
@[simp] theorem State.txnState_setTxnResult (s : State) (i : Nat) (r : TxnResult) :
    (s.setTxnResult i r).txnState i = s.txnState i := by
  have hget : (s.setTxnResult i r).get (LDG_TXN_STAT_STATE i) = s.get (LDG_TXN_STAT_STATE i) :=
    State.get_set_field s (LDG_TXN_STAT_STATE i) (LDG_TXN_STAT_RESULT i) _ rfl
      (by simp [LDG_TXN_STAT_STATE]) (by simp [LDG_TXN_STAT_STATE, LDG_TXN_STAT_RESULT])
  rw [State.txnState, hget, State.txnState]

@[simp] theorem State.get_result_setTxnResult (s : State) (i : Nat) (r : TxnResult) :
    (s.setTxnResult i r).get (LDG_TXN_STAT_RESULT i) = r.code := by
  have hget : (s.setTxnResult i r).get (LDG_TXN_STAT_RESULT i) = r.code % 2 ^ 4 :=
    State.get_set_self s (LDG_TXN_STAT_RESULT i) _ (by simp [LDG_TXN_STAT_RESULT])
  rw [hget]
  cases r <;> rfl

/-- No initiator's LDG_TXN_STAT is the INT_STAT of the LDG page. -/
theorem ldg_txn_stat_ne_int_stat (i : Nat) : LDG_TXN_STAT i ≠ ldgPage + 0x14 := by
  simp only [LDG_TXN_STAT, ldgPage]
  omega

@[simp] theorem State.txnState_setInt (s : State) (b i : Nat) : (s.setInt ldgPage b).txnState i = s.txnState i := by
  rw [State.txnState, State.get_setInt_ne s ldgPage b (LDG_TXN_STAT_STATE i) (ldg_txn_stat_ne_int_stat i), State.txnState]

/-! ### Dooming (02 R42, R44, R49) -/

theorem State.doom_txnState (s : State) (i : Nat) (r : TxnResult) : (s.doom i r).txnState i = .doomed := by
  simp [State.doom]

theorem State.doom_result (s : State) (i : Nat) (r : TxnResult) : (s.doom i r).get (LDG_TXN_STAT_RESULT i) = r.code := by
  rw [State.doom, State.get_setInt_ne _ _ _ (LDG_TXN_STAT_RESULT i) (ldg_txn_stat_ne_int_stat i), State.get_result_setTxnResult]

theorem State.doom_int_stat (s : State) (i : Nat) (r : TxnResult) (h : i < 24) :
    (s.doom i r).get ⟨ldgPage + 0x14, 8 + i, 1⟩ = 1 :=
  State.get_setInt_self _ ldgPage (8 + i) (by omega)

theorem State.doom_staged (s : State) (i : Nat) (r : TxnResult) : ((s.doom i r).txn i).staged = [] := by
  simp [State.doom]

theorem State.doom_txn_ne (s : State) (i j : Nat) (r : TxnResult) (h : j ≠ i) : (s.doom i r).txn j = s.txn j := by
  simp [State.doom, State.discardTxn_txn_ne s i j h]

/-- Dooming writes the initiator's LDG_TXN_STAT and the page's INT_STAT, and no other register. -/
theorem State.doom_rd_ne (s : State) (i b : Nat) (r : TxnResult) (hstat : b ≠ LDG_TXN_STAT i) (hint : b ≠ ldgPage + 0x14) :
    (s.doom i r).rd b = s.rd b := by
  calc (s.doom i r).rd b
      = (((s.discardTxn i).setTxnState i .doomed).setTxnResult i r).rd b := State.rd_setInt_ne _ _ _ _ hint
    _ = ((s.discardTxn i).setTxnState i .doomed).rd b := State.rd_set_ne _ _ _ _ hstat
    _ = (s.discardTxn i).rd b := State.rd_set_ne _ _ _ _ hstat
    _ = s.rd b := State.rd_congr (State.discardTxn_regs s i) b

/-! ### TXN_TIMEOUT (02 R45) -/

/-- The timeout of initiator `i`'s transaction has passed: it is OPEN, its timeout is not 0, and it was opened longer ago. -/
def State.TxnExpired (s : State) (i : Nat) : Prop :=
  s.txnState i = .opened ∧ s.get (LDG_TXN_TIMEOUT_TIMEOUT_US i) ≠ 0 ∧
    s.get (LDG_TXN_TIMEOUT_TIMEOUT_US i) * 1000 < s.now - (s.txn i).opened

theorem exec_txnTimeout_of_expired (i : Fin 5) (s : State) (h : s.TxnExpired i) :
    exec (.txnTimeout i) s = .next (s.doom i .timeout) := by
  obtain ⟨hopen, hset, hpast⟩ := h
  simp [exec, execTxnTimeout, hopen, hset, hpast]

theorem exec_txnTimeout_of_not_expired (i : Fin 5) (s : State) (h : ¬ s.TxnExpired i) :
    exec (.txnTimeout i) s = .next s := by
  have hcond : (s.txnState i = .opened && s.get (LDG_TXN_TIMEOUT_TIMEOUT_US i) ≠ 0 &&
      s.get (LDG_TXN_TIMEOUT_TIMEOUT_US i) * 1000 < s.now - (s.txn i).opened) = false := by
    simpa [State.TxnExpired] using h
  simp only [exec, execTxnTimeout, hcond, Bool.false_eq_true, if_false]

/-- Settles O16: past its timeout an OPEN transaction is doomed with RESULT 3; where one of the three conditions fails the state stands. -/
theorem openTransactionTimesOut : Obligations.OpenTransactionTimesOut := by
  intro i s
  refine ⟨fun hopen hset hpast => ?_, fun hno => ?_⟩
  · exact ⟨s.doom i .timeout, exec_txnTimeout_of_expired i s ⟨hopen, hset, hpast⟩, s.doom_txnState i _, s.doom_result i _,
      s.doom_staged i _, s.doom_int_stat i _ (by omega), fun j hj => s.doom_txn_ne i j _ hj,
      fun b hstat hint => s.doom_rd_ne i b _ hstat hint, s.doom_kept i _⟩
  · refine exec_txnTimeout_of_not_expired i s ?_
    rintro ⟨hopen, hset, hpast⟩
    rcases hno with hstate | hzero | hnotPast
    · exact hstate hopen
    · exact hset hzero
    · exact Nat.not_lt.mpr hnotPast hpast

end Sys2Proof.Machine
end

