-- ==== Sys2Proof/Proofs/TimeCapture.lean ====
section
/-! PROOF. What a read of a TIM register captures for its initiator, and that a pair's capture is apart from it (18 R420, 02 R33). -/

namespace Sys2Proof.Machine

open Reg

/-! ### The captured words -/

/-- The word captured for an initiator: `k` is 0 for TIM_NOW_SLO, 1 for TIM_NOW_SHI, 2 for TIM_PPS_IN_SLO. -/
def State.timCap (s : State) (i k : Nat) : Option Word := Tbl.get (fun _ => none) s.tim.cap (4 * i + k)

@[simp] theorem State.timCap_setTimCap_self (s : State) (i k : Nat) (w : Option Word) : (s.setTimCap i k w).timCap i k = w :=
  Tbl.get_set_self _ _ _ _

theorem State.timCap_setTimCap_of_key_ne (s : State) (i k j m : Nat) (w : Option Word) (h : 4 * j + m ≠ 4 * i + k) :
    (s.setTimCap i k w).timCap j m = s.timCap j m :=
  Tbl.get_set_ne _ _ _ _ _ h

/-- The words of one initiator are apart. -/
theorem State.timCap_setTimCap_of_reg_ne (s : State) (i k m : Nat) (w : Option Word) (h : m ≠ k) :
    (s.setTimCap i k w).timCap i m = s.timCap i m :=
  s.timCap_setTimCap_of_key_ne i k i m w (by omega)

/-- The words of two initiators are apart. -/
theorem State.timCap_setTimCap_of_init_ne (s : State) (i j : Fin 5) (k m : Fin 3) (w : Option Word) (h : j ≠ i) :
    (s.setTimCap i k w).timCap j m = s.timCap j m :=
  s.timCap_setTimCap_of_key_ne i k j m w (by omega)

theorem State.answerRead_rdata_self (s : State) (i : Nat) (w : Word) : Tbl.get (fun _ => 0) (s.answerRead i w).rdata i = w :=
  Tbl.get_set_self _ _ _ _

/-! ### The frame: the captures of TIM and the answers -/

/-- Nothing but the captures of TIM and the answers of reads differs. -/
def State.SameButTimCap (s t : State) : Prop := t = { s with
  tim := { s.tim with cap := t.tim.cap }
  rdata := t.rdata }

theorem State.SameButTimCap.refl (s : State) : s.SameButTimCap s := rfl

theorem State.SameButTimCap.setTimCap {s t : State} (h : s.SameButTimCap t) (i k : Nat) (w : Option Word) :
    s.SameButTimCap (t.setTimCap i k w) := by
  rw [State.SameButTimCap] at h ⊢
  rw [h]
  rfl

theorem State.SameButTimCap.answerRead {s t : State} (h : s.SameButTimCap t) (i : Nat) (w : Word) :
    s.SameButTimCap (t.answerRead i w) := by
  rw [State.SameButTimCap] at h ⊢
  rw [h]
  rfl

/-! ### The reads of TIM_NOW and TIM_PPS_IN (18 R420) -/

theorem State.timeRead_slo (s : State) (i : Nat) : (s.timeRead i).2.timCap i 0 = some (BitVec.ofNat 32 s.tb.sec) := by
  rw [State.timeRead, State.timCap_setTimCap_of_reg_ne _ i 1 0 _ (by decide), State.timCap_setTimCap_self]

theorem State.timeRead_shi (s : State) (i : Nat) : (s.timeRead i).2.timCap i 1 = some s.nowShi :=
  State.timCap_setTimCap_self _ _ _ _

theorem State.timeRead_pps (s : State) (i : Nat) : (s.timeRead i).2.timCap i 2 = s.timCap i 2 := by
  rw [State.timeRead, State.timCap_setTimCap_of_reg_ne _ i 1 2 _ (by decide), State.timCap_setTimCap_of_reg_ne _ i 0 2 _ (by decide)]

theorem State.timeRead_of_init_ne (s : State) (i j : Fin 5) (m : Fin 3) (h : j ≠ i) : (s.timeRead i).2.timCap j m = s.timCap j m :=
  calc (s.timeRead i).2.timCap j m
      = (s.setTimCap i 0 (some (BitVec.ofNat 32 s.tb.sec))).timCap j m := State.timCap_setTimCap_of_init_ne _ i j 1 m _ h
    _ = s.timCap j m := State.timCap_setTimCap_of_init_ne _ i j 0 m _ h

theorem State.timeRead_frame (s : State) (i : Nat) : s.SameButTimCap (s.timeRead i).2 :=
  ((State.SameButTimCap.refl s).setTimCap i 0 _).setTimCap i 1 _

/-- The read of a captured register answers the capture, or the current word where there is none. -/
theorem State.timCapRead_word (s : State) (i k : Nat) (cur : Word) : (s.timCapRead i k cur).1 = (s.timCap i k).getD cur := by
  unfold State.timCapRead State.timCap
  split <;> simp [*]

/-- The read of a captured register gives up its capture. -/
theorem State.timCapRead_self (s : State) (i k : Nat) (cur : Word) : (s.timCapRead i k cur).2.timCap i k = none := by
  unfold State.timCapRead
  split
  · exact State.timCap_setTimCap_self _ _ _ _
  · assumption

theorem State.timCapRead_of_ne (s : State) (i j : Fin 5) (k m : Fin 3) (cur : Word) (h : (j, m) ≠ (i, k)) :
    (s.timCapRead i k cur).2.timCap j m = s.timCap j m := by
  have hkey : 4 * j.val + m ≠ 4 * i.val + k := fun heq => by
    have hinit : j = i := by omega
    have hreg : m = k := by omega
    exact h (by rw [hinit, hreg])
  unfold State.timCapRead
  split
  · exact s.timCap_setTimCap_of_key_ne i k j m none hkey
  · rfl

theorem State.timCapRead_frame (s : State) (i k : Nat) (cur : Word) : s.SameButTimCap (s.timCapRead i k cur).2 := by
  unfold State.timCapRead
  split
  · exact (State.SameButTimCap.refl s).setTimCap i k none
  · exact State.SameButTimCap.refl s

theorem State.ppsInRead_frame (s : State) (i : Nat) : s.SameButTimCap (s.ppsInRead i).2 :=
  (State.SameButTimCap.refl s).setTimCap i 2 _

/-! ### The register that a read finds at an address -/

theorem State.regRead_TIM_NOW_NS (s : State) (i : Nat) : s.regRead i TIM_NOW_NS = s.timeRead i := rfl

theorem State.regRead_TIM_PPS_IN_NS (s : State) (i : Nat) : s.regRead i TIM_PPS_IN_NS = s.ppsInRead i := rfl

/-- The address and the current word of each register that a read captures. -/
def State.CapturedReg (s : State) (k : Fin 3) (a : Nat) (cur : Word) : Prop :=
  (k = 0 ∧ a = TIM_NOW_SLO ∧ cur = BitVec.ofNat 32 s.tb.sec) ∨ (k = 1 ∧ a = TIM_NOW_SHI ∧ cur = s.nowShi) ∨
    (k = 2 ∧ a = TIM_PPS_IN_SLO ∧ cur = s.rd TIM_PPS_IN_SLO)

theorem State.CapturedReg.regRead {s : State} {k : Fin 3} {a : Nat} {cur : Word} (h : s.CapturedReg k a cur) (i : Nat) :
    s.regRead i a = s.timCapRead i k cur := by
  obtain ⟨rfl, rfl, rfl⟩ | ⟨rfl, rfl, rfl⟩ | ⟨rfl, rfl, rfl⟩ := h <;> rfl

theorem State.CapturedReg.toNat_addr {s : State} {k : Fin 3} {a : Nat} {cur : Word} (h : s.CapturedReg k a cur) :
    (BitVec.ofNat 27 a).toNat = a := by
  obtain ⟨-, rfl, -⟩ | ⟨-, rfl, -⟩ | ⟨-, rfl, -⟩ := h <;> rfl

theorem State.CapturedReg.aligned {s : State} {k : Fin 3} {a : Nat} {cur : Word} (h : s.CapturedReg k a cur) : a % 4 = 0 := by
  obtain ⟨-, rfl, -⟩ | ⟨-, rfl, -⟩ | ⟨-, rfl, -⟩ := h <;> rfl

/-! ### Reads outside TIM leave its captures (02 R33, 17 R392) -/

@[simp] theorem State.setInt_tim (s : State) (pg b : Nat) : (s.setInt pg b).tim = s.tim := by
  simp only [State.setInt, State.withIrq]
  split <;> rfl

@[simp] theorem State.setIsrc_tim (s : State) (n : Nat) (x : ISrc) : (s.setIsrc n x).tim = s.tim := by
  simp only [State.setIsrc]
  split
  · exact State.setInt_tim _ icuPage 1
  · rfl

theorem State.claim_tim (s : State) (t : Nat) : (s.claim t).2.tim = s.tim := by
  simp only [State.claim]
  split
  · rfl
  · exact State.setIsrc_tim s _ _

theorem State.readHi_tim (s : State) (i a : Nat) : (s.readHi i a).2.tim = s.tim := by
  unfold State.readHi
  repeat' split
  all_goals rfl

theorem State.regRead_tim_of_block_ne (s : State) (i a : Nat) (h : blockOf a ≠ 7) : (s.regRead i a).2.tim = s.tim := by
  have hne : ∀ b, blockOf b = 7 → a ≠ b := fun b hb hab => h (hab ▸ hb)
  rw [State.regRead, if_neg (hne TIM_NOW_NS rfl), if_neg (hne TIM_NOW_SLO rfl), if_neg (hne TIM_NOW_SHI rfl),
    if_neg (hne TIM_PPS_IN_NS rfl), if_neg (hne TIM_PPS_IN_SLO rfl)]
  split
  · exact s.claim_tim 256
  · split
    · exact s.claim_tim _
    · split
      · rfl
      · split
        · exact s.readHi_tim i a
        · rfl

/-! ### The commands that read -/

/-- The state after initiator `i` is answered with a read's word and effect. -/
def State.answered (i : Nat) (r : Word × State) : State := r.2.answerRead i r.1

theorem exec_timeRead_of_reaches (i : Fin 5) (s : State) (h : s.reaches i TIM_NOW_NS = true) :
    exec (.timeRead i) s = .next (State.answered i (s.timeRead i)) := by
  simp only [exec, execTimeRead, s.atRead_of_reaches i TIM_NOW_NS _ h, State.answered]

theorem exec_ppsInRead_of_reaches (i : Fin 5) (s : State) (h : s.reaches i TIM_PPS_IN_NS = true) :
    exec (.ppsInRead i) s = .next (State.answered i (s.ppsInRead i)) := by
  simp only [exec, execPpsInRead, s.atRead_of_reaches i TIM_PPS_IN_NS _ h, State.answered]

theorem exec_loRegisterRead_of_reaches (i : Fin 5) (addr : BitVec 27) (s : State) (hal : addr.toNat % 4 = 0)
    (h : s.reaches i addr.toNat = true) :
    exec (.loRegisterRead i addr false) s = .next (State.answered i (s.regRead i addr.toNat)) := by
  simp [exec, execLoRegisterRead, aligned, hal, s.atRead_of_reaches i addr.toNat _ h, State.answered]

theorem exec_hiRegisterRead_of_reaches (i : Fin 5) (addr : BitVec 27) (s : State) (hal : addr.toNat % 4 = 0)
    (h : s.reaches i addr.toNat = true) :
    exec (.hiRegisterRead i addr) s = .next (State.answered i (s.regRead i addr.toNat)) := by
  simp [exec, execHiRegisterRead, aligned, hal, s.atRead_of_reaches i addr.toNat _ h, State.answered]

/-- Settles O55: each clause is what its read does to the captures, since the answer writes none of them; a read outside TIM leaves them. -/
theorem timeReadsCaptureOneCycle : Obligations.TimeReadsCaptureOneCycle := by
  refine ⟨fun i s h => ?_, fun i s h => ?_, fun i k a cur s hreg h => ?_, fun i addr s hal h _ hblk => ?_⟩
  · exact ⟨State.answered i (s.timeRead i), exec_timeRead_of_reaches i s h,
      exec_loRegisterRead_of_reaches i (BitVec.ofNat 27 TIM_NOW_NS) s rfl h,
      State.answerRead_rdata_self _ _ _, s.timeRead_slo i, s.timeRead_shi i, s.timeRead_pps i,
      fun j m hj => s.timeRead_of_init_ne i j m hj, (s.timeRead_frame i).answerRead i _⟩
  · exact ⟨State.answered i (s.ppsInRead i), exec_ppsInRead_of_reaches i s h,
      exec_loRegisterRead_of_reaches i (BitVec.ofNat 27 TIM_PPS_IN_NS) s rfl h,
      State.answerRead_rdata_self _ _ _, s.timCap_setTimCap_self i 2 _,
      s.timCap_setTimCap_of_reg_ne i 2 0 _ (by decide), s.timCap_setTimCap_of_reg_ne i 2 1 _ (by decide),
      fun j m hj => s.timCap_setTimCap_of_init_ne i j 2 m _ hj, (s.ppsInRead_frame i).answerRead i _⟩
  · have hcap : s.CapturedReg k a cur := hreg
    have haddr := hcap.toNat_addr
    have hlo := exec_loRegisterRead_of_reaches i (BitVec.ofNat 27 a) s
    have hhi := exec_hiRegisterRead_of_reaches i (BitVec.ofNat 27 a) s
    rw [haddr, hcap.regRead i] at hlo hhi
    exact ⟨State.answered i (s.timCapRead i k cur), hlo hcap.aligned h, hhi hcap.aligned h,
      (State.answerRead_rdata_self _ _ _).trans (s.timCapRead_word i k cur), s.timCapRead_self i k cur,
      fun j m hne => s.timCapRead_of_ne i j k m cur hne, (s.timCapRead_frame i k cur).answerRead i _⟩
  · have htim := s.regRead_tim_of_block_ne i addr.toNat hblk
    exact ⟨⟨_, exec_loRegisterRead_of_reaches i addr s hal h, htim⟩, ⟨_, exec_hiRegisterRead_of_reaches i addr s hal h, htim⟩⟩

end Sys2Proof.Machine
end
